-- ==== Sys2Proof/Word.lean ====
section
/-! DEFINITION. The word types of the part and the sparse map in which the state keeps whatever it has many of. -/

namespace Sys2Proof

/-- A scalar register, a mask or a control register (R40, R343). -/
abbrev Word := BitVec 64

/-- The smallest addressable unit (R9). -/
abbrev Byte := BitVec 8

/-- A vector register or vector queue entry (R343). -/
abbrev Vec := BitVec 1024

/-- A sparse map: keys strictly rising, no value equal to what an unlisted key reads as. -/
abbrev Map (α : Type) := List (Nat × α)

end Sys2Proof
end

