-- ==== Sys2Proof/Config.lean ====
section
/-! DEFINITION. What the manual leaves to the machine: constants with no body, so that nothing can be proved of their
values.  A step applies them to the counter `State.fresh`, to its operands, or to both. -/

namespace Sys2Proof.Config

/-- DESIGN CHOICE (12): a choice among alternatives that the manual allows (R162, R175, R178, R428), from the step
counter; the user takes it modulo the number of alternatives. -/
opaque freePick : Nat → Nat

/-- DESIGN CHOICE (12): whether a read sees a write that it need not see (R162, R174): the step of the read, the number of
the access within the step, the step of the write, and the line. -/
opaque freeSees : Nat → Nat → Nat → Nat → Bool

/-- DESIGN CHOICE (13): what a pod peer answers to a read of the byte at a region-5 address (R145), from the step counter
and the address. -/
opaque peerByte : Nat → Nat → Byte

/-- DESIGN CHOICE (17): SHA-512 (R261), by name only; the manual does not restate the standard. -/
opaque sha512 : List Byte → Nat

/-- DESIGN CHOICE (17): Ed25519 (R261, R262), by name only: key, message, signature. -/
opaque ed25519Verifies : List Byte → List Byte → List Byte → Bool

/-- DESIGN CHOICE (17): the signature that the device's identity key makes of a message (R262, R273). -/
opaque identitySign : List Byte → List Byte

/-- DESIGN CHOICE (17): the identity public key, byte by byte (R262, R272). -/
opaque identityKey : Nat → Byte

/-- DESIGN CHOICE (17): the vendor root public key in the boot ROM (R260). -/
opaque rootKey : List Byte

/-- DESIGN CHOICE (102): what the boot manifest in the body of a Chanter image gives (R261), whose form the manual does not
state: the host-memory address and length of the Drone image and of the device kernel, and the kernel-reserved ranges. -/
opaque manifestDrone : List Byte → Nat × Nat
opaque manifestKernel : List Byte → Nat × Nat
opaque manifestRanges : List Byte → List (Nat × Nat)

/-- DESIGN CHOICE (18): where a system core begins at trap entry: the entry of its landing SRAM (R452), which the manual gives no address. -/
opaque landingEntry : Nat → Word

/-- DESIGN CHOICE (18): the physical addresses at which a system core reaches its landing SRAM (R452), by core number. -/
opaque inLanding : Nat → Nat → Bool

/-- DESIGN CHOICE (102): where Chanter loads the Drone image and the device kernel (R260), by the body of its image, and where the
cores that it releases begin, by core number. -/
opaque droneHome : List Byte → Nat
opaque kernelHome : List Byte → Nat
opaque releaseEntry : Nat → Word

/-- DESIGN CHOICE (28): the register of a core, by core and number (R312), that stands at an address of region 6 (R425); none where
the address names no such register. -/
opaque registerAt : Nat → Option (Nat × Nat)

/-- DESIGN CHOICE (28): what Drone sets by a register of region 6, by space and address within it; none where the address names no
such register. -/
opaque droneRegister : Nat → Option (Nat × Nat)

/-- DESIGN CHOICE (28): the security-core registers and the kernel-reserved table among the addresses of region 6 (R264). -/
opaque securityRegister : Nat → Bool

/-- DESIGN CHOICE (12): what a context window shows for a queue entry whose load has not returned (R454), and what a register of
region 6 of which the manual says nothing reads as, from the step counter and the offset or address. -/
opaque deviceByte : Nat → Nat → Byte

end Sys2Proof.Config
end

