-- ==== Sys2Proof/Syntax.lean ====
section
/-! DEFINITION. The instructions and events of the part: one constructor for each row of the table of
operations (spec/opcode_table.json).

An instruction's fields are the bits the table leaves open, named as the table names them and listed from the highest
bit down.  The instructions stand first, then the events.  An event (a row without bits) has no fields: what it takes from
outside, or which of several like steps it is, stands in the state's `args` (Machine/State.lean). -/

namespace Sys2Proof

/-- The rows of the table of operations and events. -/
inductive Instr where
  /-- ADD (R319). Scalar add, wrapping. -/
  | add (z : BitVec 1) (y : BitVec 1) (x : BitVec 1) (b : BitVec 5) (a : BitVec 5) (d : BitVec 5)
  /-- SUB (R319). Scalar subtract. -/
  | sub (z : BitVec 1) (y : BitVec 1) (x : BitVec 1) (b : BitVec 5) (a : BitVec 5) (d : BitVec 5)
  /-- AND (R319). Bitwise AND. -/
  | and (z : BitVec 1) (y : BitVec 1) (x : BitVec 1) (b : BitVec 5) (a : BitVec 5) (d : BitVec 5)
  /-- OR (R319). Bitwise OR. -/
  | or (z : BitVec 1) (y : BitVec 1) (x : BitVec 1) (b : BitVec 5) (a : BitVec 5) (d : BitVec 5)
  /-- XOR (R319). Bitwise XOR. -/
  | xor (z : BitVec 1) (y : BitVec 1) (x : BitVec 1) (b : BitVec 5) (a : BitVec 5) (d : BitVec 5)
  /-- ANDN (R319). a AND NOT b. -/
  | andn (z : BitVec 1) (y : BitVec 1) (x : BitVec 1) (b : BitVec 5) (a : BitVec 5) (d : BitVec 5)
  /-- SHL (R319). Shift left by b modulo 64. -/
  | shl (z : BitVec 1) (y : BitVec 1) (x : BitVec 1) (b : BitVec 5) (a : BitVec 5) (d : BitVec 5)
  /-- SHR (R319). Logical shift right. -/
  | shr (z : BitVec 1) (y : BitVec 1) (x : BitVec 1) (b : BitVec 5) (a : BitVec 5) (d : BitVec 5)
  /-- SRA (R319). Arithmetic shift right. -/
  | sra (z : BitVec 1) (y : BitVec 1) (x : BitVec 1) (b : BitVec 5) (a : BitVec 5) (d : BitVec 5)
  /-- MUL (R319). Low 64 bits of the product. -/
  | mul (z : BitVec 1) (y : BitVec 1) (x : BitVec 1) (b : BitVec 5) (a : BitVec 5) (d : BitVec 5)
  /-- MULH (R319). High 64 bits of the signed product. -/
  | mulh (z : BitVec 1) (y : BitVec 1) (x : BitVec 1) (b : BitVec 5) (a : BitVec 5) (d : BitVec 5)
  /-- MULHN (R319). High 64 bits of the unsigned product. -/
  | mulhn (z : BitVec 1) (y : BitVec 1) (x : BitVec 1) (b : BitVec 5) (a : BitVec 5) (d : BitVec 5)
  /-- DIV (R320). Signed division with defined results for zero and overflow. -/
  | div (z : BitVec 1) (y : BitVec 1) (x : BitVec 1) (b : BitVec 5) (a : BitVec 5) (d : BitVec 5)
  /-- DIVN (R320). Unsigned division. -/
  | divn (z : BitVec 1) (y : BitVec 1) (x : BitVec 1) (b : BitVec 5) (a : BitVec 5) (d : BitVec 5)
  /-- REM (R320). Signed remainder. -/
  | rem (z : BitVec 1) (y : BitVec 1) (x : BitVec 1) (b : BitVec 5) (a : BitVec 5) (d : BitVec 5)
  /-- REMN (R320). Unsigned remainder. -/
  | remn (z : BitVec 1) (y : BitVec 1) (x : BitVec 1) (b : BitVec 5) (a : BitVec 5) (d : BitVec 5)
  /-- MIN (R319). Signed minimum. -/
  | min (z : BitVec 1) (y : BitVec 1) (x : BitVec 1) (b : BitVec 5) (a : BitVec 5) (d : BitVec 5)
  /-- MAX (R319). Signed maximum. -/
  | max (z : BitVec 1) (y : BitVec 1) (x : BitVec 1) (b : BitVec 5) (a : BitVec 5) (d : BitVec 5)
  /-- MINN (R319). Unsigned minimum. -/
  | minn (z : BitVec 1) (y : BitVec 1) (x : BitVec 1) (b : BitVec 5) (a : BitVec 5) (d : BitVec 5)
  /-- MAXN (R319). Unsigned maximum. -/
  | maxn (z : BitVec 1) (y : BitVec 1) (x : BitVec 1) (b : BitVec 5) (a : BitVec 5) (d : BitVec 5)
  /-- SLT (R319). 1 if a < b signed. -/
  | slt (z : BitVec 1) (y : BitVec 1) (x : BitVec 1) (b : BitVec 5) (a : BitVec 5) (d : BitVec 5)
  /-- SLTN (R319). 1 if a < b unsigned. -/
  | sltn (z : BitVec 1) (y : BitVec 1) (x : BitVec 1) (b : BitVec 5) (a : BitVec 5) (d : BitVec 5)
  /-- SEQ (R319). 1 if a = b. -/
  | seq (z : BitVec 1) (y : BitVec 1) (x : BitVec 1) (b : BitVec 5) (a : BitVec 5) (d : BitVec 5)
  /-- CSEL (R300). sd := sa if the old sd is non-zero, else sb. -/
  | csel (z : BitVec 1) (y : BitVec 1) (b : BitVec 5) (a : BitVec 5) (d : BitVec 5)
  /-- CLZ (R319). Count leading zeros. -/
  | clz (y : BitVec 1) (x : BitVec 1) (a : BitVec 5) (d : BitVec 5)
  /-- CTZ (R319). Count trailing zeros. -/
  | ctz (y : BitVec 1) (x : BitVec 1) (a : BitVec 5) (d : BitVec 5)
  /-- POPC (R319). Population count. -/
  | popc (y : BitVec 1) (x : BitVec 1) (a : BitVec 5) (d : BitVec 5)
  /-- SEXT (R319). Sign-extend from 8, 16 or 32 bits. -/
  | sext (w : BitVec 2) (y : BitVec 1) (x : BitVec 1) (a : BitVec 5) (d : BitVec 5)
  /-- ZEXT (R319). Zero-extend from 8, 16 or 32 bits. -/
  | zext (w : BitVec 2) (y : BitVec 1) (x : BitVec 1) (a : BitVec 5) (d : BitVec 5)
  /-- ADDI (R321). Add the signed immediate. -/
  | addi (i : BitVec 12) (a : BitVec 5) (d : BitVec 5)
  /-- ANDI (R321). AND with the immediate. -/
  | andi (i : BitVec 12) (a : BitVec 5) (d : BitVec 5)
  /-- ORI (R321). OR with the immediate. -/
  | ori (i : BitVec 12) (a : BitVec 5) (d : BitVec 5)
  /-- XORI (R321). XOR with the immediate. -/
  | xori (i : BitVec 12) (a : BitVec 5) (d : BitVec 5)
  /-- SHLI (R321). Shift left by the immediate modulo 64. -/
  | shli (i : BitVec 12) (a : BitVec 5) (d : BitVec 5)
  /-- SHRI (R321). Logical shift right by the immediate. -/
  | shri (i : BitVec 12) (a : BitVec 5) (d : BitVec 5)
  /-- SRAI (R321). Arithmetic shift right by the immediate. -/
  | srai (i : BitVec 12) (a : BitVec 5) (d : BitVec 5)
  /-- SLTI (R321). 1 if sa < imm signed. -/
  | slti (i : BitVec 12) (a : BitVec 5) (d : BitVec 5)
  /-- LUI (R322). sd := sext64(imm20 << 12). -/
  | lui (i : BitVec 20) (d : BitVec 5)
  /-- ADDPC (R322). sd := (pc with bits 2:0 cleared) + imm20 x 8. -/
  | addpc (i : BitVec 20) (d : BitVec 5)
  /-- LD (R325). Load 1-8 bytes, sign- or zero-extended, with fault policies applied. -/
  | ld (s : BitVec 3) (i : BitVec 12) (a : BitVec 5) (d : BitVec 5)
  /-- ST (R327). Check translation and place bytes in the write buffer. -/
  | st (s : BitVec 2) (i : BitVec 12) (a : BitVec 5) (c : BitVec 5)
  /-- LDX (R328). Register-indexed load, possibly to a scalar queue. -/
  | ldx (s : BitVec 3) (z : BitVec 1) (y : BitVec 1) (x : BitVec 1) (b : BitVec 5) (a : BitVec 5) (d : BitVec 5)
  /-- STX (R328). Register-indexed store. -/
  | stx (s : BitVec 2) (z : BitVec 1) (y : BitVec 1) (x : BitVec 1) (b : BitVec 5) (a : BitVec 5) (c : BitVec 5)
  /-- PREF (R330). Prefetch hint with no visible effect. -/
  | pref (i : BitVec 12) (a : BitVec 5)
  /-- ALLOC (R331). Commit, and ask the tier's buddy pool for a block; sd gets the address or a status. -/
  | alloc (t : BitVec 12) (a : BitVec 5) (d : BitVec 5)
  /-- FREE (R333). Commit, and return a block to its pool, crediting the charge. -/
  | free (a : BitVec 5) (d : BitVec 5)
  /-- BEQ (R334). Branch if equal. -/
  | beq (h : BitVec 1) (i : BitVec 11) (b : BitVec 5) (a : BitVec 5)
  /-- BNE (R334). Branch if not equal. -/
  | bne (h : BitVec 1) (i : BitVec 11) (b : BitVec 5) (a : BitVec 5)
  /-- BLT (R334). Branch if less, signed. -/
  | blt (h : BitVec 1) (i : BitVec 11) (b : BitVec 5) (a : BitVec 5)
  /-- BGE (R334). Branch if greater or equal, signed. -/
  | bge (h : BitVec 1) (i : BitVec 11) (b : BitVec 5) (a : BitVec 5)
  /-- BLTN (R334). Branch if less, unsigned. -/
  | bltn (h : BitVec 1) (i : BitVec 11) (b : BitVec 5) (a : BitVec 5)
  /-- BGEN (R334). Branch if greater or equal, unsigned. -/
  | bgen (h : BitVec 1) (i : BitVec 11) (b : BitVec 5) (a : BitVec 5)
  /-- LOOP (R335). Decrement a non-zero count and branch while it stays non-zero. -/
  | loop (h : BitVec 1) (i : BitVec 11) (a : BitVec 5)
  /-- JAL (R337). Link pc+4 and jump pc-relative; JMP is this with F1 = 0. -/
  | jal (i : BitVec 20) (d : BitVec 5)
  /-- JALR (R337). Link pc+4 and jump to sa+imm with bit 0 cleared. -/
  | jalr (i : BitVec 12) (a : BitVec 5) (d : BitVec 5)
  /-- REALIGN (R338). Enter a realign wait until every peer waits at the same address or n clocks pass. -/
  | realign (n : BitVec 12)
  /-- FIN (R340). Commit, end the firing, discard queues, return pipe records, clear a held lock and close a checked interval. -/
  | fin
  /-- NOP (R342). No effect. -/
  | nop
  /-- VADD_16 (R348). Compact add under ltype. -/
  | vadd16 (m : BitVec 3) (s : BitVec 4) (d : BitVec 4)
  /-- VSUB_16 (R348). Compact subtract. -/
  | vsub16 (m : BitVec 3) (s : BitVec 4) (d : BitVec 4)
  /-- VRSUB_16 (R348). Compact reverse subtract. -/
  | vrsub16 (m : BitVec 3) (s : BitVec 4) (d : BitVec 4)
  /-- VMUL_16 (R348). Compact multiply. -/
  | vmul16 (m : BitVec 3) (s : BitVec 4) (d : BitVec 4)
  /-- VMIN_16 (R348). Compact minimum. -/
  | vmin16 (m : BitVec 3) (s : BitVec 4) (d : BitVec 4)
  /-- VMAX_16 (R348). Compact maximum. -/
  | vmax16 (m : BitVec 3) (s : BitVec 4) (d : BitVec 4)
  /-- VAND_16 (R348). Compact AND of raw bits. -/
  | vand16 (m : BitVec 3) (s : BitVec 4) (d : BitVec 4)
  /-- VOR_16 (R348). Compact OR of raw bits. -/
  | vor16 (m : BitVec 3) (s : BitVec 4) (d : BitVec 4)
  /-- VXOR_16 (R348). Compact XOR of raw bits. -/
  | vxor16 (m : BitVec 3) (s : BitVec 4) (d : BitVec 4)
  /-- VMOV_16 (R348). Compact move. -/
  | vmov16 (m : BitVec 3) (s : BitVec 4) (d : BitVec 4)
  /-- VABS_16 (R348). Compact absolute value. -/
  | vabs16 (m : BitVec 3) (s : BitVec 4) (d : BitVec 4)
  /-- VNEG_16 (R348). Compact negate. -/
  | vneg16 (m : BitVec 3) (s : BitVec 4) (d : BitVec 4)
  /-- VSHL_16 (R348). Compact shift left; illegal under a floating ltype. -/
  | vshl16 (m : BitVec 3) (s : BitVec 4) (d : BitVec 4)
  /-- VSHR_16 (R348). Compact logical shift right. -/
  | vshr16 (m : BitVec 3) (s : BitVec 4) (d : BitVec 4)
  /-- VSRA_16 (R348). Compact arithmetic shift right. -/
  | vsra16 (m : BitVec 3) (s : BitVec 4) (d : BitVec 4)
  /-- VFMAK_16 (R348). Compact fused multiply-add: vd := vd + vs x v15. -/
  | vfmak16 (m : BitVec 3) (s : BitVec 4) (d : BitVec 4)
  /-- VADD_32 (R348). Typed vector add. -/
  | vadd32 (t : BitVec 3) (m : BitVec 3) (b : BitVec 5) (a : BitVec 5) (d : BitVec 5)
  /-- VSUB_32 (R348). Typed vector subtract. -/
  | vsub32 (t : BitVec 3) (m : BitVec 3) (b : BitVec 5) (a : BitVec 5) (d : BitVec 5)
  /-- VRSUB_32 (R348). Typed reverse subtract. -/
  | vrsub32 (t : BitVec 3) (m : BitVec 3) (b : BitVec 5) (a : BitVec 5) (d : BitVec 5)
  /-- VMUL_32 (R348). Typed multiply. -/
  | vmul32 (t : BitVec 3) (m : BitVec 3) (b : BitVec 5) (a : BitVec 5) (d : BitVec 5)
  /-- VMIN_32 (R349). Typed minimum. -/
  | vmin32 (t : BitVec 3) (m : BitVec 3) (b : BitVec 5) (a : BitVec 5) (d : BitVec 5)
  /-- VMAX_32 (R349). Typed maximum. -/
  | vmax32 (t : BitVec 3) (m : BitVec 3) (b : BitVec 5) (a : BitVec 5) (d : BitVec 5)
  /-- VAND_32 (R348). Typed AND. -/
  | vand32 (t : BitVec 3) (m : BitVec 3) (b : BitVec 5) (a : BitVec 5) (d : BitVec 5)
  /-- VOR_32 (R348). Typed OR. -/
  | vor32 (t : BitVec 3) (m : BitVec 3) (b : BitVec 5) (a : BitVec 5) (d : BitVec 5)
  /-- VXOR_32 (R348). Typed XOR. -/
  | vxor32 (t : BitVec 3) (m : BitVec 3) (b : BitVec 5) (a : BitVec 5) (d : BitVec 5)
  /-- VMOV_32 (R348). Typed move. -/
  | vmov32 (t : BitVec 3) (m : BitVec 3) (a : BitVec 5) (d : BitVec 5)
  /-- VABS_32 (R348). Typed absolute value. -/
  | vabs32 (t : BitVec 3) (m : BitVec 3) (a : BitVec 5) (d : BitVec 5)
  /-- VNEG_32 (R348). Typed negate. -/
  | vneg32 (t : BitVec 3) (m : BitVec 3) (a : BitVec 5) (d : BitVec 5)
  /-- VSHL_32 (R348). Typed shift left. -/
  | vshl32 (t : BitVec 3) (m : BitVec 3) (b : BitVec 5) (a : BitVec 5) (d : BitVec 5)
  /-- VSHR_32 (R348). Typed logical shift right. -/
  | vshr32 (t : BitVec 3) (m : BitVec 3) (b : BitVec 5) (a : BitVec 5) (d : BitVec 5)
  /-- VSRA_32 (R348). Typed arithmetic shift right. -/
  | vsra32 (t : BitVec 3) (m : BitVec 3) (b : BitVec 5) (a : BitVec 5) (d : BitVec 5)
  /-- VFMAK_32 (R348). Typed vd := va + vb x v15. -/
  | vfmak32 (t : BitVec 3) (m : BitVec 3) (b : BitVec 5) (a : BitVec 5) (d : BitVec 5)
  /-- VFMA (R350). Fused va x vb + vc. -/
  | vfma (t : BitVec 3) (m : BitVec 3) (c : BitVec 4) (b : BitVec 5) (a : BitVec 5) (d : BitVec 5)
  /-- VFMS (R350). Fused va x vb - vc. -/
  | vfms (t : BitVec 3) (m : BitVec 3) (c : BitVec 4) (b : BitVec 5) (a : BitVec 5) (d : BitVec 5)
  /-- VFNMA (R350). Fused vc - va x vb. -/
  | vfnma (t : BitVec 3) (m : BitVec 3) (c : BitVec 4) (b : BitVec 5) (a : BitVec 5) (d : BitVec 5)
  /-- VCMP (R351). Compare lanes into a mask. -/
  | vcmp (t : BitVec 3) (m : BitVec 3) (c : BitVec 4) (b : BitVec 5) (a : BitVec 5) (d : BitVec 5)
  /-- VNOT (R352). NOT of the raw lane bits. -/
  | vnot (t : BitVec 3) (m : BitVec 3) (a : BitVec 5) (d : BitVec 5)
  /-- VEXP2 (R201). Bit-exact 2^x procedure. -/
  | vexp2 (t : BitVec 3) (m : BitVec 3) (a : BitVec 5) (d : BitVec 5)
  /-- VLOG2 (R202). Bit-exact log2 procedure. -/
  | vlog2 (t : BitVec 3) (m : BitVec 3) (a : BitVec 5) (d : BitVec 5)
  /-- VRCP (R203). Bit-exact reciprocal procedure. -/
  | vrcp (t : BitVec 3) (m : BitVec 3) (a : BitVec 5) (d : BitVec 5)
  /-- VRSQ (R204). Bit-exact reciprocal square root procedure. -/
  | vrsq (t : BitVec 3) (m : BitVec 3) (a : BitVec 5) (d : BitVec 5)
  /-- VIOTA (R352). Lane j := j. -/
  | viota (t : BitVec 3) (m : BitVec 3) (d : BitVec 5)
  /-- VCVT (R353). Convert lanes between types. -/
  | vcvt (t : BitVec 3) (m : BitVec 3) (s : BitVec 3) (a : BitVec 5) (d : BitVec 5)
  /-- VSEL (R354). Select lanes of va or vb by the mask. -/
  | vsel (t : BitVec 3) (m : BitVec 3) (b : BitVec 5) (a : BitVec 5) (d : BitVec 5)
  /-- VPERM (R354). Permute lanes of va by the indices in vb. -/
  | vperm (t : BitVec 3) (m : BitVec 3) (b : BitVec 5) (a : BitVec 5) (d : BitVec 5)
  /-- VSLIDE_UP (R354). Slide lanes up by a scalar distance. -/
  | vslideUp (t : BitVec 3) (m : BitVec 3) (b : BitVec 5) (a : BitVec 5) (d : BitVec 5)
  /-- VSLIDE_DN (R354). Slide lanes down by a scalar distance. -/
  | vslideDn (t : BitVec 3) (m : BitVec 3) (b : BitVec 5) (a : BitVec 5) (d : BitVec 5)
  /-- VCOMPRESS (R354). Pack the enabled lanes from lane 0. -/
  | vcompress (t : BitVec 3) (m : BitVec 3) (a : BitVec 5) (d : BitVec 5)
  /-- VADDS (R356). Ternary add-subtract accumulate. -/
  | vadds (t : BitVec 3) (m : BitVec 3) (b : BitVec 5) (a : BitVec 5) (d : BitVec 5)
  /-- VSCANP_ADD (R355). Inclusive prefix sum over the enabled lanes. -/
  | vscanpAdd (t : BitVec 3) (m : BitVec 3) (a : BitVec 5) (d : BitVec 5)
  /-- VSCANP_MIN (R355). Inclusive prefix minimum. -/
  | vscanpMin (t : BitVec 3) (m : BitVec 3) (a : BitVec 5) (d : BitVec 5)
  /-- VSCANP_MAX (R355). Inclusive prefix maximum. -/
  | vscanpMax (t : BitVec 3) (m : BitVec 3) (a : BitVec 5) (d : BitVec 5)
  /-- VRED_ADD (R357). Sum of the enabled lanes in ascending order. -/
  | vredAdd (t : BitVec 3) (m : BitVec 3) (q : BitVec 1) (a : BitVec 5) (d : BitVec 5)
  /-- VRED_MIN (R357). Minimum of the enabled lanes. -/
  | vredMin (t : BitVec 3) (m : BitVec 3) (q : BitVec 1) (a : BitVec 5) (d : BitVec 5)
  /-- VRED_MAX (R357). Maximum of the enabled lanes. -/
  | vredMax (t : BitVec 3) (m : BitVec 3) (q : BitVec 1) (a : BitVec 5) (d : BitVec 5)
  /-- VRED_AND (R357). AND of the enabled lanes. -/
  | vredAnd (t : BitVec 3) (m : BitVec 3) (q : BitVec 1) (a : BitVec 5) (d : BitVec 5)
  /-- VRED_OR (R357). OR of the enabled lanes. -/
  | vredOr (t : BitVec 3) (m : BitVec 3) (q : BitVec 1) (a : BitVec 5) (d : BitVec 5)
  /-- VRED_XOR (R357). XOR of the enabled lanes. -/
  | vredXor (t : BitVec 3) (m : BitVec 3) (q : BitVec 1) (a : BitVec 5) (d : BitVec 5)
  /-- VDOT (R358). Dot product rounded once. -/
  | vdot (t : BitVec 3) (m : BitVec 3) (q : BitVec 1) (b : BitVec 5) (a : BitVec 5) (d : BitVec 5)
  /-- VBCAST (R359). Broadcast a scalar to every lane. -/
  | vbcast (t : BitVec 3) (a : BitVec 5) (d : BitVec 5)
  /-- VINS (R359). Insert a scalar into one lane. -/
  | vins (t : BitVec 3) (b : BitVec 5) (a : BitVec 5) (d : BitVec 5)
  /-- VEXT (R359). Extract one lane to a scalar. -/
  | vext (t : BitVec 3) (b : BitVec 5) (a : BitVec 5) (d : BitVec 5)
  /-- UNPK_T5 (R361). Decode T5 bytes to trit lanes, setting tx and txpos on non-codes. -/
  | unpkT5 (l : BitVec 3) (a : BitVec 5) (d : BitVec 5)
  /-- UNPK_I8 (R360). Sign-extend bytes to 16-bit lanes. -/
  | unpkI8 (l : BitVec 3) (a : BitVec 5) (d : BitVec 5)
  /-- UNPK_N8 (R360). Zero-extend bytes to 16-bit lanes. -/
  | unpkN8 (l : BitVec 3) (a : BitVec 5) (d : BitVec 5)
  /-- UNPK_I4 (R360). Sign-extend nibbles to 16-bit lanes. -/
  | unpkI4 (l : BitVec 3) (a : BitVec 5) (d : BitVec 5)
  /-- UNPK_N4 (R360). Zero-extend nibbles to 16-bit lanes. -/
  | unpkN4 (l : BitVec 3) (a : BitVec 5) (d : BitVec 5)
  /-- MAND (R362). Mask AND. -/
  | mand (b : BitVec 5) (a : BitVec 5) (d : BitVec 5)
  /-- MOR (R362). Mask OR. -/
  | mor (b : BitVec 5) (a : BitVec 5) (d : BitVec 5)
  /-- MXOR (R362). Mask XOR. -/
  | mxor (b : BitVec 5) (a : BitVec 5) (d : BitVec 5)
  /-- MNOT (R362). Mask NOT. -/
  | mnot (a : BitVec 5) (d : BitVec 5)
  /-- MPOP (R362). Count the set bits among the N lanes. -/
  | mpop (t : BitVec 3) (a : BitVec 5) (d : BitVec 5)
  /-- VTYPE (R363). Set cr.status.ltype. -/
  | vtype (t : BitVec 3)
  /-- VLD (R365). Vector load with an immediate offset. -/
  | vld (t : BitVec 3) (m : BitVec 3) (i : BitVec 9) (a : BitVec 5) (d : BitVec 5)
  /-- VST (R366). Vector store with an immediate offset. -/
  | vst (t : BitVec 3) (m : BitVec 3) (i : BitVec 9) (a : BitVec 5) (c : BitVec 5)
  /-- VLDS (R364). Strided vector load. -/
  | vlds (t : BitVec 3) (m : BitVec 3) (b : BitVec 5) (a : BitVec 5) (d : BitVec 5)
  /-- VSTS (R366). Strided vector store. -/
  | vsts (t : BitVec 3) (m : BitVec 3) (b : BitVec 5) (a : BitVec 5) (c : BitVec 5)
  /-- VGATH (R364). Gather by a vector of offsets. -/
  | vgath (t : BitVec 3) (m : BitVec 3) (b : BitVec 5) (a : BitVec 5) (d : BitVec 5)
  /-- VSCAT (R366). Scatter by a vector of offsets. -/
  | vscat (t : BitVec 3) (m : BitVec 3) (b : BitVec 5) (a : BitVec 5) (c : BitVec 5)
  /-- VLD_INDEXED (R364). Vector load at sa+sb. -/
  | vldIndexed (t : BitVec 3) (m : BitVec 3) (b : BitVec 5) (a : BitVec 5) (d : BitVec 5)
  /-- VST_INDEXED (R366). Vector store at sa+sb. -/
  | vstIndexed (t : BitVec 3) (m : BitVec 3) (b : BitVec 5) (a : BitVec 5) (c : BitVec 5)
  /-- MMA (R376). Queue a 64xK by Kx64 multiply-accumulate into an accumulator sub-tile. -/
  | mma (n : BitVec 4) (b : BitVec 5) (a : BitVec 5) (k : BitVec 2)
  /-- MMAG (R377). Gang multiply over a rectangle of cores. -/
  | mmag (n : BitVec 4) (b : BitVec 5) (g : BitVec 5) (k : BitVec 2)
  /-- MZERO (R378). Zero and take ownership of a sub-tile. -/
  | mzero (k : BitVec 2)
  /-- MLDB (R379). Load a B block into the overlay slice. -/
  | mldb (a : BitVec 5) (b : BitVec 5)
  /-- MDRN (R380). Drain a sub-tile to memory in a given form. -/
  | mdrn (i : BitVec 7) (c : BitVec 5) (a : BitVec 5) (f : BitVec 3) (k : BitVec 2)
  /-- MCFG (R374). Set a matrix item of the slot. -/
  | mcfg (a : BitVec 5) (n : BitVec 2)
  /-- PFX (R375). Set the pending format prefix for the next matrix instruction. -/
  | pfx (q : BitVec 5) (g : BitVec 2) (b : BitVec 3) (a : BitVec 3)
  /-- ECOPY (R382). Commit and start the copy engine on a chain. -/
  | ecopy (i : BitVec 7) (a : BitVec 5)
  /-- BARINIT (R386). Set a barrier object's expected bytes and clear its arrived bytes. -/
  | barinit (b : BitVec 5) (a : BitVec 5)
  /-- BARADD (R386). Add bytes to a barrier object's arrived count. -/
  | baradd (b : BitVec 5) (a : BitVec 5)
  /-- CABCFG (R388). Configure a clustering bank from a block. -/
  | cabcfg (i : BitVec 7) (c : BitVec 5) (k : BitVec 5)
  /-- CABPUSH (R389). Send one weighted vector arrival to a bank. -/
  | cabpush (m : BitVec 3) (v : BitVec 5) (k : BitVec 5) (w : BitVec 5)
  /-- CABMRG (R390). Merge the closest pair and return i, j and the distance. -/
  | cabmrg (k : BitVec 5) (d : BitVec 5)
  /-- CABRD (R391). Write one entry's record and wait for its acknowledgement. -/
  | cabrd (c : BitVec 5) (k : BitVec 5) (i : BitVec 5)
  /-- CABDRN (R392). Write the header and valid entries, then clear the bank. -/
  | cabdrn (i : BitVec 7) (c : BitVec 5) (k : BitVec 5)
  /-- CABCLR (R392). Clear a bank's entries and counters. -/
  | cabclr (k : BitVec 5)
  /-- SCAN (R394). Start the hub scan sequencer on a selector chain. -/
  | scan (i : BitVec 7) (a : BitVec 5)
  /-- AMO_ADD (R400). Atomic add at the home. -/
  | amoAdd (c : BitVec 1) (z : BitVec 1) (s : BitVec 4) (b : BitVec 5) (a : BitVec 5) (d : BitVec 5)
  /-- AMO_AND (R400). Atomic AND. -/
  | amoAnd (c : BitVec 1) (z : BitVec 1) (s : BitVec 4) (b : BitVec 5) (a : BitVec 5) (d : BitVec 5)
  /-- AMO_OR (R400). Atomic OR. -/
  | amoOr (c : BitVec 1) (z : BitVec 1) (s : BitVec 4) (b : BitVec 5) (a : BitVec 5) (d : BitVec 5)
  /-- AMO_XOR (R400). Atomic XOR. -/
  | amoXor (c : BitVec 1) (z : BitVec 1) (s : BitVec 4) (b : BitVec 5) (a : BitVec 5) (d : BitVec 5)
  /-- AMO_MIN (R400). Atomic signed minimum. -/
  | amoMin (c : BitVec 1) (z : BitVec 1) (s : BitVec 4) (b : BitVec 5) (a : BitVec 5) (d : BitVec 5)
  /-- AMO_MAX (R400). Atomic signed maximum. -/
  | amoMax (c : BitVec 1) (z : BitVec 1) (s : BitVec 4) (b : BitVec 5) (a : BitVec 5) (d : BitVec 5)
  /-- AMO_MINN (R400). Atomic unsigned minimum. -/
  | amoMinn (c : BitVec 1) (z : BitVec 1) (s : BitVec 4) (b : BitVec 5) (a : BitVec 5) (d : BitVec 5)
  /-- AMO_MAXN (R400). Atomic unsigned maximum. -/
  | amoMaxn (c : BitVec 1) (z : BitVec 1) (s : BitVec 4) (b : BitVec 5) (a : BitVec 5) (d : BitVec 5)
  /-- AMO_SWAP (R400). Atomic swap. -/
  | amoSwap (c : BitVec 1) (z : BitVec 1) (s : BitVec 4) (b : BitVec 5) (a : BitVec 5) (d : BitVec 5)
  /-- CAS (R401). Atomic compare-and-swap. -/
  | cas (c : BitVec 1) (z : BitVec 1) (s : BitVec 4) (b : BitVec 5) (a : BitVec 5) (d : BitVec 5)
  /-- LDLK (R403). Wait for and set a line's lock bit, then read the word. -/
  | ldlk (z : BitVec 1) (a : BitVec 5) (d : BitVec 5)
  /-- STUL (R403). Write the word and clear the held lock bit. -/
  | stul (z : BitVec 1) (b : BitVec 5) (a : BitVec 5)
  /-- ACQ (R404). Acquire load. -/
  | acq (z : BitVec 1) (s : BitVec 4) (a : BitVec 5) (d : BitVec 5)
  /-- REL (R404). Release store, performed when the release conditions hold. -/
  | rel (z : BitVec 1) (s : BitVec 4) (b : BitVec 5) (a : BitVec 5)
  /-- SCLD (R404). Sequentially consistent load. -/
  | scld (z : BitVec 1) (s : BitVec 4) (a : BitVec 5) (d : BitVec 5)
  /-- SCST (R404). Sequentially consistent store. -/
  | scst (z : BitVec 1) (s : BitVec 4) (b : BitVec 5) (a : BitVec 5)
  /-- FENCE (R405). Full fence at a scope. -/
  | fence (s : BitVec 4)
  /-- FENCE_P (R405). Full fence plus a path crossing from P to Q. -/
  | fenceP (s : BitVec 4) (q : BitVec 5) (p : BitVec 5)
  /-- CMT (R406). End the restart region. -/
  | cmt
  /-- TRIG (R406). Release at package scope, counting for producers triggered. -/
  | trig
  /-- WAIT_LIST (R408). Wait on a condition block with a timeout. -/
  | waitList (c : BitVec 1) (s : BitVec 4) (a : BitVec 5) (d : BitVec 5)
  /-- WAIT_BAR (R407). Wait until a barrier object is full. -/
  | waitBar (c : BitVec 1) (s : BitVec 4) (a : BitVec 5) (d : BitVec 5)
  /-- WAIT_PIPE (R407). Wait until a pipe holds a level of records. -/
  | waitPipe (c : BitVec 1) (s : BitVec 4) (b : BitVec 5) (a : BitVec 5) (d : BitVec 5)
  /-- WAIT_JOIN (R407). Wait until a join counter is zero. -/
  | waitJoin (c : BitVec 1) (s : BitVec 4) (a : BitVec 5) (d : BitVec 5)
  /-- WAIT_EVQ (R407). Wait for an event-queue entry of the firing. -/
  | waitEvq (c : BitVec 1) (s : BitVec 4) (d : BitVec 5)
  /-- WAIT_NOTICE (R407). Wait until cr.notice is non-zero. -/
  | waitNotice (c : BitVec 1) (s : BitVec 4) (d : BitVec 5)
  /-- WAIT_PROD (R407). Wait until the producers have triggered. -/
  | waitProd (c : BitVec 1) (s : BitVec 4) (d : BitVec 5)
  /-- WAIT_MEM (R407). Wait until a memory word compares true. -/
  | waitMem (z : BitVec 1) (o : BitVec 3) (c : BitVec 1) (s : BitVec 4) (b : BitVec 5) (a : BitVec 5) (d : BitVec 5)
  /-- SEND (R410). Send an active message as a release; sd gets the local status. -/
  | send (s : BitVec 4) (a : BitVec 5) (d : BitVec 5)
  /-- HTAG (R411). Bind or unbind a route tag of the core. -/
  | htag (a : BitVec 5) (t : BitVec 4)
  /-- SPAWN (R412). Enqueue a continuation record. -/
  | spawn (a : BitVec 5)
  /-- JOIN (R413). Release, then decrement a join counter, readying the record at zero. -/
  | join (s : BitVec 4) (a : BitVec 5)
  /-- LAUNCH (R414). Device-side launch as a release; status and handle returned. -/
  | launch (s : BitVec 4) (a : BitVec 5) (d : BitVec 5)
  /-- WID (R415). Read a work-ID field. -/
  | wid (i : BitVec 5) (d : BitVec 5)
  /-- PPUSH (R416). Append a record to a pipe, stalling while it is full. -/
  | ppush (a : BitVec 5) (p : BitVec 5)
  /-- PPOP (R417). Take a record from a pipe, stalling while none is available. -/
  | ppop (a : BitVec 5) (p : BitVec 5)
  /-- PPEEK (R418). Count the records available to this firing. -/
  | ppeek (p : BitVec 5) (d : BitVec 5)
  /-- MIGR (R420). Migrate to the tile owning an address. -/
  | migr (a : BitVec 5) (d : BitVec 5)
  /-- LEASE (R421). Lease or renew a logical tile or block. -/
  | lease (b : BitVec 1) (c : BitVec 5) (a : BitVec 5) (d : BitVec 5)
  /-- UNLEASE (R421). End a lease. -/
  | unlease (b : BitVec 1) (a : BitVec 5) (d : BitVec 5)
  /-- ROLE (R422). Read the role map for a logical tile, block or physical tile. -/
  | role (x : BitVec 2) (a : BitVec 5) (d : BitVec 5)
  /-- NACK (R423). Acknowledge a notice by serial, letting the move begin early. -/
  | nack (a : BitVec 5) (d : BitVec 5)
  /-- BOOST (R424). Ask for or restart a boost lease. -/
  | boost (a : BitVec 5) (d : BitVec 5)
  /-- CRR (R425). Read a control register. -/
  | crr (r : BitVec 12) (d : BitVec 5)
  /-- CRR_EVQ (R124). Reading cr.evq removes and returns the firing's oldest event-queue entry, and held entries move into the freed place. -/
  | crrEvq (d : BitVec 5)
  /-- CRW (R425). Write a control register's fields by access code, trapping for privileged ones; cr.perf writes change the quad target. -/
  | crw (r : BitVec 12) (a : BitVec 5)
  /-- TRAP (R426). Requested trap resuming after the instruction. -/
  | trap (n : BitVec 12)
  /-- SYSC (R426). System call trap. -/
  | sysc (n : BitVec 12)
  /-- BKPT (R426). Breakpoint trap resuming at itself. -/
  | bkpt (n : BitVec 12)
  /-- ERET (R455). Apply the window's disposition to the served trap: resume, end or end as killed. -/
  | eret
  /-- TACK (R427). Release the system core's trap latch. -/
  | tack
  /-- TLBW (R428). Install a leaf entry in a tile and optionally core TLB, writing a status. -/
  | tlbw (b : BitVec 5) (a : BitVec 5)
  /-- TLBI (R429). Remove matching TLB entries within a scope. -/
  | tlbi (s : BitVec 4) (a : BitVec 5)
  /-- POWER_UP (R260). After power-good the security core runs the boot ROM, every tile runs its self-test and the results are latched for absent tiles and hubs. -/
  | powerUp
  /-- BOOT_GO (R260). A host write of 1 to BOOTCTL.go makes the boot ROM check the image and its Ed25519 signature, close BAR 2 and start Chanter; a failure leaves stage 2 with BAR 2 open. -/
  | bootGo
  /-- CHANTER_BOOT (R260). Chanter regenerates the device secret, sets the kernel-reserved ranges, trains memory, loads and measures Drone and the kernel, and releases the system and hub cores. -/
  | chanterBoot
  /-- DRONE_READY (R267). Drone builds the role map, translation state and budget tree and sets BOOTCTL.ready, and latched doorbells take effect. -/
  | droneReady
  /-- HOST_ACCESS (R147). The host reads or writes device memory on the host path, BAR 2 boot SRAM included until it is closed, and is refused region 6 and kernel-reserved frames. -/
  | hostAccess
  /-- REGISTER_WRITE (R266). A write to a host or region-6 register that has no row of its own sets its fields according to their access codes. -/
  | registerWrite
  /-- DOORBELL (R269). A host write of a tail index to DBq hands the device the submission entries from QHEADq; the device reads them in ring order while completion places are free, enqueues each launch and writes its completion entry. -/
  | doorbell
  /-- COMPLETION_DOORBELL (R269). A host write to CDBq reports the completion entries that the host has read and frees their places in the completion ring. -/
  | completionDoorbell
  /-- QCPL_WRITE (R269). A write of QCPLq sets the completion ring's address and resets the completion count and the count of reported completions to 0. -/
  | qcplWrite
  /-- LAUNCH_ENQUEUE_RESUME (R505). An enqueue that waited for a park page holding its header, actor table or producer list resumes once Drone makes the page resident. -/
  | launchEnqueueResume
  /-- LAUNCH_ADMISSION (R75). A launch is admitted in its queue's order, and its logical compute tiles are bound to the least-loaded compute tiles. -/
  | launchAdmission
  /-- RACK_LAUNCH (R146). A rack scheduler node forwards a launch header with an address-space number, and the device enqueues it as it would a host launch. -/
  | rackLaunch
  /-- RESIDENCY_REPORT (R146). After the dispatcher's first pass over a forwarded launch, the device returns a 32-byte residency report. -/
  | residencyReport
  /-- DISPATCH (R61). A district dispatcher gives a free slot the ready firing or continuation record of highest effective priority that fits the energy budget, oldest first. -/
  | dispatch
  /-- PIPE_ACTOR_FIRE (R42). When every input pipe of a pipe actor holds in_rate unreserved records, the records are reserved and a firing is created with the actor's next serial. -/
  | pipeActorFire
  /-- PRIORITY_AGE (R62). Each 100,000 ticks that a firing waits ready and unplaced raise its effective priority by one, up to 7. -/
  | priorityAge
  /-- FIT_STARVATION (R257). A priority-7 firing passed over for fit for 100,000 ticks stops every other placement on its tile's quads until it fits. -/
  | fitStarvation
  /-- MIGRATION_COMPLETE (R465). The destination acknowledges a migration stream; it takes a new incarnation, the source writes its forwarding entry and the firing resumes. -/
  | migrationComplete
  /-- FORWARDING_EXPIRE (R66). A forwarding entry lapses 100,000 reference ticks after it was made or after its parked firing took a slot. -/
  | forwardingExpire
  /-- PAGE_RESIDENT (R117). Drone makes a parked page resident; parked firings become ready with their original age at their region start, and stalled fetches and engine accesses go on. -/
  | pageResident
  /-- QUOTA_DECLINE (R472). Drone declines to make a parked page resident because the resident-frame limit is reached and raises the quota trap at the region's start. -/
  | quotaDecline
  /-- TLB_MISS (R109). A miss in both TLBs sends a message to the district translation service core, whose Drone walks the tables and installs the entry with TLBW. -/
  | tlbMiss
  /-- REGION_TIME_COMMIT (R115). A region that has held a buffered line for 10,000 reference ticks commits at the next instruction boundary of both streams. -/
  | regionTimeCommit
  /-- INTERVAL_TIME_CLOSE (R164). A checked sync interval open for 10,000 reference ticks is closed by force, which is a commit point. -/
  | intervalTimeClose
  /-- LOAD_DATA_RETURN (R325). A load's data returns from its home and is written to its register or queue in program order. -/
  | loadDataReturn
  /-- POSTED_LINE_AT_HOME (R116). A committed line reaches its home and is written as one masked write, or the home refuses it, which raises an asynchronous posted-store refusal trap. -/
  | postedLineAtHome
  /-- STORE_ACK (R118). A home's acknowledgement of a posted line frees its journal entry and counts toward waiting releases and retirement. -/
  | storeAck
  /-- CHECKED_ACCESS_AT_HOME (R169). A load or claim to a checked line is checked against the race tag at its home and recorded, or raises the memory-model exception. -/
  | checkedAccessAtHome
  /-- LOCK_GRANT (R121). A waiting LDLK receives its lock bit when the bit clears, in arrival order, and reads its word. -/
  | lockGrant
  /-- PAGE_MIGRATION (R179). System software migrates a page: accesses are parked, acknowledged lines drain, the page is copied with its tags and lock bits, and the change is announced on Panpipe. -/
  | pageMigration
  /-- PANPIPE_DELIVERY (R142). At the end of window w+6, every district node applies window w's announcements in Panpipe order: releases, multicast starts, interval closes, role-map updates and translation changes. -/
  | panpipeDelivery
  /-- ROLE_MAP_ACK (R79). A hub's acknowledgement of a role-map update arrives at the tile that the update concerns and is counted toward the end of forwarding. -/
  | roleMapAck
  /-- STALE_REQUEST_RETURN (R77). A request that reaches a tile no longer holding its block is returned to the issuing hub and resolved again against the current replica. -/
  | staleRequestReturn
  /-- INJECTION_SEND (R134). A tile's injection queue sends its oldest packet, or a younger one past a back-pressured entry where the overtaking rules allow. -/
  | injectionSend
  /-- MESSAGE_DELIVERY (R132). An active message reaches its destination router and is delivered to the inbox or agent if its target pair matches, followed along forwarding entries, held for a parked firing, or else bounced. -/
  | messageDelivery
  /-- HANDLER_CREATE (R59). A message at the head of an enabled, resolvable route tag with no running handler creates a handler firing with s4-s7 set. -/
  | handlerCreate
  /-- RECORD_PASS (R49). A hub passes a ready continuation record, with its age, to the hub of the district holding the launch's lowest logical tile. -/
  | recordPass
  /-- FIRING_RETIRE (R340). A firing that has executed FIN retires once its committed lines are acknowledged and engine commands on its share have finished, freeing its slot. -/
  | firingRetire
  /-- SUBTILE_RELEASE (R213). After its owner's FIN and the completion of all its matrix commands, an accumulator sub-tile is set to +0 and released. -/
  | subtileRelease
  /-- LAUNCH_COMPLETE (R52). A launch whose firings, records, pipes and children are all done completes, performs its completion action once and frees its pool entry. -/
  | launchComplete
  /-- COMPLETION_JOIN_RESUME (R52). A kind-1 completion join that waited on a park page is made once the page becomes resident. -/
  | completionJoinResume
  /-- LAUNCH_END_WRITE (R463). A write of a launch handle to the launch-end register kills the launch: no new firings, running firings end as killed and pipe records are discarded. -/
  | launchEndWrite
  /-- WAIT_CONDITION_MET (R57). A change to a watched object makes a waiting firing's combination hold, so the WAIT completes as an acquire and writes its result. -/
  | waitConditionMet
  /-- WAIT_TIMEOUT (R57). A WAIT's timeout expires, and it completes with bit 8 set or raises the timeout trap. -/
  | waitTimeout
  /-- REALIGN_TIMEOUT (R338). A slot in a realign wait leaves it when n array clocks have passed since it entered. -/
  | realignTimeout
  /-- CENSUS_SAMPLE (R80). Every 5,000 ticks each hub's census sampler writes a 32-byte sample record to its ring. -/
  | censusSample
  /-- RECAST_PROPOSAL (R81). Drone writes a recast proposal to the package recast queue; the hardware checks it, returns its code, and on acceptance issues the notice or binds an unbound storage tile. -/
  | recastProposal
  /-- RECAST_DEADLINE (R87). At the notice deadline the move begins with the state-moving role-map update, whether or not the launches have acknowledged. -/
  | recastDeadline
  /-- STORAGE_COPY_DONE (R88). The old storage tile copies its last line, the block is rebound to dest by one update, and the old entry starts forwarding. -/
  | storageCopyDone
  /-- COMPUTE_RECAST_REBIND (R90). Once firings, pages, pipes and banks have moved off the old compute tile, one role-map update rebinds its logical tiles. -/
  | computeRecastRebind
  /-- RECAST_FINISH (R88). When every present district has acknowledged the rebind and 2 Panpipe windows have passed, the tile takes its new role with state stable. -/
  | recastFinish
  /-- LEASE_EXPIRE (R83). A lease reaches its expiry and ends without raising a notice. -/
  | leaseExpire
  /-- MATRIX_GRANT (R211). The matrix arbiter grants the next queued command of the current core in its turn, up to the core's weight. -/
  | matrixGrant
  /-- MATRIX_COMMAND_DONE (R206). A matrix command's result is complete in its sub-tile 10 array clocks after its occupancy ends, and it posts its completion entry. -/
  | matrixCommandDone
  /-- COPY_CHAIN_START (R382). A chain-start message, opcode 0x10, reaches the copy engine, which walks the chain from its head. -/
  | copyChainStart
  /-- SCAN_CHAIN_START (R394). A chain-start message, opcode 0x30, reaches the hub scan sequencer, which walks the selector chain. -/
  | scanChainStart
  /-- CHAIN_COPY (R383). A COPY chain entry copies bytes flat or a tensor tile between descriptors. -/
  | chainCopy
  /-- CHAIN_MCAST (R384). An MCAST chain entry delivers one tensor tile to up to 64 receiving quad stores, announced on Panpipe when its receivers span tiles. -/
  | chainMcast
  /-- CHAIN_DEAL (R385). A DEAL chain entry cuts a burst into blocks and deals them round-robin to receivers. -/
  | chainDeal
  /-- CHAIN_LOOP (R137). A LOOP chain entry steps the walk back by 'back' entries for 'count' extra passes. -/
  | chainLoop
  /-- CHAIN_IFZ (R137). After earlier writes drain, an IFZ entry reads its test word and skips entries when the word is non-zero. -/
  | chainIfz
  /-- CHAIN_IFNZ (R137). After earlier writes drain, an IFNZ entry reads its test word and skips entries when the word is zero. -/
  | chainIfnz
  /-- CHAIN_SIGNAL (R137). After earlier writes drain, a SIGNAL entry adds bytes to a barrier object or posts an event. -/
  | chainSignal
  /-- CHAIN_END (R137). An END chain entry ends the walk and posts the chain's completion if its tag is non-zero. -/
  | chainEnd
  /-- CHAIN_SEL (R395). The scan sequencer checks a SEL entry and its parameter block and starts one scan part at each selector owning bytes of the region. -/
  | chainSel
  /-- MCAST_LINE_ARRIVAL (R139). A multicast line is written at a receiver and its covered bytes are added to the receiver's barrier object. -/
  | mcastLineArrival
  /-- SCAN_PART (R243). A selector scans its part of the region and sends its selected pairs to the merging selector. -/
  | scanPart
  /-- SCAN_MERGE (R244). The merging selector, holding every part's pairs, orders them, writes the output and count, and reports to the sequencer. -/
  | scanMerge
  /-- CAB_ARRIVAL (R233). A push arrives at a clustering bank's write port and is applied (update, open or full policy), held or released in ordered mode, or discarded. -/
  | cabArrival
  /-- BUDGET_DIVISION (R249). Every 1,000 ticks the budget tree divides power from the caps and demands, and keeps its surplus for boost leases. -/
  | budgetDivision
  /-- ALLOCATION_EFFECT (R249). 200 ticks after a division, the new allocations and cr.duty values take effect. -/
  | allocationEffect
  /-- PEAK_CAP_REACHED (R253). A unit's energy reaches its peak cap within an interval, and its cores run at duty 1 for the rest of the interval. -/
  | peakCapReached
  /-- VOLTAGE_STEP (R255). Every 100 ticks a quad steps its voltage 10 mV toward its target and raises its clock once the voltage suffices. -/
  | voltageStep
  /-- BOOST_EXPIRE (R259). A boost lease expires, its charge returns and the firing's request is capped at point 4. -/
  | boostExpire
  /-- REGULATOR_TIMEOUT (R492). A quad voltage not at target 20,000 ticks after a step is recorded, and the quad is capped at point 4 until reset. -/
  | regulatorTimeout
  /-- TRAP_DELIVERY (R451). The oldest queued trap goes to the lowest free system core serving its class, which latches the cause, address and detail words. -/
  | trapDelivery
  /-- TRAP_ESCALATION (R453). A system core's fetch or stack fault before TACK escalates to Chanter, which retires that core from the class and re-queues the trap. -/
  | trapEscalation
  /-- JOURNAL_RETRY (R458). A system core writes 3 to a refused journal entry's state, and the line is sent again to its physical address. -/
  | journalRetry
  /-- JOURNAL_DISCARD (R458). A system core writes 4 to a refused journal entry's state; the entry is freed and the line counts as acknowledged. -/
  | journalDiscard
  /-- FREEZE_START (R69). A write of FRZCTL.start while idle and ready issues a freeze: recasts and creation stop, firings and chains stop, and the plan's tiers stream to its targets. -/
  | freezeStart
  /-- RACK_FREEZE (R271). A rack scheduler node issues a freeze over a scale-up port, accepted as a host freeze is. -/
  | rackFreeze
  /-- FREEZE_TARGET_TIMEOUT (R480). A freeze target that acknowledges nothing for 100,000 ticks is marked lost, and its part is resent to the next target with room. -/
  | freezeTargetTimeout
  /-- FREEZE_COMPLETE (R69). The freeze stream finishes, the report area is written and the state becomes frozen. -/
  | freezeComplete
  /-- FREEZE_RESUME (R271). A write of FRZCTL.resume checks the image and restores it, or refuses it with a report code. -/
  | freezeResume
  /-- RESUME_COMPLETE (R71). Resumption places logical tiles afresh, restores every firing, wait and lease, and sets the state to idle, after which latched doorbells take effect. -/
  | resumeComplete
  /-- ATTEST (R273). Mailbox command 1: Chanter returns a signed attestation report over the nonce, the digests and the present-tile count. -/
  | attest
  /-- IDENTITY (R272). Mailbox command 2: Chanter returns the 32-byte identity public key. -/
  | identity
  /-- RELEASE (R272). Mailbox command 3: Chanter returns the Chanter and Drone digests. -/
  | release
  /-- CEILINGS (R272). Mailbox command 4: Chanter returns the four cap ceilings. -/
  | ceilings
  /-- POWER_OFF (R34). The package loses power, and every tier, table, firmware and latched state is lost, so that a later resumption of an image that retained a tier is refused. -/
  | powerOff
  /-- UALINK_TARGET_REQUEST (R145). A peer device's UALink read, write or atomic request arrives at a scale-up port and is served on the device as target. -/
  | ualinkTargetRequest
  /-- SOFT_ERROR (R483). A soft error strikes a line, pipe record or race tag; a single-bit error is later corrected silently, and a wider one makes the line uncorrectable until next written whole. -/
  | softError
deriving DecidableEq, Repr

end Sys2Proof
end

