-- ==== Sys2Proof/WellFormed.lean ====
section
/-! DEFINITION. Which operand values an instruction's encoding admits (R295 to R314), whatever the state.

Two checks need the state and stand with issuing (Machine/Ops.lean): the lane type of a 16-bit shift (R293) and a pending
format prefix (R219).  A word that decodes to an instruction failing a check here is an illegal encoding: it raises the
illegal-encoding trap when it reaches issue (R314). -/

namespace Sys2Proof

/-- A scalar field of format A or of a reduction: with its queue flag set it names `q4` to `q7` (R296). -/
def qField (flag : BitVec 1) (f : BitVec 5) : Bool := flag == 0 || (decide (4 ≤ f.toNat) && decide (f.toNat ≤ 7))

/-- A 5-bit vector field: `v0` to `v15`, `q0` to `q3` (R296). -/
def vecField (f : BitVec 5) : Bool := decide (f.toNat ≤ 19)

/-- A mask in a 5-bit source field (R296). -/
def maskSource (f : BitVec 5) : Bool := decide (f.toNat ≤ 7)

/-- A mask in a 5-bit destination field: `m0` is no destination (R298). -/
def maskDest (f : BitVec 5) : Bool := decide (1 ≤ f.toNat) && decide (f.toNat ≤ 7)

/-- A lane type code (R296). -/
def laneType (t : BitVec 3) : Bool := t != 7

/-- A floating-point lane type: `.f32`, `.bf16`, `.f16` (R343). -/
def floatType (t : BitVec 3) : Bool := decide (t.toNat ≤ 2)

/-- An integer lane type (R343). -/
def intType (t : BitVec 3) : Bool := decide (3 ≤ t.toNat) && decide (t.toNat ≤ 6)

/-- A scope (R3, R4). -/
def scopeField (s : BitVec 4) : Bool := decide (s.toNat ≤ 9)

/-- The scope of an atomic: given exactly with `.sc` (R307). -/
def scField (c : BitVec 1) (s : BitVec 4) : Bool := if c == 1 then scopeField s else s == 0

/-- A path code of `FENCE.P` (R308). -/
def pathField (p : BitVec 5) : Bool := decide (p.toNat ≤ 5)

/-- The control registers that have a number (R312). -/
def controlRegister (r : BitVec 12) : Bool :=
  decide (r.toNat ≤ 5) || (decide (0x10 ≤ r.toNat) && decide (r.toNat ≤ 0x14)) ||
    (decide (0x20 ≤ r.toNat) && decide (r.toNat ≤ 0x23))

/-- Every operand field holds a value its kind admits (R296, R300 to R311, R314). -/
def Instr.wellFormed : Instr → Bool
  | .add z y x b a d => qField z b && qField y a && qField x d
  | .sub z y x b a d => qField z b && qField y a && qField x d
  | .and z y x b a d => qField z b && qField y a && qField x d
  | .or z y x b a d => qField z b && qField y a && qField x d
  | .xor z y x b a d => qField z b && qField y a && qField x d
  | .andn z y x b a d => qField z b && qField y a && qField x d
  | .shl z y x b a d => qField z b && qField y a && qField x d
  | .shr z y x b a d => qField z b && qField y a && qField x d
  | .sra z y x b a d => qField z b && qField y a && qField x d
  | .mul z y x b a d => qField z b && qField y a && qField x d
  | .mulh z y x b a d => qField z b && qField y a && qField x d
  | .mulhn z y x b a d => qField z b && qField y a && qField x d
  | .div z y x b a d => qField z b && qField y a && qField x d
  | .divn z y x b a d => qField z b && qField y a && qField x d
  | .rem z y x b a d => qField z b && qField y a && qField x d
  | .remn z y x b a d => qField z b && qField y a && qField x d
  | .min z y x b a d => qField z b && qField y a && qField x d
  | .max z y x b a d => qField z b && qField y a && qField x d
  | .minn z y x b a d => qField z b && qField y a && qField x d
  | .maxn z y x b a d => qField z b && qField y a && qField x d
  | .slt z y x b a d => qField z b && qField y a && qField x d
  | .sltn z y x b a d => qField z b && qField y a && qField x d
  | .seq z y x b a d => qField z b && qField y a && qField x d
  | .csel z y b a _ => qField z b && qField y a
  | .clz y x a d => qField y a && qField x d
  | .ctz y x a d => qField y a && qField x d
  | .popc y x a d => qField y a && qField x d
  | .sext w y x a d => w != 3 && qField y a && qField x d
  | .zext w y x a d => w != 3 && qField y a && qField x d
  | .addi _ _ _ => true
  | .andi _ _ _ => true
  | .ori _ _ _ => true
  | .xori _ _ _ => true
  | .shli _ _ _ => true
  | .shri _ _ _ => true
  | .srai _ _ _ => true
  | .slti _ _ _ => true
  | .lui _ _ => true
  | .addpc _ _ => true
  | .ld s _ _ _ => s != 7
  | .st _ _ _ _ => true
  | .ldx s z y x b a d => s != 7 && qField z b && qField y a && qField x d
  | .stx _ z y x b a c => qField z b && qField y a && qField x c
  | .pref _ _ => true
  | .alloc _ _ _ => true
  | .free _ _ => true
  | .beq _ _ _ _ => true
  | .bne _ _ _ _ => true
  | .blt _ _ _ _ => true
  | .bge _ _ _ _ => true
  | .bltn _ _ _ _ => true
  | .bgen _ _ _ _ => true
  | .loop _ _ _ => true
  | .jal _ _ => true
  | .jalr _ _ _ => true
  | .realign _ => true
  | .fin => true
  | .nop => true
  | .vadd16 _ _ _ => true
  | .vsub16 _ _ _ => true
  | .vrsub16 _ _ _ => true
  | .vmul16 _ _ _ => true
  | .vmin16 _ _ _ => true
  | .vmax16 _ _ _ => true
  | .vand16 _ _ _ => true
  | .vor16 _ _ _ => true
  | .vxor16 _ _ _ => true
  | .vmov16 _ _ _ => true
  | .vabs16 _ _ _ => true
  | .vneg16 _ _ _ => true
  | .vshl16 _ _ _ => true
  | .vshr16 _ _ _ => true
  | .vsra16 _ _ _ => true
  | .vfmak16 _ _ _ => true
  | .vadd32 t _ b a d => laneType t && vecField b && vecField a && vecField d
  | .vsub32 t _ b a d => laneType t && vecField b && vecField a && vecField d
  | .vrsub32 t _ b a d => laneType t && vecField b && vecField a && vecField d
  | .vmul32 t _ b a d => laneType t && vecField b && vecField a && vecField d
  | .vmin32 t _ b a d => laneType t && vecField b && vecField a && vecField d
  | .vmax32 t _ b a d => laneType t && vecField b && vecField a && vecField d
  | .vand32 t _ b a d => laneType t && vecField b && vecField a && vecField d
  | .vor32 t _ b a d => laneType t && vecField b && vecField a && vecField d
  | .vxor32 t _ b a d => laneType t && vecField b && vecField a && vecField d
  | .vmov32 t _ a d => laneType t && vecField a && vecField d
  | .vabs32 t _ a d => laneType t && vecField a && vecField d
  | .vneg32 t _ a d => laneType t && vecField a && vecField d
  | .vshl32 t _ b a d => intType t && vecField b && vecField a && vecField d
  | .vshr32 t _ b a d => intType t && vecField b && vecField a && vecField d
  | .vsra32 t _ b a d => intType t && vecField b && vecField a && vecField d
  | .vfmak32 t _ b a d => laneType t && vecField b && vecField a && vecField d
  | .vfma t _ _ b a d => laneType t && vecField b && vecField a && vecField d
  | .vfms t _ _ b a d => laneType t && vecField b && vecField a && vecField d
  | .vfnma t _ _ b a d => laneType t && vecField b && vecField a && vecField d
  | .vcmp t _ c b a d => laneType t && decide (c.toNat ≤ 5) && vecField b && vecField a && maskDest d
  | .vnot t _ a d => laneType t && vecField a && vecField d
  | .vexp2 t _ a d => floatType t && vecField a && vecField d
  | .vlog2 t _ a d => floatType t && vecField a && vecField d
  | .vrcp t _ a d => floatType t && vecField a && vecField d
  | .vrsq t _ a d => floatType t && vecField a && vecField d
  | .viota t _ d => laneType t && vecField d
  | .vcvt t _ s a d => laneType t && laneType s && vecField a && vecField d
  | .vsel t _ b a d => laneType t && vecField b && vecField a && vecField d
  | .vperm t _ b a d => laneType t && vecField b && vecField a && vecField d
  | .vslideUp t _ _ a d => laneType t && vecField a && vecField d
  | .vslideDn t _ _ a d => laneType t && vecField a && vecField d
  | .vcompress t _ a d => laneType t && vecField a && vecField d
  | .vadds t _ b a d => (t == 3 || t == 4) && vecField b && vecField a && vecField d
  | .vscanpAdd t _ a d => laneType t && vecField a && vecField d
  | .vscanpMin t _ a d => laneType t && vecField a && vecField d
  | .vscanpMax t _ a d => laneType t && vecField a && vecField d
  | .vredAdd t _ q a d => laneType t && vecField a && qField q d
  | .vredMin t _ q a d => laneType t && vecField a && qField q d
  | .vredMax t _ q a d => laneType t && vecField a && qField q d
  | .vredAnd t _ q a d => intType t && vecField a && qField q d
  | .vredOr t _ q a d => intType t && vecField a && qField q d
  | .vredXor t _ q a d => intType t && vecField a && qField q d
  | .vdot t _ q b a d => laneType t && vecField b && vecField a && qField q d
  | .vbcast t _ d => laneType t && vecField d
  | .vins t _ _ d => laneType t && vecField d
  | .vext t _ a _ => laneType t && vecField a
  | .unpkT5 _ _ d => vecField d
  | .unpkI8 _ _ d => vecField d
  | .unpkN8 _ _ d => vecField d
  | .unpkI4 _ _ d => vecField d
  | .unpkN4 _ _ d => vecField d
  | .mand b a d => maskSource b && maskSource a && maskDest d
  | .mor b a d => maskSource b && maskSource a && maskDest d
  | .mxor b a d => maskSource b && maskSource a && maskDest d
  | .mnot a d => maskSource a && maskDest d
  | .mpop t a _ => laneType t && maskSource a
  | .vtype t => laneType t
  | .vld t _ _ _ d => laneType t && vecField d
  | .vst t _ _ _ c => laneType t && vecField c
  | .vlds t _ _ _ d => laneType t && vecField d
  | .vsts t _ _ _ c => laneType t && vecField c
  | .vgath t _ b _ d => laneType t && vecField b && vecField d
  | .vscat t _ b _ c => laneType t && vecField b && vecField c
  | .vldIndexed t _ _ _ d => laneType t && vecField d
  | .vstIndexed t _ _ _ c => laneType t && vecField c
  | .mma _ _ _ _ => true
  | .mmag _ _ _ _ => true
  | .mzero _ => true
  | .mldb _ _ => true
  | .mdrn _ c _ f _ => f != 7 && (decide (5 ≤ f.toNat) || c == 0)
  | .mcfg _ _ => true
  | .pfx _ _ _ _ => true
  | .ecopy _ _ => true
  | .barinit _ _ => true
  | .baradd _ _ => true
  | .cabcfg _ _ _ => true
  | .cabpush _ v _ _ => decide (v.toNat ≤ 15)
  | .cabmrg _ _ => true
  | .cabrd _ _ _ => true
  | .cabdrn _ _ _ => true
  | .cabclr _ => true
  | .scan _ _ => true
  | .amoAdd c _ s _ _ _ => scField c s
  | .amoAnd c _ s _ _ _ => scField c s
  | .amoOr c _ s _ _ _ => scField c s
  | .amoXor c _ s _ _ _ => scField c s
  | .amoMin c _ s _ _ _ => scField c s
  | .amoMax c _ s _ _ _ => scField c s
  | .amoMinn c _ s _ _ _ => scField c s
  | .amoMaxn c _ s _ _ _ => scField c s
  | .amoSwap c _ s _ _ _ => scField c s
  | .cas c _ s _ _ _ => scField c s
  | .ldlk _ _ _ => true
  | .stul _ _ _ => true
  | .acq _ s _ _ => scopeField s
  | .rel _ s _ _ => scopeField s
  | .scld _ s _ _ => scopeField s
  | .scst _ s _ _ => scopeField s
  | .fence s => scopeField s
  | .fenceP s q p => scopeField s && pathField q && pathField p
  | .cmt => true
  | .trig => true
  | .waitList _ s _ _ => scopeField s
  | .waitBar _ s _ _ => scopeField s
  | .waitPipe _ s _ _ _ => scopeField s
  | .waitJoin _ s _ _ => scopeField s
  | .waitEvq _ s _ => scopeField s
  | .waitNotice _ s _ => scopeField s
  | .waitProd _ s _ => scopeField s
  | .waitMem _ o _ s _ _ _ => decide (o.toNat ≤ 5) && scopeField s
  | .send s _ _ => scopeField s
  | .htag _ _ => true
  | .spawn _ => true
  | .join s _ => scopeField s
  | .launch s _ _ => scopeField s
  | .wid _ _ => true
  | .ppush _ _ => true
  | .ppop _ _ => true
  | .ppeek _ _ => true
  | .migr _ _ => true
  | .lease _ _ _ _ => true
  | .unlease _ _ _ => true
  | .role x _ _ => x != 3
  | .nack _ _ => true
  | .boost _ _ => true
  | .crr r _ => controlRegister r && r != 0x13
  | .crrEvq _ => true
  | .crw r _ => controlRegister r
  | .trap _ => true
  | .sysc _ => true
  | .bkpt _ => true
  | .eret => true
  | .tack => true
  | .tlbw _ _ => true
  | .tlbi s _ => scopeField s && decide (4 ≤ s.toNat)
  | .powerUp => true
  | .bootGo => true
  | .chanterBoot => true
  | .droneReady => true
  | .hostAccess => true
  | .registerWrite => true
  | .doorbell => true
  | .completionDoorbell => true
  | .qcplWrite => true
  | .launchEnqueueResume => true
  | .launchAdmission => true
  | .rackLaunch => true
  | .residencyReport => true
  | .dispatch => true
  | .pipeActorFire => true
  | .priorityAge => true
  | .fitStarvation => true
  | .migrationComplete => true
  | .forwardingExpire => true
  | .pageResident => true
  | .quotaDecline => true
  | .tlbMiss => true
  | .regionTimeCommit => true
  | .intervalTimeClose => true
  | .loadDataReturn => true
  | .postedLineAtHome => true
  | .storeAck => true
  | .checkedAccessAtHome => true
  | .lockGrant => true
  | .pageMigration => true
  | .panpipeDelivery => true
  | .roleMapAck => true
  | .staleRequestReturn => true
  | .injectionSend => true
  | .messageDelivery => true
  | .handlerCreate => true
  | .recordPass => true
  | .firingRetire => true
  | .subtileRelease => true
  | .launchComplete => true
  | .completionJoinResume => true
  | .launchEndWrite => true
  | .waitConditionMet => true
  | .waitTimeout => true
  | .realignTimeout => true
  | .censusSample => true
  | .recastProposal => true
  | .recastDeadline => true
  | .storageCopyDone => true
  | .computeRecastRebind => true
  | .recastFinish => true
  | .leaseExpire => true
  | .matrixGrant => true
  | .matrixCommandDone => true
  | .copyChainStart => true
  | .scanChainStart => true
  | .chainCopy => true
  | .chainMcast => true
  | .chainDeal => true
  | .chainLoop => true
  | .chainIfz => true
  | .chainIfnz => true
  | .chainSignal => true
  | .chainEnd => true
  | .chainSel => true
  | .mcastLineArrival => true
  | .scanPart => true
  | .scanMerge => true
  | .cabArrival => true
  | .budgetDivision => true
  | .allocationEffect => true
  | .peakCapReached => true
  | .voltageStep => true
  | .boostExpire => true
  | .regulatorTimeout => true
  | .trapDelivery => true
  | .trapEscalation => true
  | .journalRetry => true
  | .journalDiscard => true
  | .freezeStart => true
  | .rackFreeze => true
  | .freezeTargetTimeout => true
  | .freezeComplete => true
  | .freezeResume => true
  | .resumeComplete => true
  | .attest => true
  | .identity => true
  | .release => true
  | .ceilings => true
  | .powerOff => true
  | .ualinkTargetRequest => true
  | .softError => true

/-- Events of the part: rows of the table that have no encoding. -/
def Instr.isEvent : Instr → Bool
  | .add _ _ _ _ _ _ => false
  | .sub _ _ _ _ _ _ => false
  | .and _ _ _ _ _ _ => false
  | .or _ _ _ _ _ _ => false
  | .xor _ _ _ _ _ _ => false
  | .andn _ _ _ _ _ _ => false
  | .shl _ _ _ _ _ _ => false
  | .shr _ _ _ _ _ _ => false
  | .sra _ _ _ _ _ _ => false
  | .mul _ _ _ _ _ _ => false
  | .mulh _ _ _ _ _ _ => false
  | .mulhn _ _ _ _ _ _ => false
  | .div _ _ _ _ _ _ => false
  | .divn _ _ _ _ _ _ => false
  | .rem _ _ _ _ _ _ => false
  | .remn _ _ _ _ _ _ => false
  | .min _ _ _ _ _ _ => false
  | .max _ _ _ _ _ _ => false
  | .minn _ _ _ _ _ _ => false
  | .maxn _ _ _ _ _ _ => false
  | .slt _ _ _ _ _ _ => false
  | .sltn _ _ _ _ _ _ => false
  | .seq _ _ _ _ _ _ => false
  | .csel _ _ _ _ _ => false
  | .clz _ _ _ _ => false
  | .ctz _ _ _ _ => false
  | .popc _ _ _ _ => false
  | .sext _ _ _ _ _ => false
  | .zext _ _ _ _ _ => false
  | .addi _ _ _ => false
  | .andi _ _ _ => false
  | .ori _ _ _ => false
  | .xori _ _ _ => false
  | .shli _ _ _ => false
  | .shri _ _ _ => false
  | .srai _ _ _ => false
  | .slti _ _ _ => false
  | .lui _ _ => false
  | .addpc _ _ => false
  | .ld _ _ _ _ => false
  | .st _ _ _ _ => false
  | .ldx _ _ _ _ _ _ _ => false
  | .stx _ _ _ _ _ _ _ => false
  | .pref _ _ => false
  | .alloc _ _ _ => false
  | .free _ _ => false
  | .beq _ _ _ _ => false
  | .bne _ _ _ _ => false
  | .blt _ _ _ _ => false
  | .bge _ _ _ _ => false
  | .bltn _ _ _ _ => false
  | .bgen _ _ _ _ => false
  | .loop _ _ _ => false
  | .jal _ _ => false
  | .jalr _ _ _ => false
  | .realign _ => false
  | .fin => false
  | .nop => false
  | .vadd16 _ _ _ => false
  | .vsub16 _ _ _ => false
  | .vrsub16 _ _ _ => false
  | .vmul16 _ _ _ => false
  | .vmin16 _ _ _ => false
  | .vmax16 _ _ _ => false
  | .vand16 _ _ _ => false
  | .vor16 _ _ _ => false
  | .vxor16 _ _ _ => false
  | .vmov16 _ _ _ => false
  | .vabs16 _ _ _ => false
  | .vneg16 _ _ _ => false
  | .vshl16 _ _ _ => false
  | .vshr16 _ _ _ => false
  | .vsra16 _ _ _ => false
  | .vfmak16 _ _ _ => false
  | .vadd32 _ _ _ _ _ => false
  | .vsub32 _ _ _ _ _ => false
  | .vrsub32 _ _ _ _ _ => false
  | .vmul32 _ _ _ _ _ => false
  | .vmin32 _ _ _ _ _ => false
  | .vmax32 _ _ _ _ _ => false
  | .vand32 _ _ _ _ _ => false
  | .vor32 _ _ _ _ _ => false
  | .vxor32 _ _ _ _ _ => false
  | .vmov32 _ _ _ _ => false
  | .vabs32 _ _ _ _ => false
  | .vneg32 _ _ _ _ => false
  | .vshl32 _ _ _ _ _ => false
  | .vshr32 _ _ _ _ _ => false
  | .vsra32 _ _ _ _ _ => false
  | .vfmak32 _ _ _ _ _ => false
  | .vfma _ _ _ _ _ _ => false
  | .vfms _ _ _ _ _ _ => false
  | .vfnma _ _ _ _ _ _ => false
  | .vcmp _ _ _ _ _ _ => false
  | .vnot _ _ _ _ => false
  | .vexp2 _ _ _ _ => false
  | .vlog2 _ _ _ _ => false
  | .vrcp _ _ _ _ => false
  | .vrsq _ _ _ _ => false
  | .viota _ _ _ => false
  | .vcvt _ _ _ _ _ => false
  | .vsel _ _ _ _ _ => false
  | .vperm _ _ _ _ _ => false
  | .vslideUp _ _ _ _ _ => false
  | .vslideDn _ _ _ _ _ => false
  | .vcompress _ _ _ _ => false
  | .vadds _ _ _ _ _ => false
  | .vscanpAdd _ _ _ _ => false
  | .vscanpMin _ _ _ _ => false
  | .vscanpMax _ _ _ _ => false
  | .vredAdd _ _ _ _ _ => false
  | .vredMin _ _ _ _ _ => false
  | .vredMax _ _ _ _ _ => false
  | .vredAnd _ _ _ _ _ => false
  | .vredOr _ _ _ _ _ => false
  | .vredXor _ _ _ _ _ => false
  | .vdot _ _ _ _ _ _ => false
  | .vbcast _ _ _ => false
  | .vins _ _ _ _ => false
  | .vext _ _ _ _ => false
  | .unpkT5 _ _ _ => false
  | .unpkI8 _ _ _ => false
  | .unpkN8 _ _ _ => false
  | .unpkI4 _ _ _ => false
  | .unpkN4 _ _ _ => false
  | .mand _ _ _ => false
  | .mor _ _ _ => false
  | .mxor _ _ _ => false
  | .mnot _ _ => false
  | .mpop _ _ _ => false
  | .vtype _ => false
  | .vld _ _ _ _ _ => false
  | .vst _ _ _ _ _ => false
  | .vlds _ _ _ _ _ => false
  | .vsts _ _ _ _ _ => false
  | .vgath _ _ _ _ _ => false
  | .vscat _ _ _ _ _ => false
  | .vldIndexed _ _ _ _ _ => false
  | .vstIndexed _ _ _ _ _ => false
  | .mma _ _ _ _ => false
  | .mmag _ _ _ _ => false
  | .mzero _ => false
  | .mldb _ _ => false
  | .mdrn _ _ _ _ _ => false
  | .mcfg _ _ => false
  | .pfx _ _ _ _ => false
  | .ecopy _ _ => false
  | .barinit _ _ => false
  | .baradd _ _ => false
  | .cabcfg _ _ _ => false
  | .cabpush _ _ _ _ => false
  | .cabmrg _ _ => false
  | .cabrd _ _ _ => false
  | .cabdrn _ _ _ => false
  | .cabclr _ => false
  | .scan _ _ => false
  | .amoAdd _ _ _ _ _ _ => false
  | .amoAnd _ _ _ _ _ _ => false
  | .amoOr _ _ _ _ _ _ => false
  | .amoXor _ _ _ _ _ _ => false
  | .amoMin _ _ _ _ _ _ => false
  | .amoMax _ _ _ _ _ _ => false
  | .amoMinn _ _ _ _ _ _ => false
  | .amoMaxn _ _ _ _ _ _ => false
  | .amoSwap _ _ _ _ _ _ => false
  | .cas _ _ _ _ _ _ => false
  | .ldlk _ _ _ => false
  | .stul _ _ _ => false
  | .acq _ _ _ _ => false
  | .rel _ _ _ _ => false
  | .scld _ _ _ _ => false
  | .scst _ _ _ _ => false
  | .fence _ => false
  | .fenceP _ _ _ => false
  | .cmt => false
  | .trig => false
  | .waitList _ _ _ _ => false
  | .waitBar _ _ _ _ => false
  | .waitPipe _ _ _ _ _ => false
  | .waitJoin _ _ _ _ => false
  | .waitEvq _ _ _ => false
  | .waitNotice _ _ _ => false
  | .waitProd _ _ _ => false
  | .waitMem _ _ _ _ _ _ _ => false
  | .send _ _ _ => false
  | .htag _ _ => false
  | .spawn _ => false
  | .join _ _ => false
  | .launch _ _ _ => false
  | .wid _ _ => false
  | .ppush _ _ => false
  | .ppop _ _ => false
  | .ppeek _ _ => false
  | .migr _ _ => false
  | .lease _ _ _ _ => false
  | .unlease _ _ _ => false
  | .role _ _ _ => false
  | .nack _ _ => false
  | .boost _ _ => false
  | .crr _ _ => false
  | .crrEvq _ => false
  | .crw _ _ => false
  | .trap _ => false
  | .sysc _ => false
  | .bkpt _ => false
  | .eret => false
  | .tack => false
  | .tlbw _ _ => false
  | .tlbi _ _ => false
  | .powerUp => true
  | .bootGo => true
  | .chanterBoot => true
  | .droneReady => true
  | .hostAccess => true
  | .registerWrite => true
  | .doorbell => true
  | .completionDoorbell => true
  | .qcplWrite => true
  | .launchEnqueueResume => true
  | .launchAdmission => true
  | .rackLaunch => true
  | .residencyReport => true
  | .dispatch => true
  | .pipeActorFire => true
  | .priorityAge => true
  | .fitStarvation => true
  | .migrationComplete => true
  | .forwardingExpire => true
  | .pageResident => true
  | .quotaDecline => true
  | .tlbMiss => true
  | .regionTimeCommit => true
  | .intervalTimeClose => true
  | .loadDataReturn => true
  | .postedLineAtHome => true
  | .storeAck => true
  | .checkedAccessAtHome => true
  | .lockGrant => true
  | .pageMigration => true
  | .panpipeDelivery => true
  | .roleMapAck => true
  | .staleRequestReturn => true
  | .injectionSend => true
  | .messageDelivery => true
  | .handlerCreate => true
  | .recordPass => true
  | .firingRetire => true
  | .subtileRelease => true
  | .launchComplete => true
  | .completionJoinResume => true
  | .launchEndWrite => true
  | .waitConditionMet => true
  | .waitTimeout => true
  | .realignTimeout => true
  | .censusSample => true
  | .recastProposal => true
  | .recastDeadline => true
  | .storageCopyDone => true
  | .computeRecastRebind => true
  | .recastFinish => true
  | .leaseExpire => true
  | .matrixGrant => true
  | .matrixCommandDone => true
  | .copyChainStart => true
  | .scanChainStart => true
  | .chainCopy => true
  | .chainMcast => true
  | .chainDeal => true
  | .chainLoop => true
  | .chainIfz => true
  | .chainIfnz => true
  | .chainSignal => true
  | .chainEnd => true
  | .chainSel => true
  | .mcastLineArrival => true
  | .scanPart => true
  | .scanMerge => true
  | .cabArrival => true
  | .budgetDivision => true
  | .allocationEffect => true
  | .peakCapReached => true
  | .voltageStep => true
  | .boostExpire => true
  | .regulatorTimeout => true
  | .trapDelivery => true
  | .trapEscalation => true
  | .journalRetry => true
  | .journalDiscard => true
  | .freezeStart => true
  | .rackFreeze => true
  | .freezeTargetTimeout => true
  | .freezeComplete => true
  | .freezeResume => true
  | .resumeComplete => true
  | .attest => true
  | .identity => true
  | .release => true
  | .ceilings => true
  | .powerOff => true
  | .ualinkTargetRequest => true
  | .softError => true

end Sys2Proof
end

