-- ==== Sys2Proof/Decode.lean ====
section
/-! DEFINITION. From the bytes of code to an instruction, and back (R291 to R311).

A word is read as a number whose bit 0 is the least significant bit of the first halfword (R291).  The decoder tests the
fixed bits of a row and takes its open bits as they stand; whether an operand value is admitted is `Instr.wellFormed`. -/

namespace Sys2Proof

/-- Why a word is no instruction (R314). -/
inductive DecodeError where
  /-- Fewer bytes than the instruction's length. -/
  | truncated
  /-- A reserved major opcode (R299). -/
  | reservedMajor
  /-- A reserved sub-field value, or a bit that must be zero set, in an assigned major. -/
  | reservedField
deriving DecidableEq, Repr

/-- The `n` bits of `w` from bit `lo` up (R8). -/
def bits (w lo n : Nat) : Nat := w / 2 ^ lo % 2 ^ n

/-- The field of `n` bits of `w` from bit `lo` up. -/
def fld (w lo n : Nat) : BitVec n := BitVec.ofNat n (bits w lo n)

/-- The 16-bit form: every encoding is an instruction (R292). -/
def decodeHalf (w : Nat) : Instr :=
  match bits w 1 4 with
  | 0 => .vadd16 (fld w 13 3) (fld w 9 4) (fld w 5 4)
  | 1 => .vsub16 (fld w 13 3) (fld w 9 4) (fld w 5 4)
  | 2 => .vrsub16 (fld w 13 3) (fld w 9 4) (fld w 5 4)
  | 3 => .vmul16 (fld w 13 3) (fld w 9 4) (fld w 5 4)
  | 4 => .vmin16 (fld w 13 3) (fld w 9 4) (fld w 5 4)
  | 5 => .vmax16 (fld w 13 3) (fld w 9 4) (fld w 5 4)
  | 6 => .vand16 (fld w 13 3) (fld w 9 4) (fld w 5 4)
  | 7 => .vor16 (fld w 13 3) (fld w 9 4) (fld w 5 4)
  | 8 => .vxor16 (fld w 13 3) (fld w 9 4) (fld w 5 4)
  | 9 => .vmov16 (fld w 13 3) (fld w 9 4) (fld w 5 4)
  | 10 => .vabs16 (fld w 13 3) (fld w 9 4) (fld w 5 4)
  | 11 => .vneg16 (fld w 13 3) (fld w 9 4) (fld w 5 4)
  | 12 => .vshl16 (fld w 13 3) (fld w 9 4) (fld w 5 4)
  | 13 => .vshr16 (fld w 13 3) (fld w 9 4) (fld w 5 4)
  | 14 => .vsra16 (fld w 13 3) (fld w 9 4) (fld w 5 4)
  | _ => .vfmak16 (fld w 13 3) (fld w 9 4) (fld w 5 4)

/-- Major 0x00: scalar three-register operations (R300). -/
def decodeMajor00 (w : Nat) : Option Instr :=
  if bits w 25 2 = 0 ∧ bits w 27 5 = 0 then some (.add (fld w 24 1) (fld w 23 1) (fld w 22 1) (fld w 17 5) (fld w 12 5) (fld w 7 5))
  else if bits w 25 2 = 0 ∧ bits w 27 5 = 1 then some (.sub (fld w 24 1) (fld w 23 1) (fld w 22 1) (fld w 17 5) (fld w 12 5) (fld w 7 5))
  else if bits w 25 2 = 0 ∧ bits w 27 5 = 2 then some (.and (fld w 24 1) (fld w 23 1) (fld w 22 1) (fld w 17 5) (fld w 12 5) (fld w 7 5))
  else if bits w 25 2 = 0 ∧ bits w 27 5 = 3 then some (.or (fld w 24 1) (fld w 23 1) (fld w 22 1) (fld w 17 5) (fld w 12 5) (fld w 7 5))
  else if bits w 25 2 = 0 ∧ bits w 27 5 = 4 then some (.xor (fld w 24 1) (fld w 23 1) (fld w 22 1) (fld w 17 5) (fld w 12 5) (fld w 7 5))
  else if bits w 25 2 = 0 ∧ bits w 27 5 = 5 then some (.andn (fld w 24 1) (fld w 23 1) (fld w 22 1) (fld w 17 5) (fld w 12 5) (fld w 7 5))
  else if bits w 25 2 = 0 ∧ bits w 27 5 = 6 then some (.shl (fld w 24 1) (fld w 23 1) (fld w 22 1) (fld w 17 5) (fld w 12 5) (fld w 7 5))
  else if bits w 25 2 = 0 ∧ bits w 27 5 = 7 then some (.shr (fld w 24 1) (fld w 23 1) (fld w 22 1) (fld w 17 5) (fld w 12 5) (fld w 7 5))
  else if bits w 25 2 = 0 ∧ bits w 27 5 = 8 then some (.sra (fld w 24 1) (fld w 23 1) (fld w 22 1) (fld w 17 5) (fld w 12 5) (fld w 7 5))
  else if bits w 25 2 = 0 ∧ bits w 27 5 = 9 then some (.mul (fld w 24 1) (fld w 23 1) (fld w 22 1) (fld w 17 5) (fld w 12 5) (fld w 7 5))
  else if bits w 25 2 = 0 ∧ bits w 27 5 = 10 then some (.mulh (fld w 24 1) (fld w 23 1) (fld w 22 1) (fld w 17 5) (fld w 12 5) (fld w 7 5))
  else if bits w 25 2 = 0 ∧ bits w 27 5 = 11 then some (.mulhn (fld w 24 1) (fld w 23 1) (fld w 22 1) (fld w 17 5) (fld w 12 5) (fld w 7 5))
  else if bits w 25 2 = 0 ∧ bits w 27 5 = 12 then some (.div (fld w 24 1) (fld w 23 1) (fld w 22 1) (fld w 17 5) (fld w 12 5) (fld w 7 5))
  else if bits w 25 2 = 0 ∧ bits w 27 5 = 13 then some (.divn (fld w 24 1) (fld w 23 1) (fld w 22 1) (fld w 17 5) (fld w 12 5) (fld w 7 5))
  else if bits w 25 2 = 0 ∧ bits w 27 5 = 14 then some (.rem (fld w 24 1) (fld w 23 1) (fld w 22 1) (fld w 17 5) (fld w 12 5) (fld w 7 5))
  else if bits w 25 2 = 0 ∧ bits w 27 5 = 15 then some (.remn (fld w 24 1) (fld w 23 1) (fld w 22 1) (fld w 17 5) (fld w 12 5) (fld w 7 5))
  else if bits w 25 2 = 0 ∧ bits w 27 5 = 16 then some (.min (fld w 24 1) (fld w 23 1) (fld w 22 1) (fld w 17 5) (fld w 12 5) (fld w 7 5))
  else if bits w 25 2 = 0 ∧ bits w 27 5 = 17 then some (.max (fld w 24 1) (fld w 23 1) (fld w 22 1) (fld w 17 5) (fld w 12 5) (fld w 7 5))
  else if bits w 25 2 = 0 ∧ bits w 27 5 = 18 then some (.minn (fld w 24 1) (fld w 23 1) (fld w 22 1) (fld w 17 5) (fld w 12 5) (fld w 7 5))
  else if bits w 25 2 = 0 ∧ bits w 27 5 = 19 then some (.maxn (fld w 24 1) (fld w 23 1) (fld w 22 1) (fld w 17 5) (fld w 12 5) (fld w 7 5))
  else if bits w 25 2 = 0 ∧ bits w 27 5 = 20 then some (.slt (fld w 24 1) (fld w 23 1) (fld w 22 1) (fld w 17 5) (fld w 12 5) (fld w 7 5))
  else if bits w 25 2 = 0 ∧ bits w 27 5 = 21 then some (.sltn (fld w 24 1) (fld w 23 1) (fld w 22 1) (fld w 17 5) (fld w 12 5) (fld w 7 5))
  else if bits w 25 2 = 0 ∧ bits w 27 5 = 22 then some (.seq (fld w 24 1) (fld w 23 1) (fld w 22 1) (fld w 17 5) (fld w 12 5) (fld w 7 5))
  else if bits w 22 1 = 0 ∧ bits w 25 2 = 0 ∧ bits w 27 5 = 23 then some (.csel (fld w 24 1) (fld w 23 1) (fld w 17 5) (fld w 12 5) (fld w 7 5))
  else if bits w 17 5 = 0 ∧ bits w 24 1 = 0 ∧ bits w 25 2 = 0 ∧ bits w 27 5 = 24 then some (.clz (fld w 23 1) (fld w 22 1) (fld w 12 5) (fld w 7 5))
  else if bits w 17 5 = 0 ∧ bits w 24 1 = 0 ∧ bits w 25 2 = 0 ∧ bits w 27 5 = 25 then some (.ctz (fld w 23 1) (fld w 22 1) (fld w 12 5) (fld w 7 5))
  else if bits w 17 5 = 0 ∧ bits w 24 1 = 0 ∧ bits w 25 2 = 0 ∧ bits w 27 5 = 26 then some (.popc (fld w 23 1) (fld w 22 1) (fld w 12 5) (fld w 7 5))
  else if bits w 17 5 = 0 ∧ bits w 24 1 = 0 ∧ bits w 27 5 = 27 then some (.sext (fld w 25 2) (fld w 23 1) (fld w 22 1) (fld w 12 5) (fld w 7 5))
  else if bits w 17 5 = 0 ∧ bits w 24 1 = 0 ∧ bits w 27 5 = 28 then some (.zext (fld w 25 2) (fld w 23 1) (fld w 22 1) (fld w 12 5) (fld w 7 5))
  else none

/-- Major 0x01: scalar immediate operations (R301). -/
def decodeMajor01 (w : Nat) : Option Instr :=
  if bits w 29 3 = 0 then some (.addi (fld w 17 12) (fld w 12 5) (fld w 7 5))
  else if bits w 29 3 = 1 then some (.andi (fld w 17 12) (fld w 12 5) (fld w 7 5))
  else if bits w 29 3 = 2 then some (.ori (fld w 17 12) (fld w 12 5) (fld w 7 5))
  else if bits w 29 3 = 3 then some (.xori (fld w 17 12) (fld w 12 5) (fld w 7 5))
  else if bits w 29 3 = 4 then some (.shli (fld w 17 12) (fld w 12 5) (fld w 7 5))
  else if bits w 29 3 = 5 then some (.shri (fld w 17 12) (fld w 12 5) (fld w 7 5))
  else if bits w 29 3 = 6 then some (.srai (fld w 17 12) (fld w 12 5) (fld w 7 5))
  else if bits w 29 3 = 7 then some (.slti (fld w 17 12) (fld w 12 5) (fld w 7 5))
  else none

/-- Major 0x02: `LUI`. -/
def decodeMajor02 (w : Nat) : Option Instr :=
  some (.lui (fld w 12 20) (fld w 7 5))

/-- Major 0x03: `ADDPC`. -/
def decodeMajor03 (w : Nat) : Option Instr :=
  some (.addpc (fld w 12 20) (fld w 7 5))

/-- Major 0x10: `LD`. -/
def decodeMajor10 (w : Nat) : Option Instr :=
  some (.ld (fld w 29 3) (fld w 17 12) (fld w 12 5) (fld w 7 5))

/-- Major 0x11: `ST`. -/
def decodeMajor11 (w : Nat) : Option Instr :=
  if bits w 31 1 = 0 then some (.st (fld w 29 2) (fld w 17 12) (fld w 12 5) (fld w 7 5))
  else none

/-- Major 0x12: `LDX`, `STX`. -/
def decodeMajor12 (w : Nat) : Option Instr :=
  if bits w 25 2 = 0 ∧ bits w 30 2 = 0 then some (.ldx (fld w 27 3) (fld w 24 1) (fld w 23 1) (fld w 22 1) (fld w 17 5) (fld w 12 5) (fld w 7 5))
  else if bits w 25 2 = 0 ∧ bits w 29 1 = 0 ∧ bits w 30 2 = 1 then some (.stx (fld w 27 2) (fld w 24 1) (fld w 23 1) (fld w 22 1) (fld w 17 5) (fld w 12 5) (fld w 7 5))
  else none

/-- Major 0x13: `PREF`. -/
def decodeMajor13 (w : Nat) : Option Instr :=
  if bits w 7 5 = 0 ∧ bits w 29 3 = 0 then some (.pref (fld w 17 12) (fld w 12 5))
  else none

/-- Major 0x14: `ALLOC`, `FREE`. -/
def decodeMajor14 (w : Nat) : Option Instr :=
  if bits w 29 3 = 0 then some (.alloc (fld w 17 12) (fld w 12 5) (fld w 7 5))
  else if bits w 17 12 = 0 ∧ bits w 29 3 = 1 then some (.free (fld w 12 5) (fld w 7 5))
  else none

/-- Major 0x15: `VLD`. -/
def decodeMajor15 (w : Nat) : Option Instr :=
  some (.vld (fld w 29 3) (fld w 26 3) (fld w 17 9) (fld w 12 5) (fld w 7 5))

/-- Major 0x16: `VST`. -/
def decodeMajor16 (w : Nat) : Option Instr :=
  some (.vst (fld w 29 3) (fld w 26 3) (fld w 17 9) (fld w 12 5) (fld w 7 5))

/-- Major 0x17: strided, indexed and register-offset vector memory (R304). -/
def decodeMajor17 (w : Nat) : Option Instr :=
  if bits w 22 4 = 0 then some (.vlds (fld w 29 3) (fld w 26 3) (fld w 17 5) (fld w 12 5) (fld w 7 5))
  else if bits w 22 4 = 1 then some (.vsts (fld w 29 3) (fld w 26 3) (fld w 17 5) (fld w 12 5) (fld w 7 5))
  else if bits w 22 4 = 2 then some (.vgath (fld w 29 3) (fld w 26 3) (fld w 17 5) (fld w 12 5) (fld w 7 5))
  else if bits w 22 4 = 3 then some (.vscat (fld w 29 3) (fld w 26 3) (fld w 17 5) (fld w 12 5) (fld w 7 5))
  else if bits w 22 4 = 4 then some (.vldIndexed (fld w 29 3) (fld w 26 3) (fld w 17 5) (fld w 12 5) (fld w 7 5))
  else if bits w 22 4 = 5 then some (.vstIndexed (fld w 29 3) (fld w 26 3) (fld w 17 5) (fld w 12 5) (fld w 7 5))
  else none

/-- Major 0x18: branches and `LOOP` (R302). -/
def decodeMajor18 (w : Nat) : Option Instr :=
  if bits w 17 3 = 0 then some (.beq (fld w 31 1) (fld w 20 11) (fld w 12 5) (fld w 7 5))
  else if bits w 17 3 = 1 then some (.bne (fld w 31 1) (fld w 20 11) (fld w 12 5) (fld w 7 5))
  else if bits w 17 3 = 2 then some (.blt (fld w 31 1) (fld w 20 11) (fld w 12 5) (fld w 7 5))
  else if bits w 17 3 = 3 then some (.bge (fld w 31 1) (fld w 20 11) (fld w 12 5) (fld w 7 5))
  else if bits w 17 3 = 4 then some (.bltn (fld w 31 1) (fld w 20 11) (fld w 12 5) (fld w 7 5))
  else if bits w 17 3 = 5 then some (.bgen (fld w 31 1) (fld w 20 11) (fld w 12 5) (fld w 7 5))
  else if bits w 12 5 = 0 ∧ bits w 17 3 = 6 then some (.loop (fld w 31 1) (fld w 20 11) (fld w 7 5))
  else none

/-- Major 0x19: `JAL`. -/
def decodeMajor19 (w : Nat) : Option Instr :=
  some (.jal (fld w 12 20) (fld w 7 5))

/-- Major 0x1A: `JALR`. -/
def decodeMajor1A (w : Nat) : Option Instr :=
  if bits w 29 3 = 0 then some (.jalr (fld w 17 12) (fld w 12 5) (fld w 7 5))
  else none

/-- Major 0x1B: `REALIGN`. -/
def decodeMajor1B (w : Nat) : Option Instr :=
  if bits w 7 5 = 0 ∧ bits w 12 5 = 0 ∧ bits w 29 3 = 0 then some (.realign (fld w 17 12))
  else none

/-- Major 0x1E: `FIN`. -/
def decodeMajor1E (w : Nat) : Option Instr :=
  if bits w 7 5 = 0 ∧ bits w 12 5 = 0 ∧ bits w 17 3 = 0 ∧ bits w 20 2 = 0 ∧ bits w 22 4 = 0 ∧ bits w 26 3 = 0 ∧ bits w 29 3 = 0 then some (.fin)
  else none

/-- Major 0x1F: `NOP`. -/
def decodeMajor1F (w : Nat) : Option Instr :=
  if bits w 7 5 = 0 ∧ bits w 12 5 = 0 ∧ bits w 17 3 = 0 ∧ bits w 20 2 = 0 ∧ bits w 22 4 = 0 ∧ bits w 26 3 = 0 ∧ bits w 29 3 = 0 then some (.nop)
  else none

/-- Major 0x20: compact operations in 32-bit form (R303). -/
def decodeMajor20 (w : Nat) : Option Instr :=
  if bits w 22 4 = 0 then some (.vadd32 (fld w 29 3) (fld w 26 3) (fld w 17 5) (fld w 12 5) (fld w 7 5))
  else if bits w 22 4 = 1 then some (.vsub32 (fld w 29 3) (fld w 26 3) (fld w 17 5) (fld w 12 5) (fld w 7 5))
  else if bits w 22 4 = 2 then some (.vrsub32 (fld w 29 3) (fld w 26 3) (fld w 17 5) (fld w 12 5) (fld w 7 5))
  else if bits w 22 4 = 3 then some (.vmul32 (fld w 29 3) (fld w 26 3) (fld w 17 5) (fld w 12 5) (fld w 7 5))
  else if bits w 22 4 = 4 then some (.vmin32 (fld w 29 3) (fld w 26 3) (fld w 17 5) (fld w 12 5) (fld w 7 5))
  else if bits w 22 4 = 5 then some (.vmax32 (fld w 29 3) (fld w 26 3) (fld w 17 5) (fld w 12 5) (fld w 7 5))
  else if bits w 22 4 = 6 then some (.vand32 (fld w 29 3) (fld w 26 3) (fld w 17 5) (fld w 12 5) (fld w 7 5))
  else if bits w 22 4 = 7 then some (.vor32 (fld w 29 3) (fld w 26 3) (fld w 17 5) (fld w 12 5) (fld w 7 5))
  else if bits w 22 4 = 8 then some (.vxor32 (fld w 29 3) (fld w 26 3) (fld w 17 5) (fld w 12 5) (fld w 7 5))
  else if bits w 17 3 = 0 ∧ bits w 20 2 = 0 ∧ bits w 22 4 = 9 then some (.vmov32 (fld w 29 3) (fld w 26 3) (fld w 12 5) (fld w 7 5))
  else if bits w 17 3 = 0 ∧ bits w 20 2 = 0 ∧ bits w 22 4 = 10 then some (.vabs32 (fld w 29 3) (fld w 26 3) (fld w 12 5) (fld w 7 5))
  else if bits w 17 3 = 0 ∧ bits w 20 2 = 0 ∧ bits w 22 4 = 11 then some (.vneg32 (fld w 29 3) (fld w 26 3) (fld w 12 5) (fld w 7 5))
  else if bits w 22 4 = 12 then some (.vshl32 (fld w 29 3) (fld w 26 3) (fld w 17 5) (fld w 12 5) (fld w 7 5))
  else if bits w 22 4 = 13 then some (.vshr32 (fld w 29 3) (fld w 26 3) (fld w 17 5) (fld w 12 5) (fld w 7 5))
  else if bits w 22 4 = 14 then some (.vsra32 (fld w 29 3) (fld w 26 3) (fld w 17 5) (fld w 12 5) (fld w 7 5))
  else if bits w 22 4 = 15 then some (.vfmak32 (fld w 29 3) (fld w 26 3) (fld w 17 5) (fld w 12 5) (fld w 7 5))
  else none

/-- Major 0x21: `VFMA`. -/
def decodeMajor21 (w : Nat) : Option Instr :=
  some (.vfma (fld w 29 3) (fld w 26 3) (fld w 22 4) (fld w 17 5) (fld w 12 5) (fld w 7 5))

/-- Major 0x22: `VFMS`. -/
def decodeMajor22 (w : Nat) : Option Instr :=
  some (.vfms (fld w 29 3) (fld w 26 3) (fld w 22 4) (fld w 17 5) (fld w 12 5) (fld w 7 5))

/-- Major 0x23: `VFNMA`. -/
def decodeMajor23 (w : Nat) : Option Instr :=
  some (.vfnma (fld w 29 3) (fld w 26 3) (fld w 22 4) (fld w 17 5) (fld w 12 5) (fld w 7 5))

/-- Major 0x24: `VCMP`. -/
def decodeMajor24 (w : Nat) : Option Instr :=
  some (.vcmp (fld w 29 3) (fld w 26 3) (fld w 22 4) (fld w 17 5) (fld w 12 5) (fld w 7 5))

/-- Major 0x25: unary vector operations (R303). -/
def decodeMajor25 (w : Nat) : Option Instr :=
  if bits w 17 3 = 0 ∧ bits w 20 2 = 0 ∧ bits w 22 4 = 0 then some (.vnot (fld w 29 3) (fld w 26 3) (fld w 12 5) (fld w 7 5))
  else if bits w 17 3 = 0 ∧ bits w 20 2 = 0 ∧ bits w 22 4 = 1 then some (.vexp2 (fld w 29 3) (fld w 26 3) (fld w 12 5) (fld w 7 5))
  else if bits w 17 3 = 0 ∧ bits w 20 2 = 0 ∧ bits w 22 4 = 2 then some (.vlog2 (fld w 29 3) (fld w 26 3) (fld w 12 5) (fld w 7 5))
  else if bits w 17 3 = 0 ∧ bits w 20 2 = 0 ∧ bits w 22 4 = 3 then some (.vrcp (fld w 29 3) (fld w 26 3) (fld w 12 5) (fld w 7 5))
  else if bits w 17 3 = 0 ∧ bits w 20 2 = 0 ∧ bits w 22 4 = 4 then some (.vrsq (fld w 29 3) (fld w 26 3) (fld w 12 5) (fld w 7 5))
  else if bits w 12 5 = 0 ∧ bits w 17 3 = 0 ∧ bits w 20 2 = 0 ∧ bits w 22 4 = 5 then some (.viota (fld w 29 3) (fld w 26 3) (fld w 7 5))
  else if bits w 20 2 = 0 ∧ bits w 22 4 = 6 then some (.vcvt (fld w 29 3) (fld w 26 3) (fld w 17 3) (fld w 12 5) (fld w 7 5))
  else none

/-- Major 0x26: lane-structure operations (R303). -/
def decodeMajor26 (w : Nat) : Option Instr :=
  if bits w 22 4 = 0 then some (.vsel (fld w 29 3) (fld w 26 3) (fld w 17 5) (fld w 12 5) (fld w 7 5))
  else if bits w 22 4 = 1 then some (.vperm (fld w 29 3) (fld w 26 3) (fld w 17 5) (fld w 12 5) (fld w 7 5))
  else if bits w 22 4 = 2 then some (.vslideUp (fld w 29 3) (fld w 26 3) (fld w 17 5) (fld w 12 5) (fld w 7 5))
  else if bits w 22 4 = 3 then some (.vslideDn (fld w 29 3) (fld w 26 3) (fld w 17 5) (fld w 12 5) (fld w 7 5))
  else if bits w 17 3 = 0 ∧ bits w 20 2 = 0 ∧ bits w 22 4 = 4 then some (.vcompress (fld w 29 3) (fld w 26 3) (fld w 12 5) (fld w 7 5))
  else if bits w 22 4 = 5 then some (.vadds (fld w 29 3) (fld w 26 3) (fld w 17 5) (fld w 12 5) (fld w 7 5))
  else if bits w 17 3 = 0 ∧ bits w 20 2 = 0 ∧ bits w 22 4 = 6 then some (.vscanpAdd (fld w 29 3) (fld w 26 3) (fld w 12 5) (fld w 7 5))
  else if bits w 17 3 = 0 ∧ bits w 20 2 = 0 ∧ bits w 22 4 = 7 then some (.vscanpMin (fld w 29 3) (fld w 26 3) (fld w 12 5) (fld w 7 5))
  else if bits w 17 3 = 0 ∧ bits w 20 2 = 0 ∧ bits w 22 4 = 8 then some (.vscanpMax (fld w 29 3) (fld w 26 3) (fld w 12 5) (fld w 7 5))
  else none

/-- Major 0x27: reductions (R303). -/
def decodeMajor27 (w : Nat) : Option Instr :=
  if bits w 17 5 = 0 ∧ bits w 22 3 = 0 then some (.vredAdd (fld w 29 3) (fld w 26 3) (fld w 25 1) (fld w 12 5) (fld w 7 5))
  else if bits w 17 5 = 0 ∧ bits w 22 3 = 1 then some (.vredMin (fld w 29 3) (fld w 26 3) (fld w 25 1) (fld w 12 5) (fld w 7 5))
  else if bits w 17 5 = 0 ∧ bits w 22 3 = 2 then some (.vredMax (fld w 29 3) (fld w 26 3) (fld w 25 1) (fld w 12 5) (fld w 7 5))
  else if bits w 17 5 = 0 ∧ bits w 22 3 = 3 then some (.vredAnd (fld w 29 3) (fld w 26 3) (fld w 25 1) (fld w 12 5) (fld w 7 5))
  else if bits w 17 5 = 0 ∧ bits w 22 3 = 4 then some (.vredOr (fld w 29 3) (fld w 26 3) (fld w 25 1) (fld w 12 5) (fld w 7 5))
  else if bits w 17 5 = 0 ∧ bits w 22 3 = 5 then some (.vredXor (fld w 29 3) (fld w 26 3) (fld w 25 1) (fld w 12 5) (fld w 7 5))
  else if bits w 22 3 = 6 then some (.vdot (fld w 29 3) (fld w 26 3) (fld w 25 1) (fld w 17 5) (fld w 12 5) (fld w 7 5))
  else none

/-- Major 0x28: moves between the streams (R303). -/
def decodeMajor28 (w : Nat) : Option Instr :=
  if bits w 17 3 = 0 ∧ bits w 20 2 = 0 ∧ bits w 22 4 = 0 ∧ bits w 26 3 = 0 then some (.vbcast (fld w 29 3) (fld w 12 5) (fld w 7 5))
  else if bits w 22 4 = 1 ∧ bits w 26 3 = 0 then some (.vins (fld w 29 3) (fld w 17 5) (fld w 12 5) (fld w 7 5))
  else if bits w 22 4 = 2 ∧ bits w 26 3 = 0 then some (.vext (fld w 29 3) (fld w 17 5) (fld w 12 5) (fld w 7 5))
  else none

/-- Major 0x29: `UNPK` (R303). -/
def decodeMajor29 (w : Nat) : Option Instr :=
  if bits w 20 2 = 0 ∧ bits w 22 4 = 0 ∧ bits w 26 3 = 0 ∧ bits w 29 3 = 0 then some (.unpkT5 (fld w 17 3) (fld w 12 5) (fld w 7 5))
  else if bits w 20 2 = 0 ∧ bits w 22 4 = 1 ∧ bits w 26 3 = 0 ∧ bits w 29 3 = 0 then some (.unpkI8 (fld w 17 3) (fld w 12 5) (fld w 7 5))
  else if bits w 20 2 = 0 ∧ bits w 22 4 = 2 ∧ bits w 26 3 = 0 ∧ bits w 29 3 = 0 then some (.unpkN8 (fld w 17 3) (fld w 12 5) (fld w 7 5))
  else if bits w 20 2 = 0 ∧ bits w 22 4 = 3 ∧ bits w 26 3 = 0 ∧ bits w 29 3 = 0 then some (.unpkI4 (fld w 17 3) (fld w 12 5) (fld w 7 5))
  else if bits w 20 2 = 0 ∧ bits w 22 4 = 4 ∧ bits w 26 3 = 0 ∧ bits w 29 3 = 0 then some (.unpkN4 (fld w 17 3) (fld w 12 5) (fld w 7 5))
  else none

/-- Major 0x2A: mask operations (R303). -/
def decodeMajor2A (w : Nat) : Option Instr :=
  if bits w 22 4 = 0 ∧ bits w 26 3 = 0 ∧ bits w 29 3 = 0 then some (.mand (fld w 17 5) (fld w 12 5) (fld w 7 5))
  else if bits w 22 4 = 1 ∧ bits w 26 3 = 0 ∧ bits w 29 3 = 0 then some (.mor (fld w 17 5) (fld w 12 5) (fld w 7 5))
  else if bits w 22 4 = 2 ∧ bits w 26 3 = 0 ∧ bits w 29 3 = 0 then some (.mxor (fld w 17 5) (fld w 12 5) (fld w 7 5))
  else if bits w 17 3 = 0 ∧ bits w 20 2 = 0 ∧ bits w 22 4 = 3 ∧ bits w 26 3 = 0 ∧ bits w 29 3 = 0 then some (.mnot (fld w 12 5) (fld w 7 5))
  else if bits w 17 3 = 0 ∧ bits w 20 2 = 0 ∧ bits w 22 4 = 4 ∧ bits w 26 3 = 0 then some (.mpop (fld w 29 3) (fld w 12 5) (fld w 7 5))
  else none

/-- Major 0x2B: `VTYPE`. -/
def decodeMajor2B (w : Nat) : Option Instr :=
  if bits w 7 5 = 0 ∧ bits w 12 5 = 0 ∧ bits w 17 3 = 0 ∧ bits w 20 2 = 0 ∧ bits w 22 4 = 0 ∧ bits w 26 3 = 0 then some (.vtype (fld w 29 3))
  else none

/-- Major 0x30: matrix (R305). -/
def decodeMajor30 (w : Nat) : Option Instr :=
  if bits w 9 3 = 0 ∧ bits w 22 3 = 0 ∧ bits w 29 3 = 0 then some (.mma (fld w 25 4) (fld w 17 5) (fld w 12 5) (fld w 7 2))
  else if bits w 9 3 = 0 ∧ bits w 22 3 = 1 ∧ bits w 29 3 = 0 then some (.mmag (fld w 25 4) (fld w 17 5) (fld w 12 5) (fld w 7 2))
  else if bits w 9 3 = 0 ∧ bits w 12 5 = 0 ∧ bits w 17 5 = 0 ∧ bits w 22 3 = 2 ∧ bits w 25 7 = 0 then some (.mzero (fld w 7 2))
  else if bits w 17 5 = 0 ∧ bits w 22 3 = 3 ∧ bits w 25 7 = 0 then some (.mldb (fld w 12 5) (fld w 7 5))
  else if bits w 22 3 = 4 then some (.mdrn (fld w 25 7) (fld w 17 5) (fld w 12 5) (fld w 9 3) (fld w 7 2))
  else if bits w 9 3 = 0 ∧ bits w 17 5 = 0 ∧ bits w 22 3 = 5 ∧ bits w 25 7 = 0 then some (.mcfg (fld w 12 5) (fld w 7 2))
  else none

/-- Major 0x31: copy engine and barrier objects (R305). -/
def decodeMajor31 (w : Nat) : Option Instr :=
  if bits w 7 2 = 0 ∧ bits w 9 3 = 0 ∧ bits w 17 5 = 0 ∧ bits w 22 3 = 0 then some (.ecopy (fld w 25 7) (fld w 12 5))
  else if bits w 7 2 = 0 ∧ bits w 9 3 = 0 ∧ bits w 22 3 = 1 ∧ bits w 25 7 = 0 then some (.barinit (fld w 17 5) (fld w 12 5))
  else if bits w 7 2 = 0 ∧ bits w 9 3 = 0 ∧ bits w 22 3 = 2 ∧ bits w 25 7 = 0 then some (.baradd (fld w 17 5) (fld w 12 5))
  else none

/-- Major 0x32: clustering bank (R305). -/
def decodeMajor32 (w : Nat) : Option Instr :=
  if bits w 7 2 = 0 ∧ bits w 9 3 = 0 ∧ bits w 22 3 = 0 then some (.cabcfg (fld w 25 7) (fld w 17 5) (fld w 12 5))
  else if bits w 22 3 = 1 ∧ bits w 28 4 = 0 then some (.cabpush (fld w 25 3) (fld w 17 5) (fld w 12 5) (fld w 7 5))
  else if bits w 17 5 = 0 ∧ bits w 22 3 = 2 ∧ bits w 25 7 = 0 then some (.cabmrg (fld w 12 5) (fld w 7 5))
  else if bits w 22 3 = 3 ∧ bits w 25 7 = 0 then some (.cabrd (fld w 17 5) (fld w 12 5) (fld w 7 5))
  else if bits w 7 2 = 0 ∧ bits w 9 3 = 0 ∧ bits w 22 3 = 4 then some (.cabdrn (fld w 25 7) (fld w 17 5) (fld w 12 5))
  else if bits w 7 2 = 0 ∧ bits w 9 3 = 0 ∧ bits w 17 5 = 0 ∧ bits w 22 3 = 5 ∧ bits w 25 7 = 0 then some (.cabclr (fld w 12 5))
  else none

/-- Major 0x33: selector (R305). -/
def decodeMajor33 (w : Nat) : Option Instr :=
  if bits w 7 2 = 0 ∧ bits w 9 3 = 0 ∧ bits w 17 5 = 0 ∧ bits w 22 3 = 0 then some (.scan (fld w 25 7) (fld w 12 5))
  else none

/-- Major 0x38: atomics and lock operations (R307). -/
def decodeMajor38 (w : Nat) : Option Instr :=
  if bits w 28 4 = 0 then some (.amoAdd (fld w 27 1) (fld w 26 1) (fld w 22 4) (fld w 17 5) (fld w 12 5) (fld w 7 5))
  else if bits w 28 4 = 1 then some (.amoAnd (fld w 27 1) (fld w 26 1) (fld w 22 4) (fld w 17 5) (fld w 12 5) (fld w 7 5))
  else if bits w 28 4 = 2 then some (.amoOr (fld w 27 1) (fld w 26 1) (fld w 22 4) (fld w 17 5) (fld w 12 5) (fld w 7 5))
  else if bits w 28 4 = 3 then some (.amoXor (fld w 27 1) (fld w 26 1) (fld w 22 4) (fld w 17 5) (fld w 12 5) (fld w 7 5))
  else if bits w 28 4 = 4 then some (.amoMin (fld w 27 1) (fld w 26 1) (fld w 22 4) (fld w 17 5) (fld w 12 5) (fld w 7 5))
  else if bits w 28 4 = 5 then some (.amoMax (fld w 27 1) (fld w 26 1) (fld w 22 4) (fld w 17 5) (fld w 12 5) (fld w 7 5))
  else if bits w 28 4 = 6 then some (.amoMinn (fld w 27 1) (fld w 26 1) (fld w 22 4) (fld w 17 5) (fld w 12 5) (fld w 7 5))
  else if bits w 28 4 = 7 then some (.amoMaxn (fld w 27 1) (fld w 26 1) (fld w 22 4) (fld w 17 5) (fld w 12 5) (fld w 7 5))
  else if bits w 28 4 = 8 then some (.amoSwap (fld w 27 1) (fld w 26 1) (fld w 22 4) (fld w 17 5) (fld w 12 5) (fld w 7 5))
  else if bits w 28 4 = 9 then some (.cas (fld w 27 1) (fld w 26 1) (fld w 22 4) (fld w 17 5) (fld w 12 5) (fld w 7 5))
  else if bits w 17 5 = 0 ∧ bits w 22 4 = 0 ∧ bits w 27 1 = 0 ∧ bits w 28 4 = 10 then some (.ldlk (fld w 26 1) (fld w 12 5) (fld w 7 5))
  else if bits w 7 5 = 0 ∧ bits w 22 4 = 0 ∧ bits w 27 1 = 0 ∧ bits w 28 4 = 11 then some (.stul (fld w 26 1) (fld w 17 5) (fld w 12 5))
  else none

/-- Major 0x39: ordering operations (R308). -/
def decodeMajor39 (w : Nat) : Option Instr :=
  if bits w 17 5 = 0 ∧ bits w 27 1 = 0 ∧ bits w 28 4 = 0 then some (.acq (fld w 26 1) (fld w 22 4) (fld w 12 5) (fld w 7 5))
  else if bits w 7 5 = 0 ∧ bits w 27 1 = 0 ∧ bits w 28 4 = 1 then some (.rel (fld w 26 1) (fld w 22 4) (fld w 17 5) (fld w 12 5))
  else if bits w 17 5 = 0 ∧ bits w 27 1 = 0 ∧ bits w 28 4 = 2 then some (.scld (fld w 26 1) (fld w 22 4) (fld w 12 5) (fld w 7 5))
  else if bits w 7 5 = 0 ∧ bits w 27 1 = 0 ∧ bits w 28 4 = 3 then some (.scst (fld w 26 1) (fld w 22 4) (fld w 17 5) (fld w 12 5))
  else if bits w 7 5 = 0 ∧ bits w 12 5 = 0 ∧ bits w 17 5 = 0 ∧ bits w 26 1 = 0 ∧ bits w 27 1 = 0 ∧ bits w 28 4 = 4 then some (.fence (fld w 22 4))
  else if bits w 7 5 = 0 ∧ bits w 26 1 = 0 ∧ bits w 27 1 = 0 ∧ bits w 28 4 = 5 then some (.fenceP (fld w 22 4) (fld w 17 5) (fld w 12 5))
  else if bits w 7 5 = 0 ∧ bits w 12 5 = 0 ∧ bits w 17 5 = 0 ∧ bits w 22 4 = 0 ∧ bits w 26 1 = 0 ∧ bits w 27 1 = 0 ∧ bits w 28 4 = 6 then some (.cmt)
  else if bits w 7 5 = 0 ∧ bits w 12 5 = 0 ∧ bits w 17 5 = 0 ∧ bits w 22 4 = 0 ∧ bits w 26 1 = 0 ∧ bits w 27 1 = 0 ∧ bits w 28 4 = 7 then some (.trig)
  else none

/-- Major 0x3A: `WAIT` (R309). -/
def decodeMajor3A (w : Nat) : Option Instr :=
  if bits w 17 5 = 0 ∧ bits w 27 3 = 0 ∧ bits w 30 1 = 0 ∧ bits w 31 1 = 0 then some (.waitList (fld w 26 1) (fld w 22 4) (fld w 12 5) (fld w 7 5))
  else if bits w 17 5 = 0 ∧ bits w 27 3 = 1 ∧ bits w 30 1 = 0 ∧ bits w 31 1 = 0 then some (.waitBar (fld w 26 1) (fld w 22 4) (fld w 12 5) (fld w 7 5))
  else if bits w 27 3 = 2 ∧ bits w 30 1 = 0 ∧ bits w 31 1 = 0 then some (.waitPipe (fld w 26 1) (fld w 22 4) (fld w 17 5) (fld w 12 5) (fld w 7 5))
  else if bits w 17 5 = 0 ∧ bits w 27 3 = 3 ∧ bits w 30 1 = 0 ∧ bits w 31 1 = 0 then some (.waitJoin (fld w 26 1) (fld w 22 4) (fld w 12 5) (fld w 7 5))
  else if bits w 12 5 = 0 ∧ bits w 17 5 = 0 ∧ bits w 27 3 = 4 ∧ bits w 30 1 = 0 ∧ bits w 31 1 = 0 then some (.waitEvq (fld w 26 1) (fld w 22 4) (fld w 7 5))
  else if bits w 12 5 = 0 ∧ bits w 17 5 = 0 ∧ bits w 27 3 = 5 ∧ bits w 30 1 = 0 ∧ bits w 31 1 = 0 then some (.waitNotice (fld w 26 1) (fld w 22 4) (fld w 7 5))
  else if bits w 12 5 = 0 ∧ bits w 17 5 = 0 ∧ bits w 27 3 = 6 ∧ bits w 30 1 = 0 ∧ bits w 31 1 = 0 then some (.waitProd (fld w 26 1) (fld w 22 4) (fld w 7 5))
  else if bits w 30 1 = 1 then some (.waitMem (fld w 31 1) (fld w 27 3) (fld w 26 1) (fld w 22 4) (fld w 17 5) (fld w 12 5) (fld w 7 5))
  else none

/-- Major 0x3B: messages, tasks, pipes and roles (R310). -/
def decodeMajor3B (w : Nat) : Option Instr :=
  if bits w 17 5 = 0 ∧ bits w 26 2 = 0 ∧ bits w 28 4 = 0 then some (.send (fld w 22 4) (fld w 12 5) (fld w 7 5))
  else if bits w 11 1 = 0 ∧ bits w 17 5 = 0 ∧ bits w 22 4 = 0 ∧ bits w 26 2 = 0 ∧ bits w 28 4 = 1 then some (.htag (fld w 12 5) (fld w 7 4))
  else if bits w 7 4 = 0 ∧ bits w 11 1 = 0 ∧ bits w 17 5 = 0 ∧ bits w 22 4 = 0 ∧ bits w 26 2 = 0 ∧ bits w 28 4 = 2 then some (.spawn (fld w 12 5))
  else if bits w 7 4 = 0 ∧ bits w 11 1 = 0 ∧ bits w 17 5 = 0 ∧ bits w 26 2 = 0 ∧ bits w 28 4 = 3 then some (.join (fld w 22 4) (fld w 12 5))
  else if bits w 17 5 = 0 ∧ bits w 26 2 = 0 ∧ bits w 28 4 = 4 then some (.launch (fld w 22 4) (fld w 12 5) (fld w 7 5))
  else if bits w 17 5 = 0 ∧ bits w 22 4 = 0 ∧ bits w 26 2 = 0 ∧ bits w 28 4 = 5 then some (.wid (fld w 12 5) (fld w 7 5))
  else if bits w 17 5 = 0 ∧ bits w 22 4 = 0 ∧ bits w 26 2 = 0 ∧ bits w 28 4 = 6 then some (.ppush (fld w 12 5) (fld w 7 5))
  else if bits w 17 5 = 0 ∧ bits w 22 4 = 0 ∧ bits w 26 2 = 0 ∧ bits w 28 4 = 7 then some (.ppop (fld w 12 5) (fld w 7 5))
  else if bits w 17 5 = 0 ∧ bits w 22 4 = 0 ∧ bits w 26 2 = 0 ∧ bits w 28 4 = 8 then some (.ppeek (fld w 12 5) (fld w 7 5))
  else if bits w 17 5 = 0 ∧ bits w 22 4 = 0 ∧ bits w 26 2 = 0 ∧ bits w 28 4 = 9 then some (.migr (fld w 12 5) (fld w 7 5))
  else if bits w 22 4 = 0 ∧ bits w 27 1 = 0 ∧ bits w 28 4 = 10 then some (.lease (fld w 26 1) (fld w 17 5) (fld w 12 5) (fld w 7 5))
  else if bits w 17 5 = 0 ∧ bits w 22 4 = 0 ∧ bits w 27 1 = 0 ∧ bits w 28 4 = 11 then some (.unlease (fld w 26 1) (fld w 12 5) (fld w 7 5))
  else if bits w 17 5 = 0 ∧ bits w 22 4 = 0 ∧ bits w 28 4 = 12 then some (.role (fld w 26 2) (fld w 12 5) (fld w 7 5))
  else if bits w 17 5 = 0 ∧ bits w 22 4 = 0 ∧ bits w 26 2 = 0 ∧ bits w 28 4 = 13 then some (.nack (fld w 12 5) (fld w 7 5))
  else if bits w 17 5 = 0 ∧ bits w 22 4 = 0 ∧ bits w 26 2 = 0 ∧ bits w 28 4 = 14 then some (.boost (fld w 12 5) (fld w 7 5))
  else none

/-- Major 0x3C: control registers (R311, R312). -/
def decodeMajor3C (w : Nat) : Option Instr :=
  if bits w 12 5 = 0 ∧ bits w 17 12 = 19 ∧ bits w 29 3 = 0 then some (.crrEvq (fld w 7 5))
  else if bits w 12 5 = 0 ∧ bits w 29 3 = 0 then some (.crr (fld w 17 12) (fld w 7 5))
  else if bits w 7 5 = 0 ∧ bits w 29 3 = 1 then some (.crw (fld w 17 12) (fld w 12 5))
  else none

/-- Major 0x3D: traps and returns (R311). -/
def decodeMajor3D (w : Nat) : Option Instr :=
  if bits w 7 5 = 0 ∧ bits w 12 5 = 0 ∧ bits w 29 3 = 0 then some (.trap (fld w 17 12))
  else if bits w 7 5 = 0 ∧ bits w 12 5 = 0 ∧ bits w 29 3 = 1 then some (.sysc (fld w 17 12))
  else if bits w 7 5 = 0 ∧ bits w 12 5 = 0 ∧ bits w 29 3 = 2 then some (.bkpt (fld w 17 12))
  else if bits w 7 5 = 0 ∧ bits w 12 5 = 0 ∧ bits w 17 12 = 0 ∧ bits w 29 3 = 3 then some (.eret)
  else if bits w 7 5 = 0 ∧ bits w 12 5 = 0 ∧ bits w 17 12 = 0 ∧ bits w 29 3 = 4 then some (.tack)
  else none

/-- Major 0x3E: translation (R311). -/
def decodeMajor3E (w : Nat) : Option Instr :=
  if bits w 7 5 = 0 ∧ bits w 22 4 = 0 ∧ bits w 26 6 = 0 then some (.tlbw (fld w 17 5) (fld w 12 5))
  else if bits w 7 5 = 0 ∧ bits w 17 5 = 0 ∧ bits w 26 6 = 1 then some (.tlbi (fld w 22 4) (fld w 12 5))
  else none

/-- Major 0x3F: `PFX` (R306). -/
def decodeMajor3F (w : Nat) : Option Instr :=
  if bits w 20 12 = 0 then some (.pfx (fld w 15 5) (fld w 13 2) (fld w 10 3) (fld w 7 3))
  else none

/-- The 32-bit formats, by major opcode (R294, R299). -/
def decode32 (w : Nat) : Except DecodeError Instr :=
  match bits w 1 6 with
  | 0x00 => (decodeMajor00 w).elim (.error .reservedField) .ok
  | 0x01 => (decodeMajor01 w).elim (.error .reservedField) .ok
  | 0x02 => (decodeMajor02 w).elim (.error .reservedField) .ok
  | 0x03 => (decodeMajor03 w).elim (.error .reservedField) .ok
  | 0x10 => (decodeMajor10 w).elim (.error .reservedField) .ok
  | 0x11 => (decodeMajor11 w).elim (.error .reservedField) .ok
  | 0x12 => (decodeMajor12 w).elim (.error .reservedField) .ok
  | 0x13 => (decodeMajor13 w).elim (.error .reservedField) .ok
  | 0x14 => (decodeMajor14 w).elim (.error .reservedField) .ok
  | 0x15 => (decodeMajor15 w).elim (.error .reservedField) .ok
  | 0x16 => (decodeMajor16 w).elim (.error .reservedField) .ok
  | 0x17 => (decodeMajor17 w).elim (.error .reservedField) .ok
  | 0x18 => (decodeMajor18 w).elim (.error .reservedField) .ok
  | 0x19 => (decodeMajor19 w).elim (.error .reservedField) .ok
  | 0x1A => (decodeMajor1A w).elim (.error .reservedField) .ok
  | 0x1B => (decodeMajor1B w).elim (.error .reservedField) .ok
  | 0x1E => (decodeMajor1E w).elim (.error .reservedField) .ok
  | 0x1F => (decodeMajor1F w).elim (.error .reservedField) .ok
  | 0x20 => (decodeMajor20 w).elim (.error .reservedField) .ok
  | 0x21 => (decodeMajor21 w).elim (.error .reservedField) .ok
  | 0x22 => (decodeMajor22 w).elim (.error .reservedField) .ok
  | 0x23 => (decodeMajor23 w).elim (.error .reservedField) .ok
  | 0x24 => (decodeMajor24 w).elim (.error .reservedField) .ok
  | 0x25 => (decodeMajor25 w).elim (.error .reservedField) .ok
  | 0x26 => (decodeMajor26 w).elim (.error .reservedField) .ok
  | 0x27 => (decodeMajor27 w).elim (.error .reservedField) .ok
  | 0x28 => (decodeMajor28 w).elim (.error .reservedField) .ok
  | 0x29 => (decodeMajor29 w).elim (.error .reservedField) .ok
  | 0x2A => (decodeMajor2A w).elim (.error .reservedField) .ok
  | 0x2B => (decodeMajor2B w).elim (.error .reservedField) .ok
  | 0x30 => (decodeMajor30 w).elim (.error .reservedField) .ok
  | 0x31 => (decodeMajor31 w).elim (.error .reservedField) .ok
  | 0x32 => (decodeMajor32 w).elim (.error .reservedField) .ok
  | 0x33 => (decodeMajor33 w).elim (.error .reservedField) .ok
  | 0x38 => (decodeMajor38 w).elim (.error .reservedField) .ok
  | 0x39 => (decodeMajor39 w).elim (.error .reservedField) .ok
  | 0x3A => (decodeMajor3A w).elim (.error .reservedField) .ok
  | 0x3B => (decodeMajor3B w).elim (.error .reservedField) .ok
  | 0x3C => (decodeMajor3C w).elim (.error .reservedField) .ok
  | 0x3D => (decodeMajor3D w).elim (.error .reservedField) .ok
  | 0x3E => (decodeMajor3E w).elim (.error .reservedField) .ok
  | 0x3F => (decodeMajor3F w).elim (.error .reservedField) .ok
  | _ => .error .reservedMajor

/-- The instruction at the head of a run of code bytes, and its length in bytes (R291).  Halfwords are little-endian. -/
def decode : List Byte → Except DecodeError (Instr × Nat)
  | b0 :: b1 :: rest =>
    let h := b0.toNat + 256 * b1.toNat
    if h % 2 = 0 then .ok (decodeHalf h, 2)
    else match rest with
      | b2 :: b3 :: _ => (decode32 (h + 65536 * (b2.toNat + 256 * b3.toNat))).map (fun i => (i, 4))
      | _ => .error .truncated
  | _ => .error .truncated

/-- The bytes of a word as code lies in memory: little-endian, the first halfword at the lowest address (R9, R291). -/
def wordBytes (n w : Nat) : List Byte := (List.range n).map (fun i => BitVec.ofNat 8 (w / 2 ^ (8 * i)))

/-- The decoder's reading of an instruction whose bits are `w` (bits above `nbits` zero). -/
def decodeTableWord (nbits w : Nat) : Option Instr :=
  match decode (wordBytes 4 (w % 2 ^ nbits)) with
  | .ok (i, _) => some i
  | .error _ => none

/-- An instruction's length in bytes; an event has none (R291). -/
def Instr.length : Instr → Nat
  | .add _ _ _ _ _ _ => 4
  | .sub _ _ _ _ _ _ => 4
  | .and _ _ _ _ _ _ => 4
  | .or _ _ _ _ _ _ => 4
  | .xor _ _ _ _ _ _ => 4
  | .andn _ _ _ _ _ _ => 4
  | .shl _ _ _ _ _ _ => 4
  | .shr _ _ _ _ _ _ => 4
  | .sra _ _ _ _ _ _ => 4
  | .mul _ _ _ _ _ _ => 4
  | .mulh _ _ _ _ _ _ => 4
  | .mulhn _ _ _ _ _ _ => 4
  | .div _ _ _ _ _ _ => 4
  | .divn _ _ _ _ _ _ => 4
  | .rem _ _ _ _ _ _ => 4
  | .remn _ _ _ _ _ _ => 4
  | .min _ _ _ _ _ _ => 4
  | .max _ _ _ _ _ _ => 4
  | .minn _ _ _ _ _ _ => 4
  | .maxn _ _ _ _ _ _ => 4
  | .slt _ _ _ _ _ _ => 4
  | .sltn _ _ _ _ _ _ => 4
  | .seq _ _ _ _ _ _ => 4
  | .csel _ _ _ _ _ => 4
  | .clz _ _ _ _ => 4
  | .ctz _ _ _ _ => 4
  | .popc _ _ _ _ => 4
  | .sext _ _ _ _ _ => 4
  | .zext _ _ _ _ _ => 4
  | .addi _ _ _ => 4
  | .andi _ _ _ => 4
  | .ori _ _ _ => 4
  | .xori _ _ _ => 4
  | .shli _ _ _ => 4
  | .shri _ _ _ => 4
  | .srai _ _ _ => 4
  | .slti _ _ _ => 4
  | .lui _ _ => 4
  | .addpc _ _ => 4
  | .ld _ _ _ _ => 4
  | .st _ _ _ _ => 4
  | .ldx _ _ _ _ _ _ _ => 4
  | .stx _ _ _ _ _ _ _ => 4
  | .pref _ _ => 4
  | .alloc _ _ _ => 4
  | .free _ _ => 4
  | .beq _ _ _ _ => 4
  | .bne _ _ _ _ => 4
  | .blt _ _ _ _ => 4
  | .bge _ _ _ _ => 4
  | .bltn _ _ _ _ => 4
  | .bgen _ _ _ _ => 4
  | .loop _ _ _ => 4
  | .jal _ _ => 4
  | .jalr _ _ _ => 4
  | .realign _ => 4
  | .fin => 4
  | .nop => 4
  | .vadd16 _ _ _ => 2
  | .vsub16 _ _ _ => 2
  | .vrsub16 _ _ _ => 2
  | .vmul16 _ _ _ => 2
  | .vmin16 _ _ _ => 2
  | .vmax16 _ _ _ => 2
  | .vand16 _ _ _ => 2
  | .vor16 _ _ _ => 2
  | .vxor16 _ _ _ => 2
  | .vmov16 _ _ _ => 2
  | .vabs16 _ _ _ => 2
  | .vneg16 _ _ _ => 2
  | .vshl16 _ _ _ => 2
  | .vshr16 _ _ _ => 2
  | .vsra16 _ _ _ => 2
  | .vfmak16 _ _ _ => 2
  | .vadd32 _ _ _ _ _ => 4
  | .vsub32 _ _ _ _ _ => 4
  | .vrsub32 _ _ _ _ _ => 4
  | .vmul32 _ _ _ _ _ => 4
  | .vmin32 _ _ _ _ _ => 4
  | .vmax32 _ _ _ _ _ => 4
  | .vand32 _ _ _ _ _ => 4
  | .vor32 _ _ _ _ _ => 4
  | .vxor32 _ _ _ _ _ => 4
  | .vmov32 _ _ _ _ => 4
  | .vabs32 _ _ _ _ => 4
  | .vneg32 _ _ _ _ => 4
  | .vshl32 _ _ _ _ _ => 4
  | .vshr32 _ _ _ _ _ => 4
  | .vsra32 _ _ _ _ _ => 4
  | .vfmak32 _ _ _ _ _ => 4
  | .vfma _ _ _ _ _ _ => 4
  | .vfms _ _ _ _ _ _ => 4
  | .vfnma _ _ _ _ _ _ => 4
  | .vcmp _ _ _ _ _ _ => 4
  | .vnot _ _ _ _ => 4
  | .vexp2 _ _ _ _ => 4
  | .vlog2 _ _ _ _ => 4
  | .vrcp _ _ _ _ => 4
  | .vrsq _ _ _ _ => 4
  | .viota _ _ _ => 4
  | .vcvt _ _ _ _ _ => 4
  | .vsel _ _ _ _ _ => 4
  | .vperm _ _ _ _ _ => 4
  | .vslideUp _ _ _ _ _ => 4
  | .vslideDn _ _ _ _ _ => 4
  | .vcompress _ _ _ _ => 4
  | .vadds _ _ _ _ _ => 4
  | .vscanpAdd _ _ _ _ => 4
  | .vscanpMin _ _ _ _ => 4
  | .vscanpMax _ _ _ _ => 4
  | .vredAdd _ _ _ _ _ => 4
  | .vredMin _ _ _ _ _ => 4
  | .vredMax _ _ _ _ _ => 4
  | .vredAnd _ _ _ _ _ => 4
  | .vredOr _ _ _ _ _ => 4
  | .vredXor _ _ _ _ _ => 4
  | .vdot _ _ _ _ _ _ => 4
  | .vbcast _ _ _ => 4
  | .vins _ _ _ _ => 4
  | .vext _ _ _ _ => 4
  | .unpkT5 _ _ _ => 4
  | .unpkI8 _ _ _ => 4
  | .unpkN8 _ _ _ => 4
  | .unpkI4 _ _ _ => 4
  | .unpkN4 _ _ _ => 4
  | .mand _ _ _ => 4
  | .mor _ _ _ => 4
  | .mxor _ _ _ => 4
  | .mnot _ _ => 4
  | .mpop _ _ _ => 4
  | .vtype _ => 4
  | .vld _ _ _ _ _ => 4
  | .vst _ _ _ _ _ => 4
  | .vlds _ _ _ _ _ => 4
  | .vsts _ _ _ _ _ => 4
  | .vgath _ _ _ _ _ => 4
  | .vscat _ _ _ _ _ => 4
  | .vldIndexed _ _ _ _ _ => 4
  | .vstIndexed _ _ _ _ _ => 4
  | .mma _ _ _ _ => 4
  | .mmag _ _ _ _ => 4
  | .mzero _ => 4
  | .mldb _ _ => 4
  | .mdrn _ _ _ _ _ => 4
  | .mcfg _ _ => 4
  | .pfx _ _ _ _ => 4
  | .ecopy _ _ => 4
  | .barinit _ _ => 4
  | .baradd _ _ => 4
  | .cabcfg _ _ _ => 4
  | .cabpush _ _ _ _ => 4
  | .cabmrg _ _ => 4
  | .cabrd _ _ _ => 4
  | .cabdrn _ _ _ => 4
  | .cabclr _ => 4
  | .scan _ _ => 4
  | .amoAdd _ _ _ _ _ _ => 4
  | .amoAnd _ _ _ _ _ _ => 4
  | .amoOr _ _ _ _ _ _ => 4
  | .amoXor _ _ _ _ _ _ => 4
  | .amoMin _ _ _ _ _ _ => 4
  | .amoMax _ _ _ _ _ _ => 4
  | .amoMinn _ _ _ _ _ _ => 4
  | .amoMaxn _ _ _ _ _ _ => 4
  | .amoSwap _ _ _ _ _ _ => 4
  | .cas _ _ _ _ _ _ => 4
  | .ldlk _ _ _ => 4
  | .stul _ _ _ => 4
  | .acq _ _ _ _ => 4
  | .rel _ _ _ _ => 4
  | .scld _ _ _ _ => 4
  | .scst _ _ _ _ => 4
  | .fence _ => 4
  | .fenceP _ _ _ => 4
  | .cmt => 4
  | .trig => 4
  | .waitList _ _ _ _ => 4
  | .waitBar _ _ _ _ => 4
  | .waitPipe _ _ _ _ _ => 4
  | .waitJoin _ _ _ _ => 4
  | .waitEvq _ _ _ => 4
  | .waitNotice _ _ _ => 4
  | .waitProd _ _ _ => 4
  | .waitMem _ _ _ _ _ _ _ => 4
  | .send _ _ _ => 4
  | .htag _ _ => 4
  | .spawn _ => 4
  | .join _ _ => 4
  | .launch _ _ _ => 4
  | .wid _ _ => 4
  | .ppush _ _ => 4
  | .ppop _ _ => 4
  | .ppeek _ _ => 4
  | .migr _ _ => 4
  | .lease _ _ _ _ => 4
  | .unlease _ _ _ => 4
  | .role _ _ _ => 4
  | .nack _ _ => 4
  | .boost _ _ => 4
  | .crr _ _ => 4
  | .crrEvq _ => 4
  | .crw _ _ => 4
  | .trap _ => 4
  | .sysc _ => 4
  | .bkpt _ => 4
  | .eret => 4
  | .tack => 4
  | .tlbw _ _ => 4
  | .tlbi _ _ => 4
  | .powerUp => 0
  | .bootGo => 0
  | .chanterBoot => 0
  | .droneReady => 0
  | .hostAccess => 0
  | .registerWrite => 0
  | .doorbell => 0
  | .completionDoorbell => 0
  | .qcplWrite => 0
  | .launchEnqueueResume => 0
  | .launchAdmission => 0
  | .rackLaunch => 0
  | .residencyReport => 0
  | .dispatch => 0
  | .pipeActorFire => 0
  | .priorityAge => 0
  | .fitStarvation => 0
  | .migrationComplete => 0
  | .forwardingExpire => 0
  | .pageResident => 0
  | .quotaDecline => 0
  | .tlbMiss => 0
  | .regionTimeCommit => 0
  | .intervalTimeClose => 0
  | .loadDataReturn => 0
  | .postedLineAtHome => 0
  | .storeAck => 0
  | .checkedAccessAtHome => 0
  | .lockGrant => 0
  | .pageMigration => 0
  | .panpipeDelivery => 0
  | .roleMapAck => 0
  | .staleRequestReturn => 0
  | .injectionSend => 0
  | .messageDelivery => 0
  | .handlerCreate => 0
  | .recordPass => 0
  | .firingRetire => 0
  | .subtileRelease => 0
  | .launchComplete => 0
  | .completionJoinResume => 0
  | .launchEndWrite => 0
  | .waitConditionMet => 0
  | .waitTimeout => 0
  | .realignTimeout => 0
  | .censusSample => 0
  | .recastProposal => 0
  | .recastDeadline => 0
  | .storageCopyDone => 0
  | .computeRecastRebind => 0
  | .recastFinish => 0
  | .leaseExpire => 0
  | .matrixGrant => 0
  | .matrixCommandDone => 0
  | .copyChainStart => 0
  | .scanChainStart => 0
  | .chainCopy => 0
  | .chainMcast => 0
  | .chainDeal => 0
  | .chainLoop => 0
  | .chainIfz => 0
  | .chainIfnz => 0
  | .chainSignal => 0
  | .chainEnd => 0
  | .chainSel => 0
  | .mcastLineArrival => 0
  | .scanPart => 0
  | .scanMerge => 0
  | .cabArrival => 0
  | .budgetDivision => 0
  | .allocationEffect => 0
  | .peakCapReached => 0
  | .voltageStep => 0
  | .boostExpire => 0
  | .regulatorTimeout => 0
  | .trapDelivery => 0
  | .trapEscalation => 0
  | .journalRetry => 0
  | .journalDiscard => 0
  | .freezeStart => 0
  | .rackFreeze => 0
  | .freezeTargetTimeout => 0
  | .freezeComplete => 0
  | .freezeResume => 0
  | .resumeComplete => 0
  | .attest => 0
  | .identity => 0
  | .release => 0
  | .ceilings => 0
  | .powerOff => 0
  | .ualinkTargetRequest => 0
  | .softError => 0

/-- A run of bits of known length. -/
abbrev Chunk := (n : Nat) × BitVec n

/-- A word from its runs of bits, the lowest first. -/
def pack : List Chunk → Nat
  | [] => 0
  | c :: rest => c.2.toNat + 2 ^ c.1 * pack rest

/-- The word of an instruction (R292 to R311); an event has none, and is given 0.  Each row lists the word's
fields and fixed bits from bit 0 up. -/
def encode : Instr → Nat
  | .add z y x b a d => pack [⟨1, 1⟩, ⟨6, 0⟩, ⟨5, d⟩, ⟨5, a⟩, ⟨5, b⟩, ⟨1, x⟩, ⟨1, y⟩, ⟨1, z⟩, ⟨2, 0⟩, ⟨5, 0⟩]
  | .sub z y x b a d => pack [⟨1, 1⟩, ⟨6, 0⟩, ⟨5, d⟩, ⟨5, a⟩, ⟨5, b⟩, ⟨1, x⟩, ⟨1, y⟩, ⟨1, z⟩, ⟨2, 0⟩, ⟨5, 1⟩]
  | .and z y x b a d => pack [⟨1, 1⟩, ⟨6, 0⟩, ⟨5, d⟩, ⟨5, a⟩, ⟨5, b⟩, ⟨1, x⟩, ⟨1, y⟩, ⟨1, z⟩, ⟨2, 0⟩, ⟨5, 2⟩]
  | .or z y x b a d => pack [⟨1, 1⟩, ⟨6, 0⟩, ⟨5, d⟩, ⟨5, a⟩, ⟨5, b⟩, ⟨1, x⟩, ⟨1, y⟩, ⟨1, z⟩, ⟨2, 0⟩, ⟨5, 3⟩]
  | .xor z y x b a d => pack [⟨1, 1⟩, ⟨6, 0⟩, ⟨5, d⟩, ⟨5, a⟩, ⟨5, b⟩, ⟨1, x⟩, ⟨1, y⟩, ⟨1, z⟩, ⟨2, 0⟩, ⟨5, 4⟩]
  | .andn z y x b a d => pack [⟨1, 1⟩, ⟨6, 0⟩, ⟨5, d⟩, ⟨5, a⟩, ⟨5, b⟩, ⟨1, x⟩, ⟨1, y⟩, ⟨1, z⟩, ⟨2, 0⟩, ⟨5, 5⟩]
  | .shl z y x b a d => pack [⟨1, 1⟩, ⟨6, 0⟩, ⟨5, d⟩, ⟨5, a⟩, ⟨5, b⟩, ⟨1, x⟩, ⟨1, y⟩, ⟨1, z⟩, ⟨2, 0⟩, ⟨5, 6⟩]
  | .shr z y x b a d => pack [⟨1, 1⟩, ⟨6, 0⟩, ⟨5, d⟩, ⟨5, a⟩, ⟨5, b⟩, ⟨1, x⟩, ⟨1, y⟩, ⟨1, z⟩, ⟨2, 0⟩, ⟨5, 7⟩]
  | .sra z y x b a d => pack [⟨1, 1⟩, ⟨6, 0⟩, ⟨5, d⟩, ⟨5, a⟩, ⟨5, b⟩, ⟨1, x⟩, ⟨1, y⟩, ⟨1, z⟩, ⟨2, 0⟩, ⟨5, 8⟩]
  | .mul z y x b a d => pack [⟨1, 1⟩, ⟨6, 0⟩, ⟨5, d⟩, ⟨5, a⟩, ⟨5, b⟩, ⟨1, x⟩, ⟨1, y⟩, ⟨1, z⟩, ⟨2, 0⟩, ⟨5, 9⟩]
  | .mulh z y x b a d => pack [⟨1, 1⟩, ⟨6, 0⟩, ⟨5, d⟩, ⟨5, a⟩, ⟨5, b⟩, ⟨1, x⟩, ⟨1, y⟩, ⟨1, z⟩, ⟨2, 0⟩, ⟨5, 10⟩]
  | .mulhn z y x b a d => pack [⟨1, 1⟩, ⟨6, 0⟩, ⟨5, d⟩, ⟨5, a⟩, ⟨5, b⟩, ⟨1, x⟩, ⟨1, y⟩, ⟨1, z⟩, ⟨2, 0⟩, ⟨5, 11⟩]
  | .div z y x b a d => pack [⟨1, 1⟩, ⟨6, 0⟩, ⟨5, d⟩, ⟨5, a⟩, ⟨5, b⟩, ⟨1, x⟩, ⟨1, y⟩, ⟨1, z⟩, ⟨2, 0⟩, ⟨5, 12⟩]
  | .divn z y x b a d => pack [⟨1, 1⟩, ⟨6, 0⟩, ⟨5, d⟩, ⟨5, a⟩, ⟨5, b⟩, ⟨1, x⟩, ⟨1, y⟩, ⟨1, z⟩, ⟨2, 0⟩, ⟨5, 13⟩]
  | .rem z y x b a d => pack [⟨1, 1⟩, ⟨6, 0⟩, ⟨5, d⟩, ⟨5, a⟩, ⟨5, b⟩, ⟨1, x⟩, ⟨1, y⟩, ⟨1, z⟩, ⟨2, 0⟩, ⟨5, 14⟩]
  | .remn z y x b a d => pack [⟨1, 1⟩, ⟨6, 0⟩, ⟨5, d⟩, ⟨5, a⟩, ⟨5, b⟩, ⟨1, x⟩, ⟨1, y⟩, ⟨1, z⟩, ⟨2, 0⟩, ⟨5, 15⟩]
  | .min z y x b a d => pack [⟨1, 1⟩, ⟨6, 0⟩, ⟨5, d⟩, ⟨5, a⟩, ⟨5, b⟩, ⟨1, x⟩, ⟨1, y⟩, ⟨1, z⟩, ⟨2, 0⟩, ⟨5, 16⟩]
  | .max z y x b a d => pack [⟨1, 1⟩, ⟨6, 0⟩, ⟨5, d⟩, ⟨5, a⟩, ⟨5, b⟩, ⟨1, x⟩, ⟨1, y⟩, ⟨1, z⟩, ⟨2, 0⟩, ⟨5, 17⟩]
  | .minn z y x b a d => pack [⟨1, 1⟩, ⟨6, 0⟩, ⟨5, d⟩, ⟨5, a⟩, ⟨5, b⟩, ⟨1, x⟩, ⟨1, y⟩, ⟨1, z⟩, ⟨2, 0⟩, ⟨5, 18⟩]
  | .maxn z y x b a d => pack [⟨1, 1⟩, ⟨6, 0⟩, ⟨5, d⟩, ⟨5, a⟩, ⟨5, b⟩, ⟨1, x⟩, ⟨1, y⟩, ⟨1, z⟩, ⟨2, 0⟩, ⟨5, 19⟩]
  | .slt z y x b a d => pack [⟨1, 1⟩, ⟨6, 0⟩, ⟨5, d⟩, ⟨5, a⟩, ⟨5, b⟩, ⟨1, x⟩, ⟨1, y⟩, ⟨1, z⟩, ⟨2, 0⟩, ⟨5, 20⟩]
  | .sltn z y x b a d => pack [⟨1, 1⟩, ⟨6, 0⟩, ⟨5, d⟩, ⟨5, a⟩, ⟨5, b⟩, ⟨1, x⟩, ⟨1, y⟩, ⟨1, z⟩, ⟨2, 0⟩, ⟨5, 21⟩]
  | .seq z y x b a d => pack [⟨1, 1⟩, ⟨6, 0⟩, ⟨5, d⟩, ⟨5, a⟩, ⟨5, b⟩, ⟨1, x⟩, ⟨1, y⟩, ⟨1, z⟩, ⟨2, 0⟩, ⟨5, 22⟩]
  | .csel z y b a d => pack [⟨1, 1⟩, ⟨6, 0⟩, ⟨5, d⟩, ⟨5, a⟩, ⟨5, b⟩, ⟨1, 0⟩, ⟨1, y⟩, ⟨1, z⟩, ⟨2, 0⟩, ⟨5, 23⟩]
  | .clz y x a d => pack [⟨1, 1⟩, ⟨6, 0⟩, ⟨5, d⟩, ⟨5, a⟩, ⟨5, 0⟩, ⟨1, x⟩, ⟨1, y⟩, ⟨1, 0⟩, ⟨2, 0⟩, ⟨5, 24⟩]
  | .ctz y x a d => pack [⟨1, 1⟩, ⟨6, 0⟩, ⟨5, d⟩, ⟨5, a⟩, ⟨5, 0⟩, ⟨1, x⟩, ⟨1, y⟩, ⟨1, 0⟩, ⟨2, 0⟩, ⟨5, 25⟩]
  | .popc y x a d => pack [⟨1, 1⟩, ⟨6, 0⟩, ⟨5, d⟩, ⟨5, a⟩, ⟨5, 0⟩, ⟨1, x⟩, ⟨1, y⟩, ⟨1, 0⟩, ⟨2, 0⟩, ⟨5, 26⟩]
  | .sext w y x a d => pack [⟨1, 1⟩, ⟨6, 0⟩, ⟨5, d⟩, ⟨5, a⟩, ⟨5, 0⟩, ⟨1, x⟩, ⟨1, y⟩, ⟨1, 0⟩, ⟨2, w⟩, ⟨5, 27⟩]
  | .zext w y x a d => pack [⟨1, 1⟩, ⟨6, 0⟩, ⟨5, d⟩, ⟨5, a⟩, ⟨5, 0⟩, ⟨1, x⟩, ⟨1, y⟩, ⟨1, 0⟩, ⟨2, w⟩, ⟨5, 28⟩]
  | .addi i a d => pack [⟨1, 1⟩, ⟨6, 1⟩, ⟨5, d⟩, ⟨5, a⟩, ⟨12, i⟩, ⟨3, 0⟩]
  | .andi i a d => pack [⟨1, 1⟩, ⟨6, 1⟩, ⟨5, d⟩, ⟨5, a⟩, ⟨12, i⟩, ⟨3, 1⟩]
  | .ori i a d => pack [⟨1, 1⟩, ⟨6, 1⟩, ⟨5, d⟩, ⟨5, a⟩, ⟨12, i⟩, ⟨3, 2⟩]
  | .xori i a d => pack [⟨1, 1⟩, ⟨6, 1⟩, ⟨5, d⟩, ⟨5, a⟩, ⟨12, i⟩, ⟨3, 3⟩]
  | .shli i a d => pack [⟨1, 1⟩, ⟨6, 1⟩, ⟨5, d⟩, ⟨5, a⟩, ⟨12, i⟩, ⟨3, 4⟩]
  | .shri i a d => pack [⟨1, 1⟩, ⟨6, 1⟩, ⟨5, d⟩, ⟨5, a⟩, ⟨12, i⟩, ⟨3, 5⟩]
  | .srai i a d => pack [⟨1, 1⟩, ⟨6, 1⟩, ⟨5, d⟩, ⟨5, a⟩, ⟨12, i⟩, ⟨3, 6⟩]
  | .slti i a d => pack [⟨1, 1⟩, ⟨6, 1⟩, ⟨5, d⟩, ⟨5, a⟩, ⟨12, i⟩, ⟨3, 7⟩]
  | .lui i d => pack [⟨1, 1⟩, ⟨6, 2⟩, ⟨5, d⟩, ⟨20, i⟩]
  | .addpc i d => pack [⟨1, 1⟩, ⟨6, 3⟩, ⟨5, d⟩, ⟨20, i⟩]
  | .ld s i a d => pack [⟨1, 1⟩, ⟨6, 16⟩, ⟨5, d⟩, ⟨5, a⟩, ⟨12, i⟩, ⟨3, s⟩]
  | .st s i a c => pack [⟨1, 1⟩, ⟨6, 17⟩, ⟨5, c⟩, ⟨5, a⟩, ⟨12, i⟩, ⟨2, s⟩, ⟨1, 0⟩]
  | .ldx s z y x b a d => pack [⟨1, 1⟩, ⟨6, 18⟩, ⟨5, d⟩, ⟨5, a⟩, ⟨5, b⟩, ⟨1, x⟩, ⟨1, y⟩, ⟨1, z⟩, ⟨2, 0⟩, ⟨3, s⟩, ⟨2, 0⟩]
  | .stx s z y x b a c => pack [⟨1, 1⟩, ⟨6, 18⟩, ⟨5, c⟩, ⟨5, a⟩, ⟨5, b⟩, ⟨1, x⟩, ⟨1, y⟩, ⟨1, z⟩, ⟨2, 0⟩, ⟨2, s⟩, ⟨1, 0⟩, ⟨2, 1⟩]
  | .pref i a => pack [⟨1, 1⟩, ⟨6, 19⟩, ⟨5, 0⟩, ⟨5, a⟩, ⟨12, i⟩, ⟨3, 0⟩]
  | .alloc t a d => pack [⟨1, 1⟩, ⟨6, 20⟩, ⟨5, d⟩, ⟨5, a⟩, ⟨12, t⟩, ⟨3, 0⟩]
  | .free a d => pack [⟨1, 1⟩, ⟨6, 20⟩, ⟨5, d⟩, ⟨5, a⟩, ⟨12, 0⟩, ⟨3, 1⟩]
  | .beq h i b a => pack [⟨1, 1⟩, ⟨6, 24⟩, ⟨5, a⟩, ⟨5, b⟩, ⟨3, 0⟩, ⟨11, i⟩, ⟨1, h⟩]
  | .bne h i b a => pack [⟨1, 1⟩, ⟨6, 24⟩, ⟨5, a⟩, ⟨5, b⟩, ⟨3, 1⟩, ⟨11, i⟩, ⟨1, h⟩]
  | .blt h i b a => pack [⟨1, 1⟩, ⟨6, 24⟩, ⟨5, a⟩, ⟨5, b⟩, ⟨3, 2⟩, ⟨11, i⟩, ⟨1, h⟩]
  | .bge h i b a => pack [⟨1, 1⟩, ⟨6, 24⟩, ⟨5, a⟩, ⟨5, b⟩, ⟨3, 3⟩, ⟨11, i⟩, ⟨1, h⟩]
  | .bltn h i b a => pack [⟨1, 1⟩, ⟨6, 24⟩, ⟨5, a⟩, ⟨5, b⟩, ⟨3, 4⟩, ⟨11, i⟩, ⟨1, h⟩]
  | .bgen h i b a => pack [⟨1, 1⟩, ⟨6, 24⟩, ⟨5, a⟩, ⟨5, b⟩, ⟨3, 5⟩, ⟨11, i⟩, ⟨1, h⟩]
  | .loop h i a => pack [⟨1, 1⟩, ⟨6, 24⟩, ⟨5, a⟩, ⟨5, 0⟩, ⟨3, 6⟩, ⟨11, i⟩, ⟨1, h⟩]
  | .jal i d => pack [⟨1, 1⟩, ⟨6, 25⟩, ⟨5, d⟩, ⟨20, i⟩]
  | .jalr i a d => pack [⟨1, 1⟩, ⟨6, 26⟩, ⟨5, d⟩, ⟨5, a⟩, ⟨12, i⟩, ⟨3, 0⟩]
  | .realign n => pack [⟨1, 1⟩, ⟨6, 27⟩, ⟨5, 0⟩, ⟨5, 0⟩, ⟨12, n⟩, ⟨3, 0⟩]
  | .fin => pack [⟨1, 1⟩, ⟨6, 30⟩, ⟨5, 0⟩, ⟨5, 0⟩, ⟨3, 0⟩, ⟨2, 0⟩, ⟨4, 0⟩, ⟨3, 0⟩, ⟨3, 0⟩]
  | .nop => pack [⟨1, 1⟩, ⟨6, 31⟩, ⟨5, 0⟩, ⟨5, 0⟩, ⟨3, 0⟩, ⟨2, 0⟩, ⟨4, 0⟩, ⟨3, 0⟩, ⟨3, 0⟩]
  | .vadd16 m s d => pack [⟨1, 0⟩, ⟨4, 0⟩, ⟨4, d⟩, ⟨4, s⟩, ⟨3, m⟩]
  | .vsub16 m s d => pack [⟨1, 0⟩, ⟨4, 1⟩, ⟨4, d⟩, ⟨4, s⟩, ⟨3, m⟩]
  | .vrsub16 m s d => pack [⟨1, 0⟩, ⟨4, 2⟩, ⟨4, d⟩, ⟨4, s⟩, ⟨3, m⟩]
  | .vmul16 m s d => pack [⟨1, 0⟩, ⟨4, 3⟩, ⟨4, d⟩, ⟨4, s⟩, ⟨3, m⟩]
  | .vmin16 m s d => pack [⟨1, 0⟩, ⟨4, 4⟩, ⟨4, d⟩, ⟨4, s⟩, ⟨3, m⟩]
  | .vmax16 m s d => pack [⟨1, 0⟩, ⟨4, 5⟩, ⟨4, d⟩, ⟨4, s⟩, ⟨3, m⟩]
  | .vand16 m s d => pack [⟨1, 0⟩, ⟨4, 6⟩, ⟨4, d⟩, ⟨4, s⟩, ⟨3, m⟩]
  | .vor16 m s d => pack [⟨1, 0⟩, ⟨4, 7⟩, ⟨4, d⟩, ⟨4, s⟩, ⟨3, m⟩]
  | .vxor16 m s d => pack [⟨1, 0⟩, ⟨4, 8⟩, ⟨4, d⟩, ⟨4, s⟩, ⟨3, m⟩]
  | .vmov16 m s d => pack [⟨1, 0⟩, ⟨4, 9⟩, ⟨4, d⟩, ⟨4, s⟩, ⟨3, m⟩]
  | .vabs16 m s d => pack [⟨1, 0⟩, ⟨4, 10⟩, ⟨4, d⟩, ⟨4, s⟩, ⟨3, m⟩]
  | .vneg16 m s d => pack [⟨1, 0⟩, ⟨4, 11⟩, ⟨4, d⟩, ⟨4, s⟩, ⟨3, m⟩]
  | .vshl16 m s d => pack [⟨1, 0⟩, ⟨4, 12⟩, ⟨4, d⟩, ⟨4, s⟩, ⟨3, m⟩]
  | .vshr16 m s d => pack [⟨1, 0⟩, ⟨4, 13⟩, ⟨4, d⟩, ⟨4, s⟩, ⟨3, m⟩]
  | .vsra16 m s d => pack [⟨1, 0⟩, ⟨4, 14⟩, ⟨4, d⟩, ⟨4, s⟩, ⟨3, m⟩]
  | .vfmak16 m s d => pack [⟨1, 0⟩, ⟨4, 15⟩, ⟨4, d⟩, ⟨4, s⟩, ⟨3, m⟩]
  | .vadd32 t m b a d => pack [⟨1, 1⟩, ⟨6, 32⟩, ⟨5, d⟩, ⟨5, a⟩, ⟨5, b⟩, ⟨4, 0⟩, ⟨3, m⟩, ⟨3, t⟩]
  | .vsub32 t m b a d => pack [⟨1, 1⟩, ⟨6, 32⟩, ⟨5, d⟩, ⟨5, a⟩, ⟨5, b⟩, ⟨4, 1⟩, ⟨3, m⟩, ⟨3, t⟩]
  | .vrsub32 t m b a d => pack [⟨1, 1⟩, ⟨6, 32⟩, ⟨5, d⟩, ⟨5, a⟩, ⟨5, b⟩, ⟨4, 2⟩, ⟨3, m⟩, ⟨3, t⟩]
  | .vmul32 t m b a d => pack [⟨1, 1⟩, ⟨6, 32⟩, ⟨5, d⟩, ⟨5, a⟩, ⟨5, b⟩, ⟨4, 3⟩, ⟨3, m⟩, ⟨3, t⟩]
  | .vmin32 t m b a d => pack [⟨1, 1⟩, ⟨6, 32⟩, ⟨5, d⟩, ⟨5, a⟩, ⟨5, b⟩, ⟨4, 4⟩, ⟨3, m⟩, ⟨3, t⟩]
  | .vmax32 t m b a d => pack [⟨1, 1⟩, ⟨6, 32⟩, ⟨5, d⟩, ⟨5, a⟩, ⟨5, b⟩, ⟨4, 5⟩, ⟨3, m⟩, ⟨3, t⟩]
  | .vand32 t m b a d => pack [⟨1, 1⟩, ⟨6, 32⟩, ⟨5, d⟩, ⟨5, a⟩, ⟨5, b⟩, ⟨4, 6⟩, ⟨3, m⟩, ⟨3, t⟩]
  | .vor32 t m b a d => pack [⟨1, 1⟩, ⟨6, 32⟩, ⟨5, d⟩, ⟨5, a⟩, ⟨5, b⟩, ⟨4, 7⟩, ⟨3, m⟩, ⟨3, t⟩]
  | .vxor32 t m b a d => pack [⟨1, 1⟩, ⟨6, 32⟩, ⟨5, d⟩, ⟨5, a⟩, ⟨5, b⟩, ⟨4, 8⟩, ⟨3, m⟩, ⟨3, t⟩]
  | .vmov32 t m a d => pack [⟨1, 1⟩, ⟨6, 32⟩, ⟨5, d⟩, ⟨5, a⟩, ⟨3, 0⟩, ⟨2, 0⟩, ⟨4, 9⟩, ⟨3, m⟩, ⟨3, t⟩]
  | .vabs32 t m a d => pack [⟨1, 1⟩, ⟨6, 32⟩, ⟨5, d⟩, ⟨5, a⟩, ⟨3, 0⟩, ⟨2, 0⟩, ⟨4, 10⟩, ⟨3, m⟩, ⟨3, t⟩]
  | .vneg32 t m a d => pack [⟨1, 1⟩, ⟨6, 32⟩, ⟨5, d⟩, ⟨5, a⟩, ⟨3, 0⟩, ⟨2, 0⟩, ⟨4, 11⟩, ⟨3, m⟩, ⟨3, t⟩]
  | .vshl32 t m b a d => pack [⟨1, 1⟩, ⟨6, 32⟩, ⟨5, d⟩, ⟨5, a⟩, ⟨5, b⟩, ⟨4, 12⟩, ⟨3, m⟩, ⟨3, t⟩]
  | .vshr32 t m b a d => pack [⟨1, 1⟩, ⟨6, 32⟩, ⟨5, d⟩, ⟨5, a⟩, ⟨5, b⟩, ⟨4, 13⟩, ⟨3, m⟩, ⟨3, t⟩]
  | .vsra32 t m b a d => pack [⟨1, 1⟩, ⟨6, 32⟩, ⟨5, d⟩, ⟨5, a⟩, ⟨5, b⟩, ⟨4, 14⟩, ⟨3, m⟩, ⟨3, t⟩]
  | .vfmak32 t m b a d => pack [⟨1, 1⟩, ⟨6, 32⟩, ⟨5, d⟩, ⟨5, a⟩, ⟨5, b⟩, ⟨4, 15⟩, ⟨3, m⟩, ⟨3, t⟩]
  | .vfma t m c b a d => pack [⟨1, 1⟩, ⟨6, 33⟩, ⟨5, d⟩, ⟨5, a⟩, ⟨5, b⟩, ⟨4, c⟩, ⟨3, m⟩, ⟨3, t⟩]
  | .vfms t m c b a d => pack [⟨1, 1⟩, ⟨6, 34⟩, ⟨5, d⟩, ⟨5, a⟩, ⟨5, b⟩, ⟨4, c⟩, ⟨3, m⟩, ⟨3, t⟩]
  | .vfnma t m c b a d => pack [⟨1, 1⟩, ⟨6, 35⟩, ⟨5, d⟩, ⟨5, a⟩, ⟨5, b⟩, ⟨4, c⟩, ⟨3, m⟩, ⟨3, t⟩]
  | .vcmp t m c b a d => pack [⟨1, 1⟩, ⟨6, 36⟩, ⟨5, d⟩, ⟨5, a⟩, ⟨5, b⟩, ⟨4, c⟩, ⟨3, m⟩, ⟨3, t⟩]
  | .vnot t m a d => pack [⟨1, 1⟩, ⟨6, 37⟩, ⟨5, d⟩, ⟨5, a⟩, ⟨3, 0⟩, ⟨2, 0⟩, ⟨4, 0⟩, ⟨3, m⟩, ⟨3, t⟩]
  | .vexp2 t m a d => pack [⟨1, 1⟩, ⟨6, 37⟩, ⟨5, d⟩, ⟨5, a⟩, ⟨3, 0⟩, ⟨2, 0⟩, ⟨4, 1⟩, ⟨3, m⟩, ⟨3, t⟩]
  | .vlog2 t m a d => pack [⟨1, 1⟩, ⟨6, 37⟩, ⟨5, d⟩, ⟨5, a⟩, ⟨3, 0⟩, ⟨2, 0⟩, ⟨4, 2⟩, ⟨3, m⟩, ⟨3, t⟩]
  | .vrcp t m a d => pack [⟨1, 1⟩, ⟨6, 37⟩, ⟨5, d⟩, ⟨5, a⟩, ⟨3, 0⟩, ⟨2, 0⟩, ⟨4, 3⟩, ⟨3, m⟩, ⟨3, t⟩]
  | .vrsq t m a d => pack [⟨1, 1⟩, ⟨6, 37⟩, ⟨5, d⟩, ⟨5, a⟩, ⟨3, 0⟩, ⟨2, 0⟩, ⟨4, 4⟩, ⟨3, m⟩, ⟨3, t⟩]
  | .viota t m d => pack [⟨1, 1⟩, ⟨6, 37⟩, ⟨5, d⟩, ⟨5, 0⟩, ⟨3, 0⟩, ⟨2, 0⟩, ⟨4, 5⟩, ⟨3, m⟩, ⟨3, t⟩]
  | .vcvt t m s a d => pack [⟨1, 1⟩, ⟨6, 37⟩, ⟨5, d⟩, ⟨5, a⟩, ⟨3, s⟩, ⟨2, 0⟩, ⟨4, 6⟩, ⟨3, m⟩, ⟨3, t⟩]
  | .vsel t m b a d => pack [⟨1, 1⟩, ⟨6, 38⟩, ⟨5, d⟩, ⟨5, a⟩, ⟨5, b⟩, ⟨4, 0⟩, ⟨3, m⟩, ⟨3, t⟩]
  | .vperm t m b a d => pack [⟨1, 1⟩, ⟨6, 38⟩, ⟨5, d⟩, ⟨5, a⟩, ⟨5, b⟩, ⟨4, 1⟩, ⟨3, m⟩, ⟨3, t⟩]
  | .vslideUp t m b a d => pack [⟨1, 1⟩, ⟨6, 38⟩, ⟨5, d⟩, ⟨5, a⟩, ⟨5, b⟩, ⟨4, 2⟩, ⟨3, m⟩, ⟨3, t⟩]
  | .vslideDn t m b a d => pack [⟨1, 1⟩, ⟨6, 38⟩, ⟨5, d⟩, ⟨5, a⟩, ⟨5, b⟩, ⟨4, 3⟩, ⟨3, m⟩, ⟨3, t⟩]
  | .vcompress t m a d => pack [⟨1, 1⟩, ⟨6, 38⟩, ⟨5, d⟩, ⟨5, a⟩, ⟨3, 0⟩, ⟨2, 0⟩, ⟨4, 4⟩, ⟨3, m⟩, ⟨3, t⟩]
  | .vadds t m b a d => pack [⟨1, 1⟩, ⟨6, 38⟩, ⟨5, d⟩, ⟨5, a⟩, ⟨5, b⟩, ⟨4, 5⟩, ⟨3, m⟩, ⟨3, t⟩]
  | .vscanpAdd t m a d => pack [⟨1, 1⟩, ⟨6, 38⟩, ⟨5, d⟩, ⟨5, a⟩, ⟨3, 0⟩, ⟨2, 0⟩, ⟨4, 6⟩, ⟨3, m⟩, ⟨3, t⟩]
  | .vscanpMin t m a d => pack [⟨1, 1⟩, ⟨6, 38⟩, ⟨5, d⟩, ⟨5, a⟩, ⟨3, 0⟩, ⟨2, 0⟩, ⟨4, 7⟩, ⟨3, m⟩, ⟨3, t⟩]
  | .vscanpMax t m a d => pack [⟨1, 1⟩, ⟨6, 38⟩, ⟨5, d⟩, ⟨5, a⟩, ⟨3, 0⟩, ⟨2, 0⟩, ⟨4, 8⟩, ⟨3, m⟩, ⟨3, t⟩]
  | .vredAdd t m q a d => pack [⟨1, 1⟩, ⟨6, 39⟩, ⟨5, d⟩, ⟨5, a⟩, ⟨5, 0⟩, ⟨3, 0⟩, ⟨1, q⟩, ⟨3, m⟩, ⟨3, t⟩]
  | .vredMin t m q a d => pack [⟨1, 1⟩, ⟨6, 39⟩, ⟨5, d⟩, ⟨5, a⟩, ⟨5, 0⟩, ⟨3, 1⟩, ⟨1, q⟩, ⟨3, m⟩, ⟨3, t⟩]
  | .vredMax t m q a d => pack [⟨1, 1⟩, ⟨6, 39⟩, ⟨5, d⟩, ⟨5, a⟩, ⟨5, 0⟩, ⟨3, 2⟩, ⟨1, q⟩, ⟨3, m⟩, ⟨3, t⟩]
  | .vredAnd t m q a d => pack [⟨1, 1⟩, ⟨6, 39⟩, ⟨5, d⟩, ⟨5, a⟩, ⟨5, 0⟩, ⟨3, 3⟩, ⟨1, q⟩, ⟨3, m⟩, ⟨3, t⟩]
  | .vredOr t m q a d => pack [⟨1, 1⟩, ⟨6, 39⟩, ⟨5, d⟩, ⟨5, a⟩, ⟨5, 0⟩, ⟨3, 4⟩, ⟨1, q⟩, ⟨3, m⟩, ⟨3, t⟩]
  | .vredXor t m q a d => pack [⟨1, 1⟩, ⟨6, 39⟩, ⟨5, d⟩, ⟨5, a⟩, ⟨5, 0⟩, ⟨3, 5⟩, ⟨1, q⟩, ⟨3, m⟩, ⟨3, t⟩]
  | .vdot t m q b a d => pack [⟨1, 1⟩, ⟨6, 39⟩, ⟨5, d⟩, ⟨5, a⟩, ⟨5, b⟩, ⟨3, 6⟩, ⟨1, q⟩, ⟨3, m⟩, ⟨3, t⟩]
  | .vbcast t a d => pack [⟨1, 1⟩, ⟨6, 40⟩, ⟨5, d⟩, ⟨5, a⟩, ⟨3, 0⟩, ⟨2, 0⟩, ⟨4, 0⟩, ⟨3, 0⟩, ⟨3, t⟩]
  | .vins t b a d => pack [⟨1, 1⟩, ⟨6, 40⟩, ⟨5, d⟩, ⟨5, a⟩, ⟨5, b⟩, ⟨4, 1⟩, ⟨3, 0⟩, ⟨3, t⟩]
  | .vext t b a d => pack [⟨1, 1⟩, ⟨6, 40⟩, ⟨5, d⟩, ⟨5, a⟩, ⟨5, b⟩, ⟨4, 2⟩, ⟨3, 0⟩, ⟨3, t⟩]
  | .unpkT5 l a d => pack [⟨1, 1⟩, ⟨6, 41⟩, ⟨5, d⟩, ⟨5, a⟩, ⟨3, l⟩, ⟨2, 0⟩, ⟨4, 0⟩, ⟨3, 0⟩, ⟨3, 0⟩]
  | .unpkI8 l a d => pack [⟨1, 1⟩, ⟨6, 41⟩, ⟨5, d⟩, ⟨5, a⟩, ⟨3, l⟩, ⟨2, 0⟩, ⟨4, 1⟩, ⟨3, 0⟩, ⟨3, 0⟩]
  | .unpkN8 l a d => pack [⟨1, 1⟩, ⟨6, 41⟩, ⟨5, d⟩, ⟨5, a⟩, ⟨3, l⟩, ⟨2, 0⟩, ⟨4, 2⟩, ⟨3, 0⟩, ⟨3, 0⟩]
  | .unpkI4 l a d => pack [⟨1, 1⟩, ⟨6, 41⟩, ⟨5, d⟩, ⟨5, a⟩, ⟨3, l⟩, ⟨2, 0⟩, ⟨4, 3⟩, ⟨3, 0⟩, ⟨3, 0⟩]
  | .unpkN4 l a d => pack [⟨1, 1⟩, ⟨6, 41⟩, ⟨5, d⟩, ⟨5, a⟩, ⟨3, l⟩, ⟨2, 0⟩, ⟨4, 4⟩, ⟨3, 0⟩, ⟨3, 0⟩]
  | .mand b a d => pack [⟨1, 1⟩, ⟨6, 42⟩, ⟨5, d⟩, ⟨5, a⟩, ⟨5, b⟩, ⟨4, 0⟩, ⟨3, 0⟩, ⟨3, 0⟩]
  | .mor b a d => pack [⟨1, 1⟩, ⟨6, 42⟩, ⟨5, d⟩, ⟨5, a⟩, ⟨5, b⟩, ⟨4, 1⟩, ⟨3, 0⟩, ⟨3, 0⟩]
  | .mxor b a d => pack [⟨1, 1⟩, ⟨6, 42⟩, ⟨5, d⟩, ⟨5, a⟩, ⟨5, b⟩, ⟨4, 2⟩, ⟨3, 0⟩, ⟨3, 0⟩]
  | .mnot a d => pack [⟨1, 1⟩, ⟨6, 42⟩, ⟨5, d⟩, ⟨5, a⟩, ⟨3, 0⟩, ⟨2, 0⟩, ⟨4, 3⟩, ⟨3, 0⟩, ⟨3, 0⟩]
  | .mpop t a d => pack [⟨1, 1⟩, ⟨6, 42⟩, ⟨5, d⟩, ⟨5, a⟩, ⟨3, 0⟩, ⟨2, 0⟩, ⟨4, 4⟩, ⟨3, 0⟩, ⟨3, t⟩]
  | .vtype t => pack [⟨1, 1⟩, ⟨6, 43⟩, ⟨5, 0⟩, ⟨5, 0⟩, ⟨3, 0⟩, ⟨2, 0⟩, ⟨4, 0⟩, ⟨3, 0⟩, ⟨3, t⟩]
  | .vld t m i a d => pack [⟨1, 1⟩, ⟨6, 21⟩, ⟨5, d⟩, ⟨5, a⟩, ⟨9, i⟩, ⟨3, m⟩, ⟨3, t⟩]
  | .vst t m i a c => pack [⟨1, 1⟩, ⟨6, 22⟩, ⟨5, c⟩, ⟨5, a⟩, ⟨9, i⟩, ⟨3, m⟩, ⟨3, t⟩]
  | .vlds t m b a d => pack [⟨1, 1⟩, ⟨6, 23⟩, ⟨5, d⟩, ⟨5, a⟩, ⟨5, b⟩, ⟨4, 0⟩, ⟨3, m⟩, ⟨3, t⟩]
  | .vsts t m b a c => pack [⟨1, 1⟩, ⟨6, 23⟩, ⟨5, c⟩, ⟨5, a⟩, ⟨5, b⟩, ⟨4, 1⟩, ⟨3, m⟩, ⟨3, t⟩]
  | .vgath t m b a d => pack [⟨1, 1⟩, ⟨6, 23⟩, ⟨5, d⟩, ⟨5, a⟩, ⟨5, b⟩, ⟨4, 2⟩, ⟨3, m⟩, ⟨3, t⟩]
  | .vscat t m b a c => pack [⟨1, 1⟩, ⟨6, 23⟩, ⟨5, c⟩, ⟨5, a⟩, ⟨5, b⟩, ⟨4, 3⟩, ⟨3, m⟩, ⟨3, t⟩]
  | .vldIndexed t m b a d => pack [⟨1, 1⟩, ⟨6, 23⟩, ⟨5, d⟩, ⟨5, a⟩, ⟨5, b⟩, ⟨4, 4⟩, ⟨3, m⟩, ⟨3, t⟩]
  | .vstIndexed t m b a c => pack [⟨1, 1⟩, ⟨6, 23⟩, ⟨5, c⟩, ⟨5, a⟩, ⟨5, b⟩, ⟨4, 5⟩, ⟨3, m⟩, ⟨3, t⟩]
  | .mma n b a k => pack [⟨1, 1⟩, ⟨6, 48⟩, ⟨2, k⟩, ⟨3, 0⟩, ⟨5, a⟩, ⟨5, b⟩, ⟨3, 0⟩, ⟨4, n⟩, ⟨3, 0⟩]
  | .mmag n b g k => pack [⟨1, 1⟩, ⟨6, 48⟩, ⟨2, k⟩, ⟨3, 0⟩, ⟨5, g⟩, ⟨5, b⟩, ⟨3, 1⟩, ⟨4, n⟩, ⟨3, 0⟩]
  | .mzero k => pack [⟨1, 1⟩, ⟨6, 48⟩, ⟨2, k⟩, ⟨3, 0⟩, ⟨5, 0⟩, ⟨5, 0⟩, ⟨3, 2⟩, ⟨7, 0⟩]
  | .mldb a b => pack [⟨1, 1⟩, ⟨6, 48⟩, ⟨5, b⟩, ⟨5, a⟩, ⟨5, 0⟩, ⟨3, 3⟩, ⟨7, 0⟩]
  | .mdrn i c a f k => pack [⟨1, 1⟩, ⟨6, 48⟩, ⟨2, k⟩, ⟨3, f⟩, ⟨5, a⟩, ⟨5, c⟩, ⟨3, 4⟩, ⟨7, i⟩]
  | .mcfg a n => pack [⟨1, 1⟩, ⟨6, 48⟩, ⟨2, n⟩, ⟨3, 0⟩, ⟨5, a⟩, ⟨5, 0⟩, ⟨3, 5⟩, ⟨7, 0⟩]
  | .pfx q g b a => pack [⟨1, 1⟩, ⟨6, 63⟩, ⟨3, a⟩, ⟨3, b⟩, ⟨2, g⟩, ⟨5, q⟩, ⟨12, 0⟩]
  | .ecopy i a => pack [⟨1, 1⟩, ⟨6, 49⟩, ⟨2, 0⟩, ⟨3, 0⟩, ⟨5, a⟩, ⟨5, 0⟩, ⟨3, 0⟩, ⟨7, i⟩]
  | .barinit b a => pack [⟨1, 1⟩, ⟨6, 49⟩, ⟨2, 0⟩, ⟨3, 0⟩, ⟨5, a⟩, ⟨5, b⟩, ⟨3, 1⟩, ⟨7, 0⟩]
  | .baradd b a => pack [⟨1, 1⟩, ⟨6, 49⟩, ⟨2, 0⟩, ⟨3, 0⟩, ⟨5, a⟩, ⟨5, b⟩, ⟨3, 2⟩, ⟨7, 0⟩]
  | .cabcfg i c k => pack [⟨1, 1⟩, ⟨6, 50⟩, ⟨2, 0⟩, ⟨3, 0⟩, ⟨5, k⟩, ⟨5, c⟩, ⟨3, 0⟩, ⟨7, i⟩]
  | .cabpush m v k w => pack [⟨1, 1⟩, ⟨6, 50⟩, ⟨5, w⟩, ⟨5, k⟩, ⟨5, v⟩, ⟨3, 1⟩, ⟨3, m⟩, ⟨4, 0⟩]
  | .cabmrg k d => pack [⟨1, 1⟩, ⟨6, 50⟩, ⟨5, d⟩, ⟨5, k⟩, ⟨5, 0⟩, ⟨3, 2⟩, ⟨7, 0⟩]
  | .cabrd c k i => pack [⟨1, 1⟩, ⟨6, 50⟩, ⟨5, i⟩, ⟨5, k⟩, ⟨5, c⟩, ⟨3, 3⟩, ⟨7, 0⟩]
  | .cabdrn i c k => pack [⟨1, 1⟩, ⟨6, 50⟩, ⟨2, 0⟩, ⟨3, 0⟩, ⟨5, k⟩, ⟨5, c⟩, ⟨3, 4⟩, ⟨7, i⟩]
  | .cabclr k => pack [⟨1, 1⟩, ⟨6, 50⟩, ⟨2, 0⟩, ⟨3, 0⟩, ⟨5, k⟩, ⟨5, 0⟩, ⟨3, 5⟩, ⟨7, 0⟩]
  | .scan i a => pack [⟨1, 1⟩, ⟨6, 51⟩, ⟨2, 0⟩, ⟨3, 0⟩, ⟨5, a⟩, ⟨5, 0⟩, ⟨3, 0⟩, ⟨7, i⟩]
  | .amoAdd c z s b a d => pack [⟨1, 1⟩, ⟨6, 56⟩, ⟨5, d⟩, ⟨5, a⟩, ⟨5, b⟩, ⟨4, s⟩, ⟨1, z⟩, ⟨1, c⟩, ⟨4, 0⟩]
  | .amoAnd c z s b a d => pack [⟨1, 1⟩, ⟨6, 56⟩, ⟨5, d⟩, ⟨5, a⟩, ⟨5, b⟩, ⟨4, s⟩, ⟨1, z⟩, ⟨1, c⟩, ⟨4, 1⟩]
  | .amoOr c z s b a d => pack [⟨1, 1⟩, ⟨6, 56⟩, ⟨5, d⟩, ⟨5, a⟩, ⟨5, b⟩, ⟨4, s⟩, ⟨1, z⟩, ⟨1, c⟩, ⟨4, 2⟩]
  | .amoXor c z s b a d => pack [⟨1, 1⟩, ⟨6, 56⟩, ⟨5, d⟩, ⟨5, a⟩, ⟨5, b⟩, ⟨4, s⟩, ⟨1, z⟩, ⟨1, c⟩, ⟨4, 3⟩]
  | .amoMin c z s b a d => pack [⟨1, 1⟩, ⟨6, 56⟩, ⟨5, d⟩, ⟨5, a⟩, ⟨5, b⟩, ⟨4, s⟩, ⟨1, z⟩, ⟨1, c⟩, ⟨4, 4⟩]
  | .amoMax c z s b a d => pack [⟨1, 1⟩, ⟨6, 56⟩, ⟨5, d⟩, ⟨5, a⟩, ⟨5, b⟩, ⟨4, s⟩, ⟨1, z⟩, ⟨1, c⟩, ⟨4, 5⟩]
  | .amoMinn c z s b a d => pack [⟨1, 1⟩, ⟨6, 56⟩, ⟨5, d⟩, ⟨5, a⟩, ⟨5, b⟩, ⟨4, s⟩, ⟨1, z⟩, ⟨1, c⟩, ⟨4, 6⟩]
  | .amoMaxn c z s b a d => pack [⟨1, 1⟩, ⟨6, 56⟩, ⟨5, d⟩, ⟨5, a⟩, ⟨5, b⟩, ⟨4, s⟩, ⟨1, z⟩, ⟨1, c⟩, ⟨4, 7⟩]
  | .amoSwap c z s b a d => pack [⟨1, 1⟩, ⟨6, 56⟩, ⟨5, d⟩, ⟨5, a⟩, ⟨5, b⟩, ⟨4, s⟩, ⟨1, z⟩, ⟨1, c⟩, ⟨4, 8⟩]
  | .cas c z s b a d => pack [⟨1, 1⟩, ⟨6, 56⟩, ⟨5, d⟩, ⟨5, a⟩, ⟨5, b⟩, ⟨4, s⟩, ⟨1, z⟩, ⟨1, c⟩, ⟨4, 9⟩]
  | .ldlk z a d => pack [⟨1, 1⟩, ⟨6, 56⟩, ⟨5, d⟩, ⟨5, a⟩, ⟨5, 0⟩, ⟨4, 0⟩, ⟨1, z⟩, ⟨1, 0⟩, ⟨4, 10⟩]
  | .stul z b a => pack [⟨1, 1⟩, ⟨6, 56⟩, ⟨5, 0⟩, ⟨5, a⟩, ⟨5, b⟩, ⟨4, 0⟩, ⟨1, z⟩, ⟨1, 0⟩, ⟨4, 11⟩]
  | .acq z s a d => pack [⟨1, 1⟩, ⟨6, 57⟩, ⟨5, d⟩, ⟨5, a⟩, ⟨5, 0⟩, ⟨4, s⟩, ⟨1, z⟩, ⟨1, 0⟩, ⟨4, 0⟩]
  | .rel z s b a => pack [⟨1, 1⟩, ⟨6, 57⟩, ⟨5, 0⟩, ⟨5, a⟩, ⟨5, b⟩, ⟨4, s⟩, ⟨1, z⟩, ⟨1, 0⟩, ⟨4, 1⟩]
  | .scld z s a d => pack [⟨1, 1⟩, ⟨6, 57⟩, ⟨5, d⟩, ⟨5, a⟩, ⟨5, 0⟩, ⟨4, s⟩, ⟨1, z⟩, ⟨1, 0⟩, ⟨4, 2⟩]
  | .scst z s b a => pack [⟨1, 1⟩, ⟨6, 57⟩, ⟨5, 0⟩, ⟨5, a⟩, ⟨5, b⟩, ⟨4, s⟩, ⟨1, z⟩, ⟨1, 0⟩, ⟨4, 3⟩]
  | .fence s => pack [⟨1, 1⟩, ⟨6, 57⟩, ⟨5, 0⟩, ⟨5, 0⟩, ⟨5, 0⟩, ⟨4, s⟩, ⟨1, 0⟩, ⟨1, 0⟩, ⟨4, 4⟩]
  | .fenceP s q p => pack [⟨1, 1⟩, ⟨6, 57⟩, ⟨5, 0⟩, ⟨5, p⟩, ⟨5, q⟩, ⟨4, s⟩, ⟨1, 0⟩, ⟨1, 0⟩, ⟨4, 5⟩]
  | .cmt => pack [⟨1, 1⟩, ⟨6, 57⟩, ⟨5, 0⟩, ⟨5, 0⟩, ⟨5, 0⟩, ⟨4, 0⟩, ⟨1, 0⟩, ⟨1, 0⟩, ⟨4, 6⟩]
  | .trig => pack [⟨1, 1⟩, ⟨6, 57⟩, ⟨5, 0⟩, ⟨5, 0⟩, ⟨5, 0⟩, ⟨4, 0⟩, ⟨1, 0⟩, ⟨1, 0⟩, ⟨4, 7⟩]
  | .waitList c s a d => pack [⟨1, 1⟩, ⟨6, 58⟩, ⟨5, d⟩, ⟨5, a⟩, ⟨5, 0⟩, ⟨4, s⟩, ⟨1, c⟩, ⟨3, 0⟩, ⟨1, 0⟩, ⟨1, 0⟩]
  | .waitBar c s a d => pack [⟨1, 1⟩, ⟨6, 58⟩, ⟨5, d⟩, ⟨5, a⟩, ⟨5, 0⟩, ⟨4, s⟩, ⟨1, c⟩, ⟨3, 1⟩, ⟨1, 0⟩, ⟨1, 0⟩]
  | .waitPipe c s b a d => pack [⟨1, 1⟩, ⟨6, 58⟩, ⟨5, d⟩, ⟨5, a⟩, ⟨5, b⟩, ⟨4, s⟩, ⟨1, c⟩, ⟨3, 2⟩, ⟨1, 0⟩, ⟨1, 0⟩]
  | .waitJoin c s a d => pack [⟨1, 1⟩, ⟨6, 58⟩, ⟨5, d⟩, ⟨5, a⟩, ⟨5, 0⟩, ⟨4, s⟩, ⟨1, c⟩, ⟨3, 3⟩, ⟨1, 0⟩, ⟨1, 0⟩]
  | .waitEvq c s d => pack [⟨1, 1⟩, ⟨6, 58⟩, ⟨5, d⟩, ⟨5, 0⟩, ⟨5, 0⟩, ⟨4, s⟩, ⟨1, c⟩, ⟨3, 4⟩, ⟨1, 0⟩, ⟨1, 0⟩]
  | .waitNotice c s d => pack [⟨1, 1⟩, ⟨6, 58⟩, ⟨5, d⟩, ⟨5, 0⟩, ⟨5, 0⟩, ⟨4, s⟩, ⟨1, c⟩, ⟨3, 5⟩, ⟨1, 0⟩, ⟨1, 0⟩]
  | .waitProd c s d => pack [⟨1, 1⟩, ⟨6, 58⟩, ⟨5, d⟩, ⟨5, 0⟩, ⟨5, 0⟩, ⟨4, s⟩, ⟨1, c⟩, ⟨3, 6⟩, ⟨1, 0⟩, ⟨1, 0⟩]
  | .waitMem z o c s b a d => pack [⟨1, 1⟩, ⟨6, 58⟩, ⟨5, d⟩, ⟨5, a⟩, ⟨5, b⟩, ⟨4, s⟩, ⟨1, c⟩, ⟨3, o⟩, ⟨1, 1⟩, ⟨1, z⟩]
  | .send s a d => pack [⟨1, 1⟩, ⟨6, 59⟩, ⟨5, d⟩, ⟨5, a⟩, ⟨5, 0⟩, ⟨4, s⟩, ⟨2, 0⟩, ⟨4, 0⟩]
  | .htag a t => pack [⟨1, 1⟩, ⟨6, 59⟩, ⟨4, t⟩, ⟨1, 0⟩, ⟨5, a⟩, ⟨5, 0⟩, ⟨4, 0⟩, ⟨2, 0⟩, ⟨4, 1⟩]
  | .spawn a => pack [⟨1, 1⟩, ⟨6, 59⟩, ⟨4, 0⟩, ⟨1, 0⟩, ⟨5, a⟩, ⟨5, 0⟩, ⟨4, 0⟩, ⟨2, 0⟩, ⟨4, 2⟩]
  | .join s a => pack [⟨1, 1⟩, ⟨6, 59⟩, ⟨4, 0⟩, ⟨1, 0⟩, ⟨5, a⟩, ⟨5, 0⟩, ⟨4, s⟩, ⟨2, 0⟩, ⟨4, 3⟩]
  | .launch s a d => pack [⟨1, 1⟩, ⟨6, 59⟩, ⟨5, d⟩, ⟨5, a⟩, ⟨5, 0⟩, ⟨4, s⟩, ⟨2, 0⟩, ⟨4, 4⟩]
  | .wid i d => pack [⟨1, 1⟩, ⟨6, 59⟩, ⟨5, d⟩, ⟨5, i⟩, ⟨5, 0⟩, ⟨4, 0⟩, ⟨2, 0⟩, ⟨4, 5⟩]
  | .ppush a p => pack [⟨1, 1⟩, ⟨6, 59⟩, ⟨5, p⟩, ⟨5, a⟩, ⟨5, 0⟩, ⟨4, 0⟩, ⟨2, 0⟩, ⟨4, 6⟩]
  | .ppop a p => pack [⟨1, 1⟩, ⟨6, 59⟩, ⟨5, p⟩, ⟨5, a⟩, ⟨5, 0⟩, ⟨4, 0⟩, ⟨2, 0⟩, ⟨4, 7⟩]
  | .ppeek p d => pack [⟨1, 1⟩, ⟨6, 59⟩, ⟨5, d⟩, ⟨5, p⟩, ⟨5, 0⟩, ⟨4, 0⟩, ⟨2, 0⟩, ⟨4, 8⟩]
  | .migr a d => pack [⟨1, 1⟩, ⟨6, 59⟩, ⟨5, d⟩, ⟨5, a⟩, ⟨5, 0⟩, ⟨4, 0⟩, ⟨2, 0⟩, ⟨4, 9⟩]
  | .lease b c a d => pack [⟨1, 1⟩, ⟨6, 59⟩, ⟨5, d⟩, ⟨5, a⟩, ⟨5, c⟩, ⟨4, 0⟩, ⟨1, b⟩, ⟨1, 0⟩, ⟨4, 10⟩]
  | .unlease b a d => pack [⟨1, 1⟩, ⟨6, 59⟩, ⟨5, d⟩, ⟨5, a⟩, ⟨5, 0⟩, ⟨4, 0⟩, ⟨1, b⟩, ⟨1, 0⟩, ⟨4, 11⟩]
  | .role x a d => pack [⟨1, 1⟩, ⟨6, 59⟩, ⟨5, d⟩, ⟨5, a⟩, ⟨5, 0⟩, ⟨4, 0⟩, ⟨2, x⟩, ⟨4, 12⟩]
  | .nack a d => pack [⟨1, 1⟩, ⟨6, 59⟩, ⟨5, d⟩, ⟨5, a⟩, ⟨5, 0⟩, ⟨4, 0⟩, ⟨2, 0⟩, ⟨4, 13⟩]
  | .boost a d => pack [⟨1, 1⟩, ⟨6, 59⟩, ⟨5, d⟩, ⟨5, a⟩, ⟨5, 0⟩, ⟨4, 0⟩, ⟨2, 0⟩, ⟨4, 14⟩]
  | .crr r d => pack [⟨1, 1⟩, ⟨6, 60⟩, ⟨5, d⟩, ⟨5, 0⟩, ⟨12, r⟩, ⟨3, 0⟩]
  | .crrEvq d => pack [⟨1, 1⟩, ⟨6, 60⟩, ⟨5, d⟩, ⟨5, 0⟩, ⟨12, 19⟩, ⟨3, 0⟩]
  | .crw r a => pack [⟨1, 1⟩, ⟨6, 60⟩, ⟨5, 0⟩, ⟨5, a⟩, ⟨12, r⟩, ⟨3, 1⟩]
  | .trap n => pack [⟨1, 1⟩, ⟨6, 61⟩, ⟨5, 0⟩, ⟨5, 0⟩, ⟨12, n⟩, ⟨3, 0⟩]
  | .sysc n => pack [⟨1, 1⟩, ⟨6, 61⟩, ⟨5, 0⟩, ⟨5, 0⟩, ⟨12, n⟩, ⟨3, 1⟩]
  | .bkpt n => pack [⟨1, 1⟩, ⟨6, 61⟩, ⟨5, 0⟩, ⟨5, 0⟩, ⟨12, n⟩, ⟨3, 2⟩]
  | .eret => pack [⟨1, 1⟩, ⟨6, 61⟩, ⟨5, 0⟩, ⟨5, 0⟩, ⟨12, 0⟩, ⟨3, 3⟩]
  | .tack => pack [⟨1, 1⟩, ⟨6, 61⟩, ⟨5, 0⟩, ⟨5, 0⟩, ⟨12, 0⟩, ⟨3, 4⟩]
  | .tlbw b a => pack [⟨1, 1⟩, ⟨6, 62⟩, ⟨5, 0⟩, ⟨5, a⟩, ⟨5, b⟩, ⟨4, 0⟩, ⟨6, 0⟩]
  | .tlbi s a => pack [⟨1, 1⟩, ⟨6, 62⟩, ⟨5, 0⟩, ⟨5, a⟩, ⟨5, 0⟩, ⟨4, s⟩, ⟨6, 1⟩]
  | .powerUp => 0
  | .bootGo => 0
  | .chanterBoot => 0
  | .droneReady => 0
  | .hostAccess => 0
  | .registerWrite => 0
  | .doorbell => 0
  | .completionDoorbell => 0
  | .qcplWrite => 0
  | .launchEnqueueResume => 0
  | .launchAdmission => 0
  | .rackLaunch => 0
  | .residencyReport => 0
  | .dispatch => 0
  | .pipeActorFire => 0
  | .priorityAge => 0
  | .fitStarvation => 0
  | .migrationComplete => 0
  | .forwardingExpire => 0
  | .pageResident => 0
  | .quotaDecline => 0
  | .tlbMiss => 0
  | .regionTimeCommit => 0
  | .intervalTimeClose => 0
  | .loadDataReturn => 0
  | .postedLineAtHome => 0
  | .storeAck => 0
  | .checkedAccessAtHome => 0
  | .lockGrant => 0
  | .pageMigration => 0
  | .panpipeDelivery => 0
  | .roleMapAck => 0
  | .staleRequestReturn => 0
  | .injectionSend => 0
  | .messageDelivery => 0
  | .handlerCreate => 0
  | .recordPass => 0
  | .firingRetire => 0
  | .subtileRelease => 0
  | .launchComplete => 0
  | .completionJoinResume => 0
  | .launchEndWrite => 0
  | .waitConditionMet => 0
  | .waitTimeout => 0
  | .realignTimeout => 0
  | .censusSample => 0
  | .recastProposal => 0
  | .recastDeadline => 0
  | .storageCopyDone => 0
  | .computeRecastRebind => 0
  | .recastFinish => 0
  | .leaseExpire => 0
  | .matrixGrant => 0
  | .matrixCommandDone => 0
  | .copyChainStart => 0
  | .scanChainStart => 0
  | .chainCopy => 0
  | .chainMcast => 0
  | .chainDeal => 0
  | .chainLoop => 0
  | .chainIfz => 0
  | .chainIfnz => 0
  | .chainSignal => 0
  | .chainEnd => 0
  | .chainSel => 0
  | .mcastLineArrival => 0
  | .scanPart => 0
  | .scanMerge => 0
  | .cabArrival => 0
  | .budgetDivision => 0
  | .allocationEffect => 0
  | .peakCapReached => 0
  | .voltageStep => 0
  | .boostExpire => 0
  | .regulatorTimeout => 0
  | .trapDelivery => 0
  | .trapEscalation => 0
  | .journalRetry => 0
  | .journalDiscard => 0
  | .freezeStart => 0
  | .rackFreeze => 0
  | .freezeTargetTimeout => 0
  | .freezeComplete => 0
  | .freezeResume => 0
  | .resumeComplete => 0
  | .attest => 0
  | .identity => 0
  | .release => 0
  | .ceilings => 0
  | .powerOff => 0
  | .ualinkTargetRequest => 0
  | .softError => 0

/-- The bytes of an instruction as they lie in memory. -/
def encodeBytes (i : Instr) : List Byte := wordBytes i.length (encode i)

end Sys2Proof
end

