-- ==== Sys2Proof/Machine/Map.lean ====
section
/-! DEFINITION. Operations on sparse maps.  `wf` is the canonical form: keys strictly rising. -/

namespace Sys2Proof

/-- The value at a key, if listed. -/
def Map.get? {α : Type} : Map α → Nat → Option α
  | [], _ => none
  | (k', v) :: m, k => if k' = k then some v else Map.get? m k

/-- The value at a key, or what an unlisted key reads as. DESIGN CHOICE (1). -/
def Map.get {α : Type} (m : Map α) (k : Nat) (d : α) : α := (Map.get? m k).getD d

/-- Without a key. -/
def Map.erase {α : Type} : Map α → Nat → Map α
  | [], _ => []
  | (k', v) :: m, k => if k' = k then Map.erase m k else (k', v) :: Map.erase m k

/-- With a key listed in its place. -/
def Map.insert {α : Type} : Map α → Nat → α → Map α
  | [], k, v => [(k, v)]
  | (k', v') :: m, k, v =>
    if k' < k then (k', v') :: Map.insert m k v
    else if k' = k then (k, v) :: Map.erase m k
    else (k, v) :: Map.erase ((k', v') :: m) k

/-- With a value at a key, where an unlisted key reads as `d`: the canonical form is kept. -/
def Map.set {α : Type} [DecidableEq α] (m : Map α) (k : Nat) (v d : α) : Map α :=
  if v = d then Map.erase m k else Map.insert m k v

/-- Keys strictly rising. -/
def Map.rising {α : Type} : Map α → Bool
  | [] => true
  | [_] => true
  | (k, _) :: (k', v') :: m => decide (k < k') && Map.rising ((k', v') :: m)

/-- The canonical form: keys strictly rising and no entry equal to what an unlisted key reads as. -/
def Map.wf {α : Type} [DecidableEq α] (d : α) (m : Map α) : Bool :=
  Map.rising m && m.all (fun e => decide (e.2 ≠ d))

end Sys2Proof
end

