-- ==== Sys2Proof/Machine/State.lean ====
section
/-! DEFINITION. The state of the package: plain data, holding everything the manual gives the machine.

Whatever the package has many of is kept in a sparse `Map` or a list; what an unlisted key reads as is named by the
accessor in Machine/Ops.lean.  Fields that are the model's own and not the manual's say so (DESIGN CHOICE (11)).  A mark
with a number, as that one, names an entry of notes/assumptions. -/

namespace Sys2Proof.Machine

/-- Why the machine stops: it never does.  Every failure that the manual names ends in one of the reports of R448, and an
access to a physical address that does not exist is an exception of the core that makes it (R93, R453). -/
inductive Fault where
deriving DecidableEq, Repr

/-- Why an instruction or event is given no meaning. -/
inductive Refusal where
  /-- Raised only by a dispatch arm whose instruction has no meaning yet.  Safe. -/
  | notModelled (mnemonic : String)
  /-- Raised by an instruction that a system or hub core issues and whose effect the manual gives for firings only
  (tasks, engines, vectors, pipes, roles).  Safe: nothing goes on. -/
  | systemCoreForm
deriving DecidableEq, Repr

/-- A place of a queue: filled, or taken by an outstanding load (R289, R328). -/
inductive QEnt (α : Type) where
  | val (x : α)
  | due (id : Nat)
deriving DecidableEq, Repr

/-- The registers that a restart region shadows: `s`, `v`, `m`, the queues, `cr.status` and `cr.pfx` (R114). -/
structure Regs where
  s : Map Word := []
  v : Map Vec := []
  m : Map Word := []
  /-- `q0` to `q3`, by queue number, oldest entry first (R289). -/
  vq : Map (List (QEnt Vec)) := []
  /-- `q4` to `q7`, by queue number (R289). -/
  sq : Map (List (QEnt Word)) := []
  status : Word := 0
  pfx : Word := 0
  /-- Scalar registers whose value is still to arrive from a home or the device, and the number of the operation that
  brings it (R398). -/
  due : Map Nat := []
  /-- Vector registers whose value is still to arrive, likewise (R160, R365). -/
  vdue : Map Nat := []
deriving DecidableEq, Repr

/-- A line of 64 bytes with a byte mask: of a write buffer, in flight, or in the journal (R114, R458).
`home` is the line's physical address, or, from `shareBase` up, its offset in the firing's own share. -/
structure Line where
  home : Nat
  va : Nat
  mask : BitVec 64
  data : BitVec 512
deriving DecidableEq, Repr

/-- A vector instruction forwarded to the vector stream, with its scalar operands (R345). -/
structure Deferred where
  instr : Instr
  pc : Word
  x : Word
  y : Word
  status : Word
  /-- The scalar register it will write and the scalar queue it will push. -/
  writes : Option (BitVec 5) := none
  pushes : Option Nat := none
  /-- The vector queue it will push. -/
  fills : Option Nat := none
  /-- It stores to memory. -/
  stores : Bool := false
  /-- Lane, virtual address and place of each element of a memory access, checked at issue (R364). -/
  cells : List (Nat × Nat × Nat) := []
  /-- Elements of a load that were served when they were recorded, and those of a store that were taken at issue, by lane
  (R167, R289). -/
  got : Map Nat := []
  /-- The checked lines of a store, which its interval has claimed, with their virtual addresses (R167). -/
  claims : List (Nat × Nat) := []
  /-- The number of a load among the firing's accesses (R159). -/
  id : Nat := 0
deriving DecidableEq, Repr

/-- An entry of an event queue (R124): the firing it belongs to, its 64 bits, and the address that an orphan report of its
error carries (R449). -/
structure EvEntry where
  uid : Nat
  word : Word
  addr : Word
deriving DecidableEq, Repr

/-- An open restart region (R114).  `snap` is the shadow, kept as the whole of the shadowed registers. -/
structure Region where
  start : Word := 0
  snap : Regs := {}
  wbuf : List Line := []
  /-- When the first buffered line of the region was written (R115). -/
  since : Option Nat := none
  /-- Entries of `cr.evq` that the region read (R397). -/
  evqRead : List EvEntry := []
  /-- Pops from each queue in the region (R115). -/
  pops : Map Nat := []
  /-- Forwarded vector instructions that were not complete when the region began (R345). -/
  vsnap : List Deferred := []
deriving DecidableEq, Repr

/-- What an outstanding access does at its home. -/
inductive LoadKind where
  /-- It reads. -/
  | plain
  /-- `AMO` (op 0 to 8) or `CAS` (op 9), with its operands read at issue (R398, R400, R401). -/
  | atomic (home n op : Nat) (b c : Word)
  /-- `LDLK` waits at its bank for a lock bit, to read `n` bytes at `home`, virtual address `va` (R121, R403). -/
  | lock (lock home va n : Nat)
deriving DecidableEq, Repr

/-- An outstanding load (R114, R328, R398): each result byte is fixed already or comes from a home byte. -/
structure QLoad where
  id : Nat
  vec : Bool
  q : Nat
  cells : List (Option Nat × Byte)
  signed : Bool
  /-- The register that takes the value, in place of a queue: a vector one where `vec` is set. -/
  reg : Option Nat := none
  /-- Bytes of an element of a vector load: its elements come in no order (R367). -/
  width : Nat := 8
  /-- The lines that it reads: home and virtual address (R484). -/
  lines : List (Nat × Nat) := []
  /-- The storage tile to which the request of each line of a logical block was resolved, and the role-map epoch of its stamp
  (R77). -/
  stamps : List (Nat × Nat) := []
  epoch : Nat := 0
  kind : LoadKind := .plain
deriving DecidableEq, Repr

/-- Who issued a command (R131, R368): the firing, its pair at issue, its address space and launch, and where. -/
structure Origin where
  uid : Nat := 0
  slot : Nat := 0
  inc : Nat := 0
  asn : Nat := 0
  launch : Nat := 0
  gen : Nat := 0
  pc : Nat := 0
  /-- Committed lines of the firing with a lower number are before the command (R131), and so are its accesses numbered below
  `mark` (R150, R159). -/
  seq : Nat := 0
  mark : Nat := 0
  /-- The key of the first of its launch's pipes: a gang instance has its own (R43). -/
  pipes : Nat := 0
  /-- The kind of firing, as in its context. -/
  kind : Nat := 0
deriving DecidableEq, Repr

/-- A message on the mesh (R130), with the sender's address space and scope beside its header. -/
structure Packet where
  opcode : Nat
  flags : Nat
  len : Nat
  node : Nat
  agent : Nat
  tslot : Nat
  tinc : Nat
  sslot : Nat
  sinc : Nat
  stamp : Nat
  reply : Nat
  op0 : Nat
  op1 : Nat
  aux : Nat
  payload : List Byte
  origin : Origin
  scope : Nat
  /-- Set in a command that an engine instruction composed, not in one that `SEND` sent (R371): the home that the core
  resolved when `BARINIT` or `BARADD` executed (R386), otherwise 0. -/
  home : Option Nat := none
  /-- The logical tile through which an instruction named the bank (R75, R90). -/
  logical : Option Nat := none
  /-- The parked firing for which a hub has held it (R504). -/
  heldFor : Option Nat := none
deriving DecidableEq, Repr

/-- What a pending synchronizing operation does when its release conditions hold (R154, R404 to R414). -/
inductive PendKind where
  /-- `REL`, `SCST`: an indivisible write of the low `n` bytes. -/
  | write (home n : Nat) (value : Word)
  /-- `FENCE` and `FENCE.P` with its two paths (R405). -/
  | fence (p q : Nat)
  /-- `AMO.sc` (op 0 to 8) and `CAS.sc` (op 9) (R402). -/
  | atomic (home n op : Nat) (b c : Word) (rd : Nat)
  /-- `SCLD` (R404). -/
  | load (home n rd : Nat)
  /-- `SCLD` of a page that answers by itself (R399): it only takes its place in the order S. -/
  | fixed (value : Word) (rd : Nat)
  /-- A forced close of an interval, which orders as a fence at slot scope does (R164). -/
  | order
  /-- `JOIN` on the record at `home` (R413). -/
  | join (home va : Nat)
  /-- `SEND`: the message enters the tile's injection queue (R410). -/
  | send (p : Packet)
  /-- `TRIG` (R406). -/
  | trig
  /-- `LAUNCH` of the header at `va` (R414). -/
  | launch (va rd id : Nat)
  /-- `SPAWN` of a record whose counter is zero or below (R412). -/
  | spawn (cont : Nat)
  /-- The close of a checked interval (R165). -/
  | close (serial : Nat)
deriving DecidableEq, Repr

/-- A synchronizing operation that waits for its conditions, in program order. -/
structure Pend where
  kind : PendKind
  scope : Nat
  /-- Lines of the firing numbered below this must be acknowledged (R154). -/
  seq : Nat
  /-- Queue loads numbered below this must have returned (R154). -/
  mark : Nat
  /-- It has been announced on Panpipe, and waits for its delivery (R153). -/
  announced : Option Nat := none
  delivered : Bool := false
  /-- Its number among delivered operations (R152, R156). -/
  order : Nat := 0
  /-- A member of the order S (R156). -/
  sc : Bool := false
  /-- The virtual address of the word that it reads (R484). -/
  va : Nat := 0
deriving DecidableEq, Repr

/-- A condition of `WAIT` (R56, R408). -/
structure WaitCond where
  kind : Nat
  op : Nat
  size : Nat
  va : Nat
  home : Nat
  value : Nat
  /-- What a return-zero or return-poison page gives in place of the word (R399). -/
  fixed : Option Word := none
  /-- Its page is checked (R409). -/
  checked : Bool := false
  /-- Its page was not resident when the block was read: it is evaluated once the page is (R408). -/
  parked : Bool := false
deriving DecidableEq, Repr

/-- A `WAIT` in progress (R57, R408, R409). -/
structure WaitState where
  conds : List WaitCond
  any : Bool
  scope : Nat
  deadline : Option Nat
  trap : Bool
  rd : Nat
deriving DecidableEq, Repr

/-- A trap: the fields of its cause word, its address and detail words and its resume address (R449, R450, R454). -/
structure Trap where
  cls : Nat
  async : Bool
  access : Nat
  subcode : Nat
  addr : Word
  detail : Word
  resume : Word
  disposition : Nat
deriving DecidableEq, Repr

/-- What a context is doing. -/
inductive RunState where
  | running
  /-- A translation miss is being served (R109). -/
  | missing (va access : Nat)
  | waiting (w : WaitState)
  /-- A realign wait at its address: the hundredths of array clocks that were left of it at the tick `since` (R338). -/
  | realign (left since : Nat)
  /-- A synchronizing operation holds back every later access (R155). -/
  | held
  /-- `CABMRG` or `CABRD` awaits its reply (R393). -/
  | replyWait
  /-- An access waits, without an abort, for a page to become resident (R399, R471). -/
  | pageWait (va access : Nat)
  /-- Its migration stream is on its way (R465). -/
  | moving
  /-- A race check of a checked line is on its way to its home: the line, its virtual
  address, and whether it is a claim (R167). -/
  | checking (line va : Nat) (claim : Bool)
  /-- Stopped by a trap; a firing stopped in a `WAIT` is stopped in its wait (R449). -/
  | trapped (t : Trap) (inside : Option WaitState)
  | ended (killed : Bool)
deriving DecidableEq, Repr

/-- A boost lease (R258, R259). -/
structure Boost where
  expiry : Nat
  left : Nat
  suspended : Bool
  charge : Nat
  /-- A suspended lease has still to be tried when the firing next issues (R259). -/
  due : Bool := false
deriving DecidableEq, Repr

/-- A record of a pipe (R44); one with an uncorrectable error, which no one can read, has no bytes (R483). -/
abbrev Rec := List Byte

/-- A checked line that the open interval has touched: recorded by a load, claimed by a store (R167). -/
structure Touch where
  line : Nat
  read : Bool
  claimed : Bool
deriving DecidableEq, Repr

/-- The context of a firing: what travels in a migration (R64).  System and hub cores have one too. -/
structure Ctx where
  /-- The firing's serial number in the model (the model's own). -/
  uid : Nat := 0
  launch : Nat := 0
  gen : Nat := 0
  asn : Nat := 0
  actor : Nat := 0
  /-- 0 work actor, 1 pipe actor, 2 handler, 3 continuation, 4 system or hub core. -/
  kind : Nat := 0
  wid : Word := 0
  /-- The firing's logical tile; a handler's physical core. -/
  place : Nat := 0
  prio : Nat := 0
  cls : Nat := 0
  age : Nat := 0
  pc : Word := 0
  regs : Regs := {}
  /-- The slot's private share, by offset (R40, R97). -/
  share : Map Byte := []
  /-- Matrix items 0 to 3 (R374). -/
  items : Map Word := []
  /-- `cr.notice` (R85). -/
  notice : Word := 0
  /-- `cr.perf.req` (R254). -/
  req : BitVec 3 := 4
  boost : Option Boost := none
  region : Region := {}
  loads : List QLoad := []
  /-- Checked lines that the open interval has touched (R167), when the interval began, and the same once it is checked
  (R163). -/
  touched : List Touch := []
  interval : Nat := 0
  checkedSince : Option Nat := none
  /-- Committed lines so far: the number of the next one (the model's own). -/
  seq : Nat := 0
  pend : List Pend := []
  vstream : List Deferred := []
  st : RunState := .running
  /-- Drone's negative answers to the misses of the instruction that is next: each one's address, and its leaf, if any (R111). -/
  verdicts : List (Nat × Option Word) := []
  /-- Its last issue stalled in a way that R63 counts as waiting. -/
  stalled : Bool := false
  asyncs : List Trap := []
  /-- The lock bit held (R121) and the word's virtual address. -/
  lock : Option (Nat × Nat) := none
  /-- Reserved, unpopped records by pipe (R42). -/
  reserved : Map (List Rec) := []
  /-- Event-queue entries held outside the queue (R124). -/
  evHeld : List EvEntry := []
  /-- Sub-tiles that travel with a firing that holds no slot, by number (R64, R466). -/
  accs : List (Nat × Map (BitVec 32)) := []
  /-- A handler firing's message: its entry in the inbox and its tag (R59). -/
  msg : Option (Nat × Nat) := none
  /-- The firing has executed `TRIG` (R54). -/
  trig : Bool := false
  /-- The lines that the firing has fetched code from: for each the step before which the writes are in what it fetches
  (R316). -/
  code : Map Nat := []
deriving DecidableEq, Repr

/-- A forwarding entry of a vacated slot (R66, R504); `dst = none` while the firing holds no slot. -/
structure Fwd where
  inc : Nat
  uid : Nat
  dst : Option (Nat × Nat)
  expiry : Nat
deriving DecidableEq, Repr

/-- A context slot (R6, R19).  Its first incarnation and serial: DESIGN CHOICE (2), (3). -/
structure Slot where
  inc : BitVec 8 := 0
  /-- The interval serial (R163). -/
  serial : BitVec 8 := 0
  ctx : Option Ctx := none
  /-- When the occupant began at the slot (R132). -/
  began : Nat := 0
  /-- Incarnations given, with the tick (R66). -/
  recent : List (Nat × Nat) := []
  fwd : List Fwd := []
  /-- Reserved for a gang instance: launch, generation and work ID (R46). -/
  reservedFor : Option (Nat × Nat × Nat) := none
deriving DecidableEq, Repr

/-- A TLB entry: address space, page address and leaf (R109, R110). -/
structure TlbEntry where
  asn : Nat
  page : Nat
  leaf : Word
deriving DecidableEq, Repr

/-- A binding of the route-tag table (R58). -/
structure Route where
  launch : Nat
  gen : Nat
  actor : Nat
  hprio : Nat
deriving DecidableEq, Repr

/-- A message in an inbox (R60): its entry 0 to 15, whether a handler firing has been created for it, and the launch of the
firing that it names, if any (R58). -/
structure InMsg where
  entry : Nat
  begun : Bool
  /-- Its handler firing has begun to run (R58). -/
  running : Bool := false
  packet : Packet
  target : Option (Nat × Nat) := none
deriving DecidableEq, Repr

/-- A matrix command (R206 to R225, R374 to R381) with the values read at issue. -/
structure MCmd where
  /-- 1 `MMA`, 2 a block of `MMAG`, 3 `MZERO`, 4 `MLDB`, 5 `MDRN` (R371). -/
  kind : Nat
  origin : Origin
  /-- The queue's physical core and the sub-tile k. -/
  core : Nat
  k : Nat
  a : Word
  b : Word
  /-- K, or the form of a drain. -/
  n : Nat
  tag : Nat
  /-- Items 0, 1 and 2 as read at issue. -/
  apitch : Nat
  dpitch : Nat
  dpitch2 : Nat
  pfx : Word
  qaddr : Word
  /-- Physical address of the A panel of an `MMAG` block, and its offset in its quad store (R377). -/
  panel : Nat
  panelOff : Nat := 0
  /-- The number of its `MMAG` (the model's own). -/
  gang : Nat := 0
  /-- The logical tile through which it names another core (R218, R374). -/
  logical : Option Nat := none
  /-- Pages that have moved since the panel's place was resolved: address, size and new frame (R179). -/
  pages : List (Nat × Nat × Nat) := []
deriving DecidableEq, Repr

/-- A physical core (R19). -/
structure Core where
  /-- `cr.htag.enable` (R58). -/
  enable : BitVec 16 := 1
  routes : Map Route := []
  mxw : BitVec 4 := 1
  duty : BitVec 5 := 16
  span : Map Word := []
  tlb : List TlbEntry := []
  evq : List EvEntry := []
  inbox : List InMsg := []
  mq : List MCmd := []
deriving DecidableEq, Repr

/-- An entry of an injection queue (R133, R134). -/
inductive InjEntry where
  | packet (p : Packet) (overtaken : Nat)
  | fence
deriving DecidableEq, Repr

/-- A tile's shared parts (R19, R211). -/
structure Tile where
  tlb : List TlbEntry := []
  inj : List InjEntry := []
  /-- The arbiter: its core and the commands granted in the core's turn (R211). -/
  arbCore : Nat := 0
  arbGiven : Nat := 0
  /-- The arbiter has granted a command since reset. -/
  arbUsed : Bool := false
  /-- Commands granted, in grant order, not yet done. -/
  granted : List MCmd := []
  /-- Commands at this tile's matrix unit that wait for a queue (R210, R378). -/
  mwait : List MCmd := []
  /-- Commands for this tile's matrix unit whose issuers' lines have not all reached their homes (R131, R210). -/
  mfly : List MCmd := []
  /-- Engine commands composed on this tile that have still to enter its injection queue, until their issuers' lines have
  reached their homes (R131). -/
  held : List Packet := []
deriving DecidableEq, Repr

/-- An accumulator sub-tile: its owner and its non-zero elements, row-major (R213). -/
structure SubTile where
  owner : Option Nat := none
  /-- The logical tile through which a firing elsewhere took it (R218). -/
  logical : Option Nat := none
  elems : Map (BitVec 32) := []
deriving DecidableEq, Repr

/-- A quad's operating point (R254, R255): frequency point, voltage in mV.  At power-up: DESIGN CHOICE (4). -/
structure Quad where
  target : Nat := 4
  point : Nat := 4
  mv : Nat := 800
  /-- When the target last changed (R492), and the microsecond of the last voltage step (R255). -/
  stepAt : Nat := 0
  stepped : Nat := 0
  capped : Bool := false
deriving DecidableEq, Repr

/-- A push or command at a clustering bank's write port (R237, R371). -/
structure BankCmd where
  /-- 0 `CABCFG`, 1 `CABPUSH`, 2 `CABMRG`, 3 `CABRD`, 4 `CABDRN`, 5 `CABCLR`. -/
  kind : Nat
  origin : Origin
  addr : Word
  tag : Nat
  /-- Push word, or entry index. -/
  arg : Word
  payload : List Byte
  rd : Nat
  /-- The logical tile through which its instruction named the bank (R75, R90). -/
  logical : Option Nat := none
deriving DecidableEq, Repr

/-- What a bank keeps outside its state region (R238): held pushes by number, arrivals, the launch of its spill pipe. -/
structure Bank where
  window : List (Nat × BankCmd) := []
  arrivals : List BankCmd := []
  spillLaunch : Nat := 0
  spillGen : Nat := 0
  spillKey : Nat := 0
deriving DecidableEq, Repr

/-- A command chain being walked (R135 to R137). -/
structure Chain where
  id : Nat
  /-- 1 copy engine, 4 scan sequencer (R124). -/
  engine : Nat
  /-- The tile, or the district. -/
  node : Nat
  origin : Origin
  tag : Nat
  entry : Nat
  stack : List (Nat × Nat)
  walked : Nat
  /-- Report bits of its entries so far (R370). -/
  reports : Nat
  /-- The error that its MCAST entry has met, to be reported once the lines before it are written (R488). -/
  failing : Nat := 0
deriving DecidableEq, Repr

/-- Where a copy's bytes go: virtual addresses, physical ones, or offsets of a firing's share. -/
inductive CopyDst where
  | virt
  | phys
  | share (uid : Nat)
deriving DecidableEq, Repr

/-- A destination line of a COPY or DEAL entry that has begun and is still to be written (R137, R161, R178). -/
structure CopyLine where
  id : Nat
  chain : Nat
  /-- The copy engine's tile. -/
  node : Nat
  origin : Origin
  tag : Nat
  /-- Its entry's address and place in the walk. -/
  entry : Nat
  num : Nat
  dst : CopyDst
  /-- Source and destination of each byte. -/
  cells : List (Nat × Nat)
  /-- Source and destination of its entry overlap (R383), and the bytes of an element. -/
  overlap : Bool
  size : Nat := 1
deriving DecidableEq, Repr

/-- A line of a multicast on its way to one receiver (R138 to R141). -/
structure McastLine where
  id : Nat
  chain : Nat
  /-- Panpipe announcement that orders it, while that is not delivered (R140). -/
  announced : Option Nat
  /-- Its announcement has been delivered: it comes behind earlier such lines at the same place. -/
  ordered : Bool
  /-- The receiver's tile when the multicast began. -/
  tile : Nat
  launch : Nat
  gen : Nat
  logical : Nat
  quad : Nat
  offset : Nat
  mask : BitVec 64
  data : BitVec 512
  barrier : Nat
  origin : Origin
  /-- The routing tile whose quad stores hold the line on its way (R138). -/
  staged : Option Nat := none
  /-- The homes to which a page migration has taken the line and the barrier object (R141). -/
  moved : Option Nat := none
  barMoved : Option Nat := none
deriving DecidableEq, Repr

/-- A SEL entry and its parameter block (R395, R396). -/
structure Sel where
  mode : Nat
  fmt : Nat
  qfmt : Nat
  rowlen : Nat
  base : Nat
  rowcount : Nat
  params : Nat
  stride : Nat
  op0 : Nat
  op1 : Nat
  comb : Nat
  k : Nat
  a0 : Nat
  b0 : Nat
  a1 : Nat
  b1 : Nat
  query : Nat
  out : Nat
  outkind : Nat
  cap : Nat
  count : Nat
deriving DecidableEq, Repr

/-- A scan in progress (R243, R244, R394). -/
structure Scan where
  id : Nat
  chain : Nat
  origin : Origin
  entry : Nat
  sel : Sel
  /-- Selectors (node numbers) whose part is still to run. -/
  owners : List Nat
  /-- Selected pairs so far: rank key, value as f32, index. -/
  pairs : List (Int × Nat × Nat)
  count : Nat
  /-- The error of a part that failed (R370, R488). -/
  failed : Nat
  /-- The merging selector has ordered the pairs (R244). -/
  sorted : Bool
  /-- The 1 KiB units of the region that have been translated: for each the frame that decides its owner, and where it is now
  (R243, R245). -/
  pages : Map (Nat × Nat) := []
  /-- The whole region is translated, and the parts have been started. -/
  mapped : Bool := false
deriving DecidableEq, Repr

/-- A committed line that its home has not acknowledged (R116, R118) and its journal entry (R458). -/
structure Flight where
  id : Nat
  line : Line
  origin : Origin
  /-- Number of the line in its firing. -/
  num : Nat
  /-- The core whose journal it uses. -/
  core : Nat
  posted : Bool
  journal : Option Nat
  /-- 0 on its way, 1 performed at its home, 2 refused, 3 to be resolved again (R77). -/
  phase : Nat
  reason : Nat
  /-- Loads of its region must return before it drains (R159). -/
  loads : List Nat
  /-- The storage tile it was resolved to, and the role-map epoch of its stamp (R77). -/
  tile : Nat
  epoch : Nat
deriving DecidableEq, Repr

/-- A byte one path wrote that other paths need not see yet (R172 to R175). -/
structure Unseen where
  pa : Nat
  writer : Nat
  uid : Nat
  /-- Bit q: path q need not see it. -/
  blind : BitVec 6
  old : Byte
  /-- For a committed line, its number in its firing, from 1; 0 for an operation performed at the home. -/
  num : Nat := 0
  /-- The step in which it was written: the bytes of one line written in one step are one indivisible write (R161). -/
  at_ : Nat := 0
  /-- For a committed line, the slot that committed it, and the line's number in the package (R176). -/
  by_ : Option (Nat × Nat) := none
deriving DecidableEq, Repr

/-- A race tag (R166). -/
abbrev RaceTag := BitVec 128

/-- A lock bit (R120, R121): the owner, and the firings that wait, by serial number, in arrival order. -/
structure Lock where
  owner : Option (Nat × Nat) := none
  queue : List Nat := []
deriving DecidableEq, Repr

/-- An announcement on Panpipe (R142, R143). -/
structure Announce where
  id : Nat
  window : Nat
  kind : Nat
  scope : Nat
  slot : Nat
  inc : Nat
  serial : Nat
  /-- Kind-specific operands. -/
  x : Nat
  y : Nat
  /-- Role-map entries that the update sets, by tile (kind 3). -/
  entries : List (Nat × Word)
  /-- The completion join that it announces: address space and record (R52, R153). -/
  join : Option (Nat × Nat) := none
deriving DecidableEq, Repr

/-- An actor entry of a launch (R36). -/
structure Actor where
  entry : Nat
  kind : Nat
  tag : Nat
  hprio : Nat
  inPipe : List Nat
  inRate : List Nat
  emitPipe : List Nat
  emitRate : List Nat
deriving DecidableEq, Repr

/-- A pipe entry of a launch (R36). -/
structure Pipe where
  recSize : Nat
  depth : Nat
  home : Nat
  offset : Nat
deriving DecidableEq, Repr

/-- A launch of the launch table (R35, R53). -/
structure Launch where
  gen : Nat
  asn : Nat
  depth : Nat
  /-- The parent's table index and generation, for a device-side launch. -/
  parent : Option (Nat × Nat)
  prio : Nat
  cls : Nat
  gang : Bool
  dependent : Bool
  noticeActor : Nat
  widths : List Nat
  extents : List Nat
  tiles : Nat
  leaseAllow : Nat
  quota : List Nat
  codeBase : Nat
  actors : List Actor
  pipes : List Pipe
  producers : List Nat
  compKind : Nat
  compAddr : Nat
  /-- The launching firing, for completion kind 2 (R414). -/
  launcher : Origin
  scope : Nat
  queue : Nat
  admitted : Bool
  /-- Physical tile of each logical tile (R75). -/
  binds : Map Nat
  /-- Work firings in all, those that the dispatcher has created (R39), and those that have triggered or ended (R54). -/
  work : Nat
  made : Nat
  triggered : Nat
  /-- Records in each pipe, unreserved, oldest first (R44); a gang copy's key is instance × 32 + pipe.
  DESIGN CHOICE (137). -/
  records : Map (List Rec)
  /-- Records of a pipe that firings have reserved. -/
  reservedCount : Map Nat
  serials : Map Nat
  /-- Gang instances that have their copies of the pipes, by work ID (R43). -/
  copies : List Nat := []
  /-- Home-0 pipes, by their keys, that a recast has taken to tier 4 (R90). -/
  away : List Nat := []
  /-- Charge by tier in bytes (R101). -/
  charge : Map Nat
  killed : Bool
  /-- The pending notice, and whether the launch has acknowledged it (R87). -/
  notice : Word
deriving DecidableEq, Repr

/-- Work that is ready and unplaced (R61, R62). -/
structure Ready where
  launch : Nat
  gen : Nat
  actor : Nat
  kind : Nat
  wid : Word
  /-- Logical tile of a placed firing; for a record, the district whose hub holds it. -/
  place : Nat
  prio : Nat
  cls : Nat
  /-- Levels gained by waiting (R62). -/
  raised : Nat
  age : Nat
  since : Nat
  /-- A firing that left its slot, with its whole context. -/
  ctx : Option Ctx
  /-- A handler firing's core, inbox entry and tag. -/
  handler : Option (Nat × Nat × Nat)
  /-- Code and frame of a continuation record. -/
  code : Word
  frame : Word
  scope : Nat
  recs : Map (List Rec)
  /-- Passed over for fit since (R257). -/
  starved : Option Nat
  /-- No other firing is placed on its tile's quads until it fits (R257). -/
  alone : Bool := false
  blocking : Bool
deriving DecidableEq, Repr

/-- A continuation record that has been spawned and is not ready (R48, R412). -/
structure Cont where
  id : Nat
  district : Nat
  home : Nat
  va : Nat
  launch : Nat
  gen : Nat
  /-- What a return-zero or return-poison page gives in place of each of its words (R399). -/
  fixed : Option Word := none
deriving DecidableEq, Repr

/-- A live block of a pool (R100, R102). -/
structure Block where
  off : Nat
  lg : Nat
  launch : Option (Nat × Nat)
  /-- Its pages have left their tile in a recast (R90, R333), and the frames, with their sizes, that now hold them. -/
  moved : Bool := false
  frames : List (Nat × Nat) := []
deriving DecidableEq, Repr

/-- An allocation pool (R100): its tier, its unit (quad, tile or address space), the virtual base at which each address
space sees it, its free blocks (offset and log2 of the size), and who last held each 64 bytes (R332; address space + 1). -/
structure Pool where
  tier : Nat
  unit : Nat
  views : List (Nat × Nat)
  free : List (Nat × Nat)
  live : List Block
  holder : Map Nat
deriving DecidableEq, Repr

/-- A lease (R83). -/
structure Lease where
  launch : Nat
  gen : Nat
  blk : Bool
  index : Nat
  expiry : Nat
deriving DecidableEq, Repr

/-- A recast in progress (R88, R90, R503). -/
structure Recast where
  tile : Nat
  role : Nat
  /-- The step of its sequence whose role-map update was delivered last. -/
  step : Nat
  deadline : Nat
  serial : Nat
  affected : List (Nat × Nat)
  acked : List (Nat × Nat)
  dest : Nat
  /-- Destination of each logical tile: launch, logical tile, tile. -/
  moves : List (Nat × Nat × Nat)
  acks : List Nat
  /-- When the last acknowledgement came. -/
  ackAt : Option Nat
  /-- Lines below this offset have been copied (R88). -/
  frontier : Nat
  /-- It began with a notice (R86, R503). -/
  noticed : Bool := true
  /-- Pages of the tile that have moved away: address, size and new frame (R90). -/
  pages : List (Nat × Nat × Nat) := []
  /-- The tile's firings and messages have gone to their destinations (R90, step 3). -/
  left : Bool := false
deriving DecidableEq, Repr

/-- A migration stream on its way (R465): source slot, destination slot, and whether `MIGR` awaits it in register `rd`. -/
structure Move where
  src : Nat
  dst : Nat
  rd : Option Nat
deriving DecidableEq, Repr

/-- A page being migrated by system software (R179). -/
structure PageMove where
  asn : Nat
  va : Nat
  size : Nat
  old : Word
  new : Word
  /-- 0 accesses parked, 1 copied and announced. -/
  phase : Nat
deriving DecidableEq, Repr

/-- A negative answer of Drone's walk for an engine's access (R368). -/
structure Walk where
  unit : Nat
  asn : Nat
  va : Nat
  /-- The leaf found, if any. -/
  leaf : Option Word
deriving DecidableEq, Repr

/-- An orphan report recorded by Drone (R456). -/
structure Orphan where
  cls : Nat
  access : Nat
  slot : Nat
  inc : Nat
  addr : Word
  detail : Word
  /-- The other fields of the cause word (R450). -/
  async : Bool := false
  subcode : Nat := 0
  /-- The launch that it is recorded against: table index and generation. -/
  launch : Option (Nat × Nat) := none
deriving DecidableEq, Repr

/-- A storage window (R76): its address space, base and identifier. -/
structure Window where
  asn : Nat
  base : Nat
  id : Nat
deriving DecidableEq, Repr

/-- What a system core latches at trap entry (R452). -/
structure Latch where
  cause : Word
  addr : Word
  detail : Word
deriving DecidableEq, Repr

/-- A system core (0 to 15) or hub core (16 to 79) (R18, R29, R451). -/
structure SysCore where
  ctx : Ctx := {kind := 4}
  latch : Option Latch := none
  /-- Its landing SRAM (R452). -/
  landing : Map Byte := []
  /-- The slots whose traps it serves until `ERET` (R427), the last delivered first. -/
  serving : List Nat := []
  /-- Bit c: retired from trap class c (R453). -/
  retired : BitVec 32 := 0
deriving DecidableEq, Repr

/-- A launch queue of the host (R266 to R269).  Registers at reset: DESIGN CHOICE (10). -/
structure HostQueue where
  base : Nat := 0
  size : Nat := 0
  cpl : Nat := 0
  head : Nat := 0
  /-- A doorbell latched before ready or during a freeze (R269, R271). -/
  latched : Option Nat := none
  /-- The last tail handed over: entries up to it are still to be read. -/
  tail : Nat := 0
  written : Nat := 0
  reported : Nat := 0
  /-- The enqueue waits for a park page (R505). -/
  stuck : Bool := false
deriving DecidableEq, Repr

/-- The boot chain and the host's registers (R260 to R273).  At reset: DESIGN CHOICE (9), (10). -/
structure HostSide where
  stage : Nat := 0
  ready : Bool := false
  go : Bool := false
  /-- Where Chanter was started (R260). -/
  entry : Nat := 0
  bar2 : Bool := true
  bootSram : Map Byte := []
  chanterDigest : Nat := 0
  droneDigest : Nat := 0
  kernelDigest : Nat := 0
  /-- Chanter has written a boot-error record (R494). -/
  bootError : Bool := false
  queues : Map HostQueue := []
  frzPlan : Nat := 0
  /-- 0 idle, 1 freezing, 2 frozen, 3 resuming (R270). -/
  frzState : Nat := 0
  frzIssuer : Nat := 0
  mbox : Map Byte := []
  /-- The command of an outstanding request, and the reply bit (R272). -/
  mbCommand : Nat := 0
  mbPending : Bool := false
  mbDone : Bool := false
  /-- The last value a host read returned (the model's output port). -/
  readData : List Byte := []
  /-- Scale-up ports, of 64, set to Ultra Ethernet; the others are UALink (R28, R29, R145).  At reset: DESIGN CHOICE (128). -/
  etherPorts : List Nat := []
  /-- Host writes to a bank's state region that Drone has recorded: address and byte (R490). -/
  discarded : List (Nat × Byte) := []
deriving DecidableEq, Repr

/-- The budget tree and the caps (R246 to R253).  Allocations before a division: DESIGN CHOICE (8). -/
structure Power where
  /-- Allocation of each core in mW, in force. -/
  alloc : Map Nat := []
  /-- Allocations divided and not yet in effect: when they take effect. -/
  next : Option (Nat × Map Nat) := none
  /-- Surplus and reserved charges of each district leaf in mW. -/
  surplus : Map Nat := []
  /-- Surplus of the nodes above and below the districts (R249): the package (0) and the dies (1 and 2), and the tiles. -/
  upper : Map Nat := []
  tileSurplus : Map Nat := []
  reserved : Map Nat := []
  /-- Excess above the average cap of unit 0 (package), 1 and 2 (dies), in nJ (R252). -/
  excess : Map Nat := []
  /-- Peak and average caps in mW, of units 0 to 2 (R252). -/
  peakCap : List Nat := [2200000, 1000000, 1000000]
  avgCap : List Nat := [2000000, 900000, 900000]
  /-- Units at their peak cap until the next division, and the energy of units 0 to 2 in the interval so far, in nJ
  (R253). -/
  throttled : List Nat := []
  peak : Map Nat := []
  /-- The 10 µs interval of the last division (R249). -/
  divided : Nat := 0
deriving DecidableEq, Repr

/-- What a freeze captures (R69): everything needed to resume.  Fields that bear the name of a field of `State` hold what
that field held. -/
structure Image where
  chanterDigest : Nat
  droneDigest : Nat
  /-- The tiers that the plan retained (R71). -/
  retained : List Nat
  /-- No target had room (R480): the image is on the package only. -/
  failed : Bool
  /-- The package has been without power since (R71). -/
  cycled : Bool
  /-- When the firings stopped. -/
  time : Nat
  slots : Map Slot
  closed : Map (BitVec 8)
  cores : Map Core
  tiles : Map Tile
  subs : Map SubTile
  banks : Map Bank
  roles : Map Word
  windows : List Window
  locks : Map Lock
  flights : List Flight
  conts : List Cont
  hubHeld : List Packet
  flying : List Packet
  arrived : List Packet
  launches : Map Launch
  gens : Map Nat
  pool : Nat
  admission : List (Nat × Nat)
  joins : List (Nat × Nat)
  rackDue : List (Nat × Nat × Nat)
  ready : List Ready
  pools : List Pool
  freeFrames : List (Nat × Nat)
  lostPages : List PageMove
  kills : List Nat
  chains : List Chain
  /-- Leases, each with the ticks that remain in place of its expiry. -/
  leases : List Lease
  trapq : List Nat
  badLines : List Nat
  mem : Map Byte
  unseen : List Unseen
deriving DecidableEq, Repr

/-- A freeze or a resumption in progress (R68 to R70, R479, R480). -/
structure Freeze where
  issued : Nat
  /-- The plan that `FRZPLAN` named at the start, or that the rack scheduler node named (R68, R270). -/
  plan : Nat
  retained : List Nat
  /-- Leases, each with the ticks that remain in place of its expiry. -/
  leases : List Lease
  /-- Targets that failed, by bit; and no remaining target had room. -/
  lost : Nat
  failed : Bool
  /-- The state from which a resume began (R271). -/
  from_ : Nat
deriving DecidableEq, Repr

/-- The census of a district (R80): its ring of sample records and the count of tier-3 failures in the interval. -/
structure Census where
  ring : List (List Byte) := []
  t3fail : Nat := 0
  /-- Bytes of pages that have gone from its tiles to tier 4 or 5. -/
  spill : Nat := 0
  /-- The 5,000-tick interval of the last sample. -/
  sampled : Nat := 0
deriving DecidableEq, Repr

/-- The operands of an event: what it takes from outside, or which of several like steps it is (the model's own form). -/
structure EventArgs where
  a : Nat := 0
  b : Nat := 0
  c : Nat := 0
  d : Nat := 0
  e : Nat := 0
  flag : Bool := false
  flag2 : Bool := false
  data : List Nat := []
  data2 : List Nat := []
  pairs : List (Nat × Nat) := []
deriving DecidableEq, Repr

/-- Who issues instructions: a slot, a system core (0 to 15) or a hub core (16 to 79). -/
inductive Issuer where
  | slot (k : Nat)
  | sys (n : Nat)
deriving DecidableEq, Repr

/-- What moves next (the model's own): an issuer's scalar stream, a slot's vector stream, or an event. -/
inductive Act where
  /-- `late`: a load or atomic that it issues, or a vector load that it performs, is served at its home in a later step (R160,
  R398). -/
  | issue (who : Issuer) (late : Bool := false)
  | vector (slot : Nat) (late : Bool := false)
  | event (i : Instr) (args : EventArgs)
deriving DecidableEq, Repr

/-- One entry of the schedule (the model's own): reference ticks that pass, then the step. -/
structure Input where
  ticks : Nat
  act : Act
deriving DecidableEq, Repr

/-- The package. -/
structure State where
  /-- The reference count (R25). -/
  time : Nat := 0
  /-- Whose turn it is, the rest of the schedule and the operands of the event in hand (the model's own). -/
  cur : Issuer := .slot 0
  inputs : List Input := []
  args : EventArgs := {}
  /-- It is the turn of the current slot's vector stream (the model's own). -/
  vecTurn : Bool := false
  /-- The instruction in hand, if it reads a home, is served there later (R160; the model's own). -/
  late : Bool := false
  /-- Step counter that the free values are applied to (the model's own). -/
  fresh : Nat := 0
  /-- Next serial numbers of firings and of other numbered things (the model's own). -/
  nextUid : Nat := 1
  nextId : Nat := 1
  mem : Map Byte := []
  unseen : List Unseen := []
  tags : Map RaceTag := []
  /-- Last closed serial applied, by slot (R165). DESIGN CHOICE (2). -/
  closed : Map (BitVec 8) := []
  locks : Map Lock := []
  badLines : List Nat := []
  flights : List Flight := []
  slots : Map Slot := []
  cores : Map Core := []
  tiles : Map Tile := []
  subs : Map SubTile := []
  quads : Map Quad := []
  banks : Map Bank := []
  roles : Map Word := []
  /-- Districts whose hub failed its self-test (R32). -/
  absentHubs : List Nat := []
  /-- DESIGN CHOICE (5). -/
  epoch : Nat := 0
  recasts : List Recast := []
  /-- What the hardware answered to the last proposal (R81). -/
  recastCode : Nat := 0
  /-- DESIGN CHOICE (7). -/
  noticeSerial : Nat := 0
  leases : List Lease := []
  windows : List Window := []
  census : Map Census := []
  conts : List Cont := []
  /-- Messages that a hub holds for parked firings (R504). -/
  hubHeld : List Packet := []
  pan : List Announce := []
  /-- Messages between an injection queue and their destination router, in order of sending. -/
  flying : List Packet := []
  /-- Engine commands that have reached their agent. -/
  arrived : List Packet := []
  launches : Map Launch := []
  /-- Generation of each launch-table entry (R53). DESIGN CHOICE (6). -/
  gens : Map Nat := []
  pool : Nat := 0
  /-- Launches enqueued and not admitted: queue and table index, oldest first (R37). -/
  admission : List (Nat × Nat) := []
  /-- Completion joins that wait for their page: address space and record (R52). -/
  joins : List (Nat × Nat) := []
  /-- Residency reports due to the rack scheduler node: request, handle, status (R146). -/
  rackDue : List (Nat × Nat × Nat) := []
  ready : List Ready := []
  moves : List Move := []
  pageMoves : List PageMove := []
  walks : List Walk := []
  pools : List Pool := []
  /-- Frames that `FREE` has released to Drone, with their sizes (R333). -/
  freeFrames : List (Nat × Nat) := []
  /-- Promotions that ended with their pages non-present, since a line of the source could not be read (R485). -/
  lostPages : List PageMove := []
  chains : List Chain := []
  mcasts : List McastLine := []
  copies : List CopyLine := []
  scans : List Scan := []
  power : Power := {}
  sys : Map SysCore := []
  /-- Slots with a queued trap, oldest first (R451). -/
  trapq : List Nat := []
  orphans : List Orphan := []
  /-- Handles of launches that were killed, as Drone records them (R464). -/
  kills : List Nat := []
  reports : List (List Byte) := []
  /-- Kernel-reserved physical ranges, each low and high, and whether the table is locked (R265). -/
  kreserved : List (Nat × Nat) := []
  kreservedLocked : Bool := false
  /-- Translations that Drone has given the unit that reads launch headers (R505). -/
  enqTlb : List TlbEntry := []
  host : HostSide := {}
  freeze : Option Freeze := none
  /-- Images, by the address of their plan (R68, R270). -/
  images : Map Image := []
deriving DecidableEq, Repr

/-- The machine right after reset.  Every field stands at the value the manual gives for reset, or at the value that a
log entry names where it gives none; memory lists nothing and no firing exists. -/
def State.reset : State := {}

end Sys2Proof.Machine
end

