-- ==== Sys2Proof/Machine/Ops.lean ====
section
/-! DEFINITION. The named operations over the state that the meanings share: geometry, accessors, memory and access
paths, restart regions, translation, traps, and how a firing leaves and takes a slot. -/

namespace Sys2Proof.Machine

/-! ## Geometry -/

/-- Bit `n` of a word. -/
def bit (w : Word) (n : Nat) : Bool := w.getLsbD n

/-- Bits `lo + n - 1` to `lo` of a word, as a number. -/
def field (w : Word) (lo n : Nat) : Nat := w.toNat / 2 ^ lo % 2 ^ n

/-- A word with bits `lo + n - 1` to `lo` replaced. -/
def setField (w : Word) (lo n v : Nat) : Word :=
  BitVec.ofNat 64 (w.toNat % 2 ^ lo + 2 ^ lo * (v % 2 ^ n) + 2 ^ (lo + n) * (w.toNat / 2 ^ (lo + n)))

/-- The physical core of a slot (R6). -/
def coreOf (slot : Nat) : Nat := slot / 8

/-- The package tile index of a physical core: die × 512 + tile row × 32 + tile column (R5, R16, R75). -/
def tileOf (core : Nat) : Nat :=
  let d := core / 128 % 32
  let t := core / 8 % 16
  core / 4096 * 512 + (d / 8 * 4 + t / 4) * 32 + (d % 8 * 4 + t % 4)

/-- The first physical core of a tile: the inverse of `tileOf` (R5, R16). -/
def coreBase (tile : Nat) : Nat :=
  let row := tile % 512 / 32
  let col := tile % 32
  tile / 512 * 4096 + (row / 4 * 8 + col / 4) * 128 + (row % 4 * 4 + col % 4) * 8

/-- The quad of a core, 0 to 2,047: two to a tile (R5). -/
def quadOf (core : Nat) : Nat := tileOf core * 2 + core % 8 / 4

/-- The package district of a core, 0 to 63 (R5, R129). -/
def districtOf (core : Nat) : Nat := core / 128

/-- The package district of a tile. -/
def districtOfTile (tile : Nat) : Nat := districtOf (coreBase tile)

/-- Two slots lie in one unit of a scope (R3). -/
def sameUnit (scope a b : Nat) : Bool :=
  match scope with
  | 0 => a == b
  | 1 => coreOf a == coreOf b
  | 2 => a / 32 == b / 32
  | 3 => a / 64 == b / 64
  | 4 => a / 1024 == b / 1024
  | 5 => a / 32768 == b / 32768
  | _ => true

/-! ## Accessors -/

def State.slotAt (s : State) (k : Nat) : Slot := s.slots.get k {}

def State.setSlot (s : State) (k : Nat) (sl : Slot) : State := { s with slots := s.slots.set k sl {} }

def State.coreAt (s : State) (n : Nat) : Core := s.cores.get n {}

def State.setCore (s : State) (n : Nat) (c : Core) : State := { s with cores := s.cores.set n c {} }

def State.tileAt (s : State) (n : Nat) : Tile := s.tiles.get n {}

def State.setTile (s : State) (n : Nat) (t : Tile) : State := { s with tiles := s.tiles.set n t {} }

def State.subAt (s : State) (core k : Nat) : SubTile := s.subs.get (core * 4 + k) {}

def State.setSub (s : State) (core k : Nat) (b : SubTile) : State := { s with subs := s.subs.set (core * 4 + k) b {} }

def State.quadAt (s : State) (n : Nat) : Quad := s.quads.get n {}

def State.setQuad (s : State) (n : Nat) (q : Quad) : State := { s with quads := s.quads.set n q {} }

def State.bankAt (s : State) (n : Nat) : Bank := s.banks.get n {}

def State.setBank (s : State) (n : Nat) (b : Bank) : State := { s with banks := s.banks.set n b {} }

def State.sysAt (s : State) (n : Nat) : SysCore := s.sys.get n {}

def State.setSys (s : State) (n : Nat) (c : SysCore) : State := { s with sys := s.sys.set n c {} }

/-- The role-map entry of a tile (R78). -/
def State.roleOf (s : State) (tile : Nat) : Word := s.roles.get tile 0

def State.setRole (s : State) (tile : Nat) (w : Word) : State := { s with roles := s.roles.set tile w 0 }

def State.lockAt (s : State) (l : Nat) : Lock := s.locks.get l {}

def State.setLock (s : State) (l : Nat) (v : Lock) : State := { s with locks := s.locks.set l v {} }

/-- The tile is in compute role (R73). -/
def State.compute (s : State) (tile : Nat) : Bool := field (s.roleOf tile) 0 2 == 0

/-- The launch that a table index and generation name, if it has not completed (R53). -/
def State.launchOf (s : State) (i gen : Nat) : Option Launch :=
  match s.launches.get? i with
  | some l => if l.gen = gen then some l else none
  | none => none

def State.setLaunch (s : State) (i : Nat) (l : Launch) : State := { s with launches := s.launches.insert i l }

/-- The context of an issuer. -/
def State.ctxOf (s : State) : Issuer → Option Ctx
  | .slot k => (s.slotAt k).ctx
  | .sys n => some (s.sysAt n).ctx

/-- The state with the context of an issuer replaced; a slot that has been vacated stays vacant. -/
def State.putCtx (s : State) (who : Issuer) (c : Ctx) : State :=
  match who with
  | .slot k => s.setSlot k { s.slotAt k with ctx := some c }
  | .sys n => s.setSys n { s.sysAt n with ctx := c }

/-- The slot that holds the firing numbered `uid`. -/
def State.slotOfUid (s : State) (uid : Nat) : Option Nat :=
  (s.slots.find? fun e => match e.2.ctx with
    | some c => c.uid == uid
    | none => false).map (·.1)

/-- The contexts of firings, in slots and parked. -/
def State.contexts (s : State) : List Ctx :=
  (s.slots.filterMap fun e => e.2.ctx) ++ s.ready.filterMap (·.ctx)

/-- The firings have stopped: in a freeze, from step 3 on, once the recasts that had begun have run to completion (R69, R89),
until the resumption is over (R270). -/
def State.halted (s : State) : Bool := s.host.frzState != 0 && !(s.host.frzState == 1 && !s.recasts.isEmpty)

/-- A recast has sent the tile's firings and messages to their destinations (R90). -/
def State.leaving (s : State) (tile : Nat) : Bool := s.recasts.any fun r => r.tile == tile && r.left

/-- The number the queues and windows use for an issuer: a slot id, or 65,536 and more for a system or hub core. -/
def Issuer.number : Issuer → Nat
  | .slot k => k
  | .sys n => 65536 + n

def Issuer.ofNumber (n : Nat) : Issuer := if n < 65536 then .slot n else .sys (n - 65536)

/-- A free choice among `n` alternatives (log entry 12). -/
def State.pick (s : State) (n : Nat) : Nat := Config.freePick s.fresh % n

/-! ## Memory and access paths -/

/-- Homes from here up are offsets in the firing's own share. -/
def shareBase : Nat := 2 ^ 52

/-- The line that holds an address. -/
def lineOf (a : Nat) : Nat := a - a % 64

/-- The region of a physical address (R93). -/
def regionOf (pa : Nat) : Nat := pa / 2 ^ 49

/-- The populated part of the physical address space: regions 0 and 1 end where R93 states, region 2 at tile 1,023,
region 7 is reserved. -/
def populated (pa : Nat) : Bool :=
  match regionOf pa with
  | 0 => decide (pa < 0x9502F90000)
  | 1 => decide (pa - 0x2000000000000 < 0xB2D05E0000)
  | 2 => decide (pa - 0x4000000000000 < 1024 * 0x800000)
  | 3 | 4 | 5 | 6 => true
  | _ => false

/-- The tile of a region-2 address (R93). -/
def tileOfPa (pa : Nat) : Nat := (pa - 0x4000000000000) / 0x800000

/-- The tier of a physical address (R2, R93, R94), none for an inbox, a reserved part, the host, a peer or a register. -/
def tierOf (pa : Nat) : Option Nat :=
  match regionOf pa with
  | 0 => some 4
  | 1 => some 5
  | 2 =>
    let off := pa % 0x800000
    if off < 0x100000 then some 0
    else if off < 0x300000 then some 1
    else if off < 0x400000 then none
    else some 2
  | 3 => some 3
  | _ => none

/-- The newest byte at a home. DESIGN CHOICE (1). -/
def State.byteAt (s : State) (pa : Nat) : Byte := s.mem.get pa 0

/-- An access on a path by the firing `me` (0 for none) sees a write: it must, once a crossing to its path has carried the
write (R174, R175) or where the write names the reader (R393); otherwise the choice is free, and one for all bytes of the line
that the write wrote at once (R161, R162). DEDUCED (45). -/
def State.sees (s : State) (path me acc : Nat) (u : Unseen) : Bool :=
  !u.blind.getLsbD path || (decide (me ≠ 0) && u.uid == me) || Config.freeSees s.fresh acc u.at_ (lineOf u.pa)

/-- A byte as an access reads it: the newest value, or what stood before the writes that the access does not see, newest
first. -/
def readBack (sees : Unseen → Bool) (newest : Byte) : List Unseen → Byte
  | [] => newest
  | u :: us => if sees u then newest else readBack sees u.old us

/-- The byte at a key, with its newest value, as access `acc` of the step reads it on a path by the firing `me`.
DEDUCED (45). -/
def State.heldByte (s : State) (path key : Nat) (newest : Byte) (me acc : Nat) : Byte :=
  readBack (s.sees path me acc) newest (s.unseen.filter fun u => u.pa == key)

/-- A byte of memory as access `acc` of the step reads it on a path by the firing `me` (R162, R174, log entry 12). -/
def State.readByte (s : State) (path pa : Nat) (me : Nat := 0) (acc : Nat := 0) : Byte :=
  if regionOf pa = 5 then Config.peerByte s.fresh pa else s.heldByte path pa (s.byteAt pa) me acc

/-! ### Fetches (R316) -/

/-- The step before which the writes of a line are in what a firing fetches of it, where it has fetched none of the line: a fetch
that sees one of them sees those before it, so that it reads one content of the line. -/
def State.fetchedTo (s : State) (me key : Nat) : Nat :=
  ((s.unseen.find? fun u => lineOf u.pa == lineOf key && s.sees 0 me 0 u).map (·.at_ + 1)).getD 0

/-- A byte of the landing SRAM of a system core (R452). -/
def State.landingByte (s : State) (n pa : Nat) : Byte := (s.sysAt n).landing.get pa 0

/-- A byte of an instruction as a fetch reads it, of whose line it reads the writes before a step (R316). DEDUCED (45).
DEDUCED (155). -/
def State.fetchByte (s : State) (me upTo pa : Nat) : Byte :=
  if regionOf pa = 5 then s.readByte 0 pa me
  else readBack (fun u => decide (u.at_ < upTo)) (s.byteAt pa) (s.unseen.filter fun u => u.pa == pa)

/-- A write at a key that other paths need not see until a crossing (R172). -/
def State.unsee (s : State) (path uid key : Nat) (old : Byte) (num : Nat) (by_ : Option (Nat × Nat) := none) : State :=
  { s with unseen := { pa := key, writer := path, uid := uid, blind := ~~~(BitVec.ofNat 6 (2 ^ path)), old := old,
                       num := num, at_ := s.fresh, by_ := by_ } :: s.unseen }

/-- A write of one byte on a path by a firing (0 for none). -/
def State.writeByte (s : State) (path uid pa : Nat) (b : Byte) (num : Nat := 0) (by_ : Option (Nat × Nat) := none) : State :=
  { s.unsee path uid pa (s.byteAt pa) num by_ with mem := s.mem.set pa b 0 }

/-- `n` bytes from an address on, as a number, lowest byte first (R9). -/
def gatherBytes (f : Nat → Byte) (a : Nat) : Nat → Nat
  | 0 => 0
  | n + 1 => (f a).toNat + 256 * gatherBytes f (a + 1) n

/-- Byte `i` of a number (R9). -/
def byteOf (v i : Nat) : Byte := BitVec.ofNat 8 (v / 256 ^ i)

/-- `n` bytes read on a path. -/
def State.readMem (s : State) (path pa n : Nat) (me : Nat := 0) : Nat := gatherBytes (fun a => s.readByte path a me) pa n

/-- The low `n` bytes of a number written on a path, lowest byte at the lowest address (R9). -/
def State.writeMem (s : State) (path uid pa : Nat) : Nat → Nat → State
  | 0, _ => s
  | n + 1, v => (s.writeByte path uid pa (byteOf v 0)).writeMem path uid (pa + 1) n (v / 256)

/-- A masked write of a line, indivisible (R116); `by_` says which slot committed it and its number in the package. -/
def State.writeLine (s : State) (path uid num : Nat) (l : Line) (by_ : Option (Nat × Nat) := none) : State :=
  (List.range 64).foldl (fun s i =>
    if l.mask.getLsbD i then s.writeByte path uid (l.home + i) (byteOf l.data.toNat i) num by_ else s) s

/-- The physical address of an offset of a slot's share (R94). -/
def sharePa (slot off : Nat) : Nat :=
  let core := coreOf slot
  0x4000000000000 + tileOf core * 0x800000 + core % 8 * 0x20000 + slot % 8 * 0x2000 + off % 0x2000

/-- Lines that `n` bytes written from `pa` on cover whole are no longer uncorrectable (R483). -/
def State.mendRange (s : State) (pa n : Nat) : State :=
  if s.badLines = [] then s
  else { s with badLines := s.badLines.filter fun l => !(decide (pa ≤ l) && decide (l + 64 ≤ pa + n)) }

/-- A line written whole is no longer uncorrectable (R483). -/
def State.mended (s : State) (l : Line) : State :=
  if l.mask = BitVec.allOnes 64 then { s with badLines := s.badLines.filter (· != l.home) } else s

/-- A crossing from path `p` to path `q`: writes of `p` that `sel` picks become visible to `q` (R175, R176). -/
def State.cross (s : State) (p q : Nat) (sel : Unseen → Bool) : State :=
  { s with unseen := s.unseen.map fun u =>
      if u.writer = p ∧ sel u then { u with blind := u.blind &&& ~~~(BitVec.ofNat 6 (2 ^ q)) } else u }

/-- The storage tile that holds the block of a region-3 address (R76 to R78). -/
def State.storageTile (s : State) (pa : Nat) : Option Nat :=
  let w := pa / 2 ^ 33 % 2 ^ 16
  let b := pa / 2 ^ 23 % 2 ^ 10
  (s.roles.find? fun e => field e.2 0 2 == 1 && bit e.2 5 && field e.2 2 3 != 3 && field e.2 6 10 == b &&
    field e.2 16 16 == w).map (·.1)

/-- The tiles to which the requests of lines of logical blocks are resolved (R77). -/
def State.stamp (s : State) (lines : List Nat) : List (Nat × Nat) :=
  (lines.filter (regionOf · == 3)).map fun a => (a, (s.storageTile a).getD 0)

/-- A request stamped with an earlier epoch is at a tile that no longer holds its block and does not forward it (R77, R88, R89).
DEDUCED (72). -/
def State.staleStamp (s : State) (line tile epoch : Nat) : Bool :=
  regionOf line == 3 && epoch != s.epoch &&
    match s.storageTile line with
    | none => false
    | some t => t != tile && !(field (s.roleOf tile) 2 3 == 3 && field (s.roleOf tile) 32 10 == t)

/-- A region-3 address with no backing (R468). DEDUCED (29). -/
def State.unbacked (s : State) (pa : Nat) : Bool :=
  regionOf pa == 3 && (decide (0x700000 ≤ pa % 0x800000) || (s.storageTile pa).isNone)

/-- The node of the memory home of an address (R93, R129): I/O die 0 for every host and peer region. DESIGN CHOICE (173). -/
def State.homeNode (s : State) (pa : Nat) : Nat :=
  match regionOf pa with
  | 0 => 1088 + pa / 256 % 256
  | 1 => 1344 + pa / 4096 % 12
  | 2 => tileOfPa pa
  | 3 => (s.storageTile pa).getD 0
  | _ => 1356

/-- The start of quad store `q` of a tile (R94). -/
def quadBase (tile q : Nat) : Nat := 0x4000000000000 + tile * 0x800000 + 0x100000 * (1 + q)

/-- The home's tile, for memory in tiles. -/
def State.homeTile (s : State) (pa : Nat) : Option Nat :=
  match regionOf pa with
  | 2 => some (tileOfPa pa)
  | 3 => s.storageTile pa
  | _ => none

/-- The key, among the writes that paths need not see, of an offset of a firing's own share (R97, R172). -/
def shareKey (uid off : Nat) : Nat := shareBase + uid * 0x2000 + off % 0x2000

/-- A home lies in the unit of a scope around a slot (R3, R175): a share by its slot, tile memory by its tile and, where it
is a quad's, its quad, a channel of tier 4 by the die of its stack (R93), and host and peer memory only at the scopes whose unit
holds them. DEDUCED (111). -/
def State.homeInUnit (s : State) (scope slot pa : Nat) : Bool :=
  if shareBase ≤ pa then (s.slotOfUid ((pa - shareBase) / 0x2000)).any (sameUnit scope slot)
  else
    match regionOf pa with
    | 4 => decide (8 ≤ scope)
    | 5 => scope == 7 || decide (9 ≤ scope)
    | 0 => decide (6 ≤ scope) || (scope == 5 && sameUnit 5 slot (pa / 2 ^ 8 % 256 / 128 * 32768))
    | 2 =>
      let first := coreBase (tileOfPa pa) * 8
      let off := pa % 0x800000
      if 3 ≤ scope then sameUnit scope slot first
      else if off < 0x100000 then sameUnit scope slot (first + off / 0x20000 * 8 + off % 0x20000 / 0x2000 % 8)
      else scope == 2 && decide (off < 0x300000) && sameUnit 2 slot (first + (off - 0x100000) / 0x100000 * 32)
    | 3 => decide (6 ≤ scope) || (decide (3 ≤ scope) && (s.storageTile pa).any fun t => sameUnit scope slot (coreBase t * 8))
    | _ => decide (6 ≤ scope)

/-- The lock bit of a line, numbered within the package (R120). -/
def lockOf (pa : Nat) : Nat :=
  let i := ((pa / 2 ^ 10) ^^^ (pa / 2 ^ 16)) % 64
  let bank :=
    match regionOf pa with
    | 0 => 2 ^ 20 + pa / 2 ^ 8 % 256
    | 1 => 2 ^ 20 + 2 ^ 10 + pa / 2 ^ 12 % 12
    | 2 => (tileOfPa pa * 4 + pa % 0x800000 / 0x100000) * 16 + pa / 64 % 16
    | _ => 2 ^ 21 + pa / 2 ^ 23 % 2 ^ 26 * 112 + pa % 0x800000 / 64 % 112
  bank * 64 + i

/-- A physical address lies in a kernel-reserved range (R112, R265). -/
def State.kernelFrame (s : State) (pa : Nat) : Bool := s.kreserved.any fun r => decide (r.1 ≤ pa) && decide (pa ≤ r.2)

/-- Some of `n` bytes from `pa` on lie in a kernel-reserved frame. -/
def State.kernelPart (s : State) (pa n : Nat) : Bool :=
  s.kreserved.any fun r => decide (r.1 ≤ r.2) && decide (r.1 < pa + n) && decide (pa ≤ r.2)

/-! ## The instruction in hand -/

/-- Why an instruction has not taken effect. -/
inductive Stop where
  /-- It waits and changes nothing. -/
  | stall
  /-- It waits in a way that R63 counts as waiting. -/
  | waiting
  /-- A precise trap. -/
  | raise (t : Trap)
  /-- A translation miss (R109). -/
  | miss (va access : Nat)
  /-- A park, with an abort of the region (R117). -/
  | park (va access : Nat)
  /-- A park without an abort (R399, R471). -/
  | pageWait (va access : Nat)
  /-- Changes before its effect stand, and it is still to be done. -/
  | stay (s : State)
  | refuse (r : Refusal)

/-- An instruction in hand: the state, the issuer, and the issuer's context, which stands in the state as well until
`put` replaces it there. -/
structure Cx where
  s : State
  who : Issuer
  c : Ctx

/-- The state with the context put back. -/
def Cx.put (x : Cx) : State := x.s.putCtx x.who x.c

/-- The issuer's slot; a system or hub core answers a number no slot has. -/
def Cx.slot (x : Cx) : Nat := x.who.number

def Cx.core (x : Cx) : Nat := coreOf x.slot

/-- The number of a system or hub core (R451). -/
def Cx.sysNumber (x : Cx) : Nat :=
  match x.who with
  | .sys n => n
  | .slot _ => 0

def Cx.isFiring (x : Cx) : Bool :=
  match x.who with
  | .slot _ => true
  | .sys _ => false

def Cx.slotInc (x : Cx) : Nat := (x.s.slotAt x.slot).inc.toNat

/-- On to the next instruction. -/
def Cx.next (x : Cx) (len : Nat) : Cx :=
  { x with c := { x.c with pc := x.c.pc + BitVec.ofNat 64 len, verdicts := [], stalled := false } }

/-- A new restart region begins at the pc (R114). -/
def Cx.begin (x : Cx) : Cx := { x with c := { x.c with region := { start := x.c.pc, snap := x.c.regs, vsnap := x.c.vstream } } }

/-- Registers (R298): `s0` reads as zero and discards writes; `m0` reads as all ones. -/
def Ctx.sreg (c : Ctx) (r : BitVec 5) : Word := if r = 0 then 0 else c.regs.s.get r.toNat 0

/-- A write of a register that is still to receive an earlier result: it goes first no more (R398). -/
def Ctx.setS (c : Ctx) (r : BitVec 5) (v : Word) : Ctx :=
  if r = 0 then c else { c with regs := { c.regs with s := c.regs.s.set r.toNat v 0, due := c.regs.due.erase r.toNat } }

def Ctx.vreg (c : Ctx) (r : Nat) : Vec := c.regs.v.get r 0

def Ctx.setV (c : Ctx) (r : Nat) (v : Vec) : Ctx :=
  { c with regs := { c.regs with v := c.regs.v.set r v 0, vdue := c.regs.vdue.erase r } }

def Ctx.mask (c : Ctx) (m : Nat) : Word := if m = 0 then BitVec.allOnes 64 else c.regs.m.get m 0

def Ctx.setM (c : Ctx) (m : Nat) (v : Word) : Ctx :=
  if m = 0 then c else { c with regs := { c.regs with m := c.regs.m.set m v 0 } }

def Ctx.setStatus (c : Ctx) (v : Word) : Ctx := { c with regs := { c.regs with status := v } }

/-- A precise trap of the instruction at the pc (R449). -/
def Cx.trap (x : Cx) (cls access : Nat) (addr detail : Word) : Trap :=
  { cls := cls, async := false, access := access, subcode := 0, addr := addr, detail := detail, resume := x.c.pc,
    disposition := if cls = 11 then 2 else 0 }

/-- Who issued, for commands and lines (R131). -/
def Cx.origin (x : Cx) : Origin :=
  { uid := x.c.uid, slot := x.slot, inc := x.slotInc, asn := x.c.asn, launch := x.c.launch, gen := x.c.gen,
    pc := x.c.pc.toNat, seq := x.c.seq, mark := x.s.nextId, kind := x.c.kind,
    pipes := if ((x.s.launchOf x.c.launch x.c.gen).map (·.gang)).getD false then x.c.wid.toNat * 32 else 0 }

/-- A fresh number. -/
def Cx.fresh (x : Cx) : Nat × Cx := (x.s.nextId, { x with s := { x.s with nextId := x.s.nextId + 1 } })

/-! ## Commit, drain and abort -/

/-- The first free journal entry of a core (R118). -/
def State.journalFree (s : State) (core : Nat) : Option Nat :=
  (List.range 32).find? fun i => !(s.flights.any fun f => f.core == core && f.journal == some i)

/-- A line drains as a posted store: its home is not in tiers 0 to 2 of the issuing tile (R118). DEDUCED (68). -/
def postedHome (core pa : Nat) : Bool := !(decide (shareBase ≤ pa) || (regionOf pa == 2 && tileOfPa pa == tileOf core))

/-- Posted lines of a core that wait take its free journal entries, oldest first (R118). -/
def State.grantJournal (s : State) (core : Nat) : State :=
  match s.journalFree core with
  | none => s
  | some i =>
    match s.flights.find? fun f => f.core == core && f.posted && f.journal.isNone with
    | none => s
    | some g => { s with flights := s.flights.map fun f => if f.id = g.id then { f with journal := some i } else f }

/-- A byte of the own share as the firing's own accesses read it (R97, R172). -/
def Cx.shareByte (x : Cx) (off : Nat) : Byte :=
  x.s.heldByte 0 (shareKey x.c.uid off) (x.c.share.get off 0) x.c.uid 0

/-- A byte written to the own share on the core path: other paths need not see it until a crossing (R172). -/
def Cx.putShare (x : Cx) (off : Nat) (b : Byte) (num : Nat := 0) : Cx :=
  { x with
    s := x.s.unsee 0 x.c.uid (shareKey x.c.uid off) (x.c.share.get off 0) num
    c := { x.c with share := x.c.share.set off b 0 } }

/-- Lines of the slot on their way to any home, and releases and accesses of the firing, that the write of a line of the own share
must follow (R116, R159). -/
def Cx.shareWaits (x : Cx) (loads : List Nat) : Bool :=
  !loads.isEmpty || (x.s.flights.any fun f =>
      (f.origin.uid == x.c.uid || f.origin.slot == x.slot) && (f.phase == 0 || f.phase == 3)) ||
    x.c.pend.any fun p => match p.kind with
      | .write h .. => decide (shareBase ≤ h)
      | _ => false

/-- One buffered line leaves for its home (R116); a line of the own share that need not wait is performed at once. -/
def Cx.drain (x : Cx) (loads : List Nat) (l : Line) : Cx :=
  if shareBase ≤ l.home ∧ x.shareWaits loads = false then
    let y := (List.range 64).foldl (fun y i =>
      if l.mask.getLsbD i then y.putShare (l.home - shareBase + i) (byteOf l.data.toNat i) (x.c.seq + 1) else y) x
    { y with
      s := y.s.mended { l with home := sharePa x.slot (l.home - shareBase) }
      c := { y.c with seq := x.c.seq + 1 } }
  else
    let posted := postedHome x.core l.home
    let f : Flight :=
      { id := x.s.nextId, line := l, origin := x.origin, num := x.c.seq, core := x.core, posted := posted,
        journal := none, phase := 0, reason := 0, loads := loads, tile := (x.s.homeTile l.home).getD 0,
        epoch := x.s.epoch }
    let s := { x.s with flights := x.s.flights ++ [f], nextId := x.s.nextId + 1 }
    { x with s := if posted then s.grantJournal x.core else s, c := { x.c with seq := x.c.seq + 1 } }

/-- The loads that lines committed now must wait for (R159): the outstanding ones, and those still to be performed in the
vector stream. -/
def Ctx.loadIds (c : Ctx) : List Nat :=
  c.loads.map (·.id) ++ (c.vstream.filter fun d => !d.cells.isEmpty && !d.stores).map (·.id)

/-- A commit point (R115, R116): the shadows are discarded, the buffered lines drain in the order in which each was first
written, and a new region begins at the pc. -/
def Cx.commit (x : Cx) : Cx :=
  (x.c.region.wbuf.foldl (Cx.drain · x.c.loadIds) x).begin

/-- The loads that a queue entry or a register of the shadow still awaits. -/
def Regs.dueIds (r : Regs) : List Nat :=
  r.due.map (·.2) ++ r.vdue.map (·.2) ++
  (r.vq.flatMap fun e => e.2.filterMap fun q => match q with
    | .due i => some i
    | .val _ => none) ++
  (r.sq.flatMap fun e => e.2.filterMap fun q => match q with
    | .due i => some i
    | .val _ => none)

/-- An entry of an event queue goes back in front of what its firing has outside the queue (R124). -/
def State.holdEvent (s : State) (e : EvEntry) : State :=
  match s.slotOfUid e.uid with
  | some k =>
    match (s.slotAt k).ctx with
    | some c => s.putCtx (.slot k) { c with evHeld := e :: c.evHeld }
    | none => s
  | none => s

/-- Steps 1 and 2 of an abort, and the return to the region's start (R117).  Entries of `cr.evq` that the region read go
back to the head of the event queue, in their order (R397); entries that the full queue then has no place for wait outside it,
each in front of its firing's others. DEDUCED (112). -/
def Cx.abort (x : Cx) : Cx :=
  let r := x.c.region
  let keep := r.snap.dueIds
  let k := x.s.coreAt x.core
  let all := r.evqRead ++ k.evq
  let excess := all.drop 16
  let s := if r.evqRead = [] then x.s else x.s.setCore x.core { k with evq := all.take 16 }
  { x with
    s := (excess.reverse.filter (·.uid != x.c.uid)).foldl State.holdEvent s
    c := { x.c with
      regs := r.snap
      pc := r.start
      loads := x.c.loads.filter fun l => keep.contains l.id || l.kind != .plain
      vstream := r.vsnap
      evHeld := excess.filter (·.uid == x.c.uid) ++ x.c.evHeld
      verdicts := []
      region := { start := r.start, snap := r.snap, vsnap := r.vsnap } } }

/-! ## Race tags (R166, R168, R169) -/

/-- The writer entry of a tag: slot and serial. -/
def tagWriter (t : RaceTag) : Option (Nat × Nat) :=
  if t.getLsbD 24 then some (t.toNat % 65536, t.toNat / 65536 % 256) else none

/-- Reader entry `k` of a tag. -/
def tagReader (t : RaceTag) (k : Nat) : Option (Nat × Nat) :=
  if t.getLsbD (25 + k) then some (t.toNat / 2 ^ (32 + 24 * k) % 65536, t.toNat / 2 ^ (48 + 24 * k) % 256) else none

/-- A tag of a writer entry and four reader entries. -/
def tagOf (w : Option (Nat × Nat)) (rs : List (Option (Nat × Nat))) : RaceTag :=
  let word (e : Option (Nat × Nat)) : Nat := (e.map fun p => p.1 % 65536 + p.2 % 256 * 65536).getD 0
  BitVec.ofNat 128 (word w + (if w.isSome then 2 ^ 24 else 0) +
    ((List.range 4).map fun k =>
      (if (rs.getD k none).isSome then 2 ^ (25 + k) else 0) + word (rs.getD k none) * 2 ^ (32 + 24 * k)).sum)

/-- An entry is open at a line (R168): its serial is the one after the slot's last closed serial, and the slot's open
interval has touched the line. DESIGN CHOICE (2). -/
def State.entryOpen (s : State) (line : Nat) (e : Nat × Nat) : Bool :=
  (s.closed.get e.1 255 + 1).toNat == e.2 &&
    match (s.slotAt e.1).ctx with
    | some c => c.touched.any (·.line == line)
    | none => false

/-- The detail word for a conflicting entry (R449). -/
def conflictWord (e : Nat × Nat) (writer : Bool) : Word :=
  BitVec.ofNat 64 (e.1 + e.2 * 65536 + if writer then 2 ^ 24 else 0)

/-- The writer entry of a line conflicts with an access of a slot (R169). -/
def State.writerConflict (s : State) (slot line : Nat) : Option Word :=
  match tagWriter (s.tags.get line 0) with
  | some e => if e.1 ≠ slot ∧ s.entryOpen line e then some (conflictWord e true) else none
  | none => none

/-- An access's conflict with a line's entries (R169): a claim meets the writer and the readers, a load the writer.
DEDUCED (35). -/
def State.conflict (s : State) (slot line : Nat) (claim : Bool) : Option Word :=
  let readers := if claim then (List.range 4).filterMap (tagReader (s.tags.get line 0)) else []
  match s.writerConflict slot line with
  | some w => some w
  | none => (readers.find? fun e => e.1 != slot && s.entryOpen line e).map (conflictWord · false)

/-- The reader entries of a line with one more, in the lowest free or closed place; none while four others are open (R169,
R170).  An open entry of the slot itself serves as it is. -/
def State.recordReader (s : State) (slot serial line : Nat) : Option RaceTag :=
  let tag := s.tags.get line 0
  let rs := (List.range 4).map (tagReader tag)
  let open_ (e : Option (Nat × Nat)) : Bool := (e.map (s.entryOpen line)).getD false
  if rs.contains (some (slot, serial)) then some tag
  else
    match (List.range 4).find? fun k => !open_ (rs.getD k none) with
    | some k => some (tagOf (tagWriter tag) (rs.set k (some (slot, serial))))
    | none => none

/-- A claim takes the writer entry and clears the closed reader entries (R169). -/
def State.recordClaim (s : State) (slot serial line : Nat) : RaceTag :=
  tagOf (some (slot, serial)) ((List.range 4).map fun k =>
    (tagReader (s.tags.get line 0) k).filter (s.entryOpen line))

/-! ## Intervals and race checks -/

/-- The close of the open sync interval, and the beginning of the next (R163), which an operation that holds back its stream
begins again when it is complete: the close of a checked one is announced, in program order (R165). -/
def Cx.closeInterval (x : Cx) : Cx :=
  match x.c.checkedSince with
  | none => { x with c := { x.c with interval := x.s.time } }
  | some _ =>
    let sl := x.s.slotAt x.slot
    { x with
      s := x.s.setSlot x.slot { sl with serial := sl.serial + 1 }
      c := { x.c with
        touched := []
        interval := x.s.time
        checkedSince := none
        pend := x.c.pend ++ [{ kind := .close sl.serial.toNat, scope := 9, seq := x.c.seq, mark := 0 }] } }

/-- The interval closes where a firing stops: a forwarded store that has claimed its lines and has not been made is undone with its
region, so that it claims them again when it issues again (R163, R347). DEDUCED (165). -/
def Cx.closeStopped (x : Cx) : Cx := (if x.c.vstream.any (!·.claims.isEmpty) then x.abort else x).closeInterval

/-- A forced close of the interval (R164): a commit point, which also orders the earlier accesses before the later ones, as a
fence at slot scope does. -/
def Cx.forceClose (x : Cx) : Cx :=
  let y := x.commit.closeInterval
  { y with c := { y.c with
      pend := y.c.pend ++ [{ kind := .order, scope := 0, seq := y.c.seq, mark := y.s.nextId }] } }

/-- A forced close still holds back the firing's later accesses (R164). -/
def Ctx.ordering (c : Ctx) : Bool := c.pend.any (·.kind == .order)

/-- The open interval has accessed a line of a checked page (R163). -/
def Ctx.checked (c : Ctx) : Ctx := { c with checkedSince := some c.interval }

/-- The interval has a line recorded (or claimed), or not. -/
def Ctx.hasTouch (c : Ctx) (line : Nat) (claim : Bool) : Bool :=
  c.touched.any fun t => t.line == line && (if claim then t.claimed else t.read)

/-- A load of lines that the interval has recorded, each checked and recorded again as it is served (R167, R169, R170). -/
def Cx.record (x : Cx) : List (Nat × Nat) → Except Stop Cx
  | [] => .ok x
  | (l, va) :: ls =>
    match x.s.conflict x.slot l false with
    | some d => .error (.raise (x.trap 6 0 (BitVec.ofNat 64 va) d))
    | none =>
      match x.s.recordReader x.slot (x.s.slotAt x.slot).serial.toNat l with
      | none => .error .stall
      | some t => ({ x with s := { x.s with tags := x.s.tags.set l t 0 } } : Cx).record ls

/-- Before an access to checked lines: the forced close when they would take the interval past 64 lines (R164), and then
the check of the first line that the interval has not recorded or claimed, at its home (R167).  A line comes with its virtual
address.  A forced close waits until no forwarded access is left, whose lines the interval has recorded (R345).  A load is
served once its lines are recorded. -/
def Cx.checkLines (x : Cx) (lines : List (Nat × Nat)) (claim : Bool) : Except Stop Cx :=
  let fresh := (lines.map (·.1)).eraseDups.filter fun l => !(x.c.touched.any fun t => t.line == l)
  if 64 < x.c.touched.length + fresh.length then
    .error (if x.c.vstream = [] then .stay x.forceClose.put else .stall)
  else
    match lines.find? fun l => !(x.c.hasTouch l.1 claim) with
    | none => if claim then .ok x else x.record lines
    | some (l, va) => .error (.stay { x with c := { x.c.checked with st := .checking l va claim } }.put)

/-! ## Translation -/

/-- How an instruction uses an address: what its non-present pages do (R326, R327, R399, R471). -/
inductive Use where
  | load | store | fetch | syncRead | syncWrite
  /-- A synchronizing or atomic access that reads and writes: `AMO`, `CAS`, `JOIN`. -/
  | syncBoth
deriving DecidableEq, Repr

/-- The access field of the cause word (R450). -/
def Use.access : Use → Nat
  | .load => 0
  | .store => 1
  | .fetch => 2
  | .syncRead => 0
  | .syncWrite => 1
  | .syncBoth => 1

/-- The access of a miss, as Drone serves it: 3 for one that reads and writes (R111). -/
def Use.asks (u : Use) : Nat := if u = .syncBoth then 3 else u.access

/-- An access that returns what it reads, and so meets an uncorrectable line (R484). -/
def Use.reads : Use → Bool
  | .store => false
  | .syncWrite => false
  | _ => true

/-- An access that writes. -/
def Use.writes : Use → Bool
  | .store => true
  | .syncWrite => true
  | .syncBoth => true
  | _ => false

/-- Where an access goes. -/
inductive Place where
  /-- A home, with the leaf used. -/
  | home (pa : Nat) (leaf : Word)
  /-- The own share, through the private alias (R97). -/
  | share (off : Nat)
  /-- The core's inbox, through the inbox alias (R98). -/
  | inbox (off : Nat)
  /-- A return-zero or return-poison page (R326). -/
  | zero
  | poison
deriving DecidableEq, Repr

/-- A span register is in force and contains an address (R107). -/
def spanHolds (w : Word) (va : Nat) : Bool :=
  let lg := field w 58 6
  bit w 0 && decide (21 ≤ lg) && decide (lg ≤ 56) && (va / 2 ^ lg == field w 21 35 * 2 ^ 21 / 2 ^ lg)

/-- The page size bit that a core's spans give an address: 1 for 2 MiB (R108). -/
def Core.pageBit (k : Core) (va : Nat) : Bool :=
  match (List.range 4).find? fun i => spanHolds (k.span.get i 0) va with
  | some i => bit (k.span.get i 0) 1
  | none => true

def pageBytes (big : Bool) : Nat := if big then 2 ^ 21 else 2 ^ 10

/-- The frame of a leaf (R110). -/
def leafFrame (leaf : Word) : Nat := field leaf 13 42 * 2 ^ 10

/-- The physical address of a virtual one under a leaf. -/
def leafAddr (leaf : Word) (va : Nat) : Nat := leafFrame leaf + va % pageBytes (bit leaf 12)

/-- A TLB holds a page of one size for an address (R108).  An entry that is not present has the size of its leaf's size bit as
well. DEDUCED (124). -/
def tlbFind (l : List TlbEntry) (asn va : Nat) (big : Bool) : Option TlbEntry :=
  l.find? fun e => e.asn == asn && bit e.leaf 12 == big && e.page == va - va % pageBytes big

/-- A present leaf lets a firing make an access at an address (R110, R112, R470): the kernel-reserved ranges are looked up
at the address that the access reaches, and regions 6 and 7 are not for firings (R93). -/
def State.leafAllows (s : State) (leaf : Word) (u : Use) (va : Nat) : Bool :=
  let p := match u with
    | .load | .syncRead => bit leaf 1
    | .store | .syncWrite => bit leaf 2
    | .syncBoth => bit leaf 1 && bit leaf 2
    | .fetch => bit leaf 3
  p && bit leaf 4 && !bit leaf 11 && !s.kernelFrame (leafAddr leaf va) && decide (regionOf (leafFrame leaf) < 6)

/-- A TLB entry serves an access: it is not present, or it allows the access (R111). -/
def State.usable (s : State) (e : TlbEntry) (u : Use) (va : Nat) : Bool := !bit e.leaf 0 || s.leafAllows e.leaf u va

/-- A list with at most `n` places takes an entry; a full one gives up a place chosen by the device (R109, R428). -/
def State.tlbTake (s : State) (n : Nat) (l : List TlbEntry) (e : TlbEntry) : List TlbEntry :=
  let l := l.filter fun f => !(f.asn == e.asn && f.page == e.page && bit f.leaf 12 == bit e.leaf 12)
  if l.length < n then e :: l else e :: l.eraseIdx (s.pick l.length)

/-- What a page that is not present does (R326, R327, R399, R471). -/
def Cx.nonPresent (x : Cx) (u : Use) (policy va n : Nat) : Except Stop Place :=
  if u = .fetch then
    if policy = 0 then .error (.pageWait va 2) else .error (.raise (x.trap 11 2 (BitVec.ofNat 64 va) (BitVec.ofNat 64 n)))
  else if policy = 3 then .error (.raise (x.trap 11 u.access (BitVec.ofNat 64 va) (BitVec.ofNat 64 n)))
  else
    match u with
    | .load => if policy = 0 then .error (.park va 0) else if policy = 1 then .ok .zero else .ok .poison
    | .syncRead => if policy = 0 then .error (.pageWait va 0) else if policy = 1 then .ok .zero else .ok .poison
    | .store => .error (.park va 1)
    | _ => .error (.pageWait va 1)

/-- The state region of a clustering bank within its quad store (R226). DEDUCED (52). -/
def bankState (pa : Nat) : Bool :=
  tierOf pa == some 1 && decide (0xDC000 ≤ pa % 0x100000)

/-- Checks at a home that a present leaf allows: inboxes and what no tier holds (R98), a bank's state region (R490), the
tile's role (R73), backing (R468), and, for an access that reads, integrity (R484).  A store to an unbacked address is decided at
its home (R468). -/
def Cx.atHome (x : Cx) (u : Use) (pa : Nat) (leaf : Word) (va : Nat) : Except Stop Place :=
  let wrongRole := regionOf pa == 2 && !x.s.compute (tileOfPa pa)
  let outside := populated pa == false || (regionOf pa == 2 && (tierOf pa).isNone)
  let held := bankState pa && u.writes
  if outside ∨ held then .error (.raise (x.trap 2 u.access (BitVec.ofNat 64 va) leaf))
  else if tierOf pa = some 0 then .error (.raise (x.trap 1 u.access (BitVec.ofNat 64 va) 0))
  else if wrongRole then .error (.raise (x.trap 2 u.access (BitVec.ofNat 64 va) leaf))
  else if u ≠ .store ∧ x.s.unbacked pa then .error (.raise (x.trap 2 u.access (BitVec.ofNat 64 va) leaf))
  else if u.reads ∧ x.s.badLines.contains (lineOf pa) then
    .error (.raise (x.trap 9 u.access (BitVec.ofNat 64 (lineOf va))
      (BitVec.ofNat 64 (lineOf pa + (tierOf pa).getD 0))))
  else .ok (.home pa leaf)

/-- A page is being migrated: accesses to its old or its new frame are parked (R179). -/
def State.migrating (s : State) (pa : Nat) : Bool :=
  s.pageMoves.any fun m =>
    let n := pageBytes (bit m.old 12)
    pa / n == leafFrame m.old / n || pa / n == leafFrame m.new / n

/-- A page has been copied to its new frame, and its old one, which holds a home, may no longer be used (R179). -/
def State.stranded (s : State) (pa : Nat) : Bool :=
  s.pageMoves.any fun m => m.phase == 1 && pa / pageBytes (bit m.old 12) == leafFrame m.old / pageBytes (bit m.old 12)

/-- No scale-up port is set to UALink: a peer cannot be reached, and an access to it waits (R29, R145). DESIGN CHOICE (128). -/
def State.cutOff (s : State) (pa : Nat) : Bool := regionOf pa == 5 && (List.range 64).all s.host.etherPorts.contains

/-- Drone's negative answer for an address, if the firing has one (R111). -/
def Ctx.verdictAt (c : Ctx) (va : Nat) : Option (Option Word) := (c.verdicts.find? (·.1 == va)).map (·.2)

/-- Translation of a firing's access of `n` bytes (R97, R98, R107 to R112, R324, R469, R470): the place, and the context
with the core TLB filled where only the tile TLB hit. -/
def Cx.translate (x : Cx) (u : Use) (plain : Bool) (va n : Nat) : Except Stop (Place × Cx) :=
  let addr : Word := BitVec.ofNat 64 va
  if 2 ^ 56 ≤ va then .error (.raise (x.trap 1 u.access addr (BitVec.ofNat 64 n)))
  else if 0xFFFFFFFFFFE000 ≤ va then
    let line := lineOf (sharePa x.slot va)
    if u = .fetch then .error (.raise (x.trap 2 2 addr 0))
    else if u.reads ∧ x.s.badLines.contains line then
      .error (.raise (x.trap 9 u.access (BitVec.ofNat 64 (lineOf va)) (BitVec.ofNat 64 line)))
    else .ok (.share (va % 0x2000), x)
  else if 0xFFFFFFFFFFC000 ≤ va then
    if plain ∧ u = .load then .ok (.inbox (va % 0x2000), x) else .error (.raise (x.trap 2 u.access addr 0))
  else
    let k := x.s.coreAt x.core
    let t := x.s.tileAt (tileOf x.core)
    let big := k.pageBit va
    let serve (x : Cx) (leaf : Word) : Except Stop (Place × Cx) :=
      if !bit leaf 0 then (x.nonPresent u (field leaf 9 2) va n).map (·, x)
      else if x.s.migrating (leafAddr leaf va) ∨ x.s.cutOff (leafAddr leaf va) then .error .stall
      else (x.atHome u (leafAddr leaf va) leaf va).map (·, x)
    match (tlbFind k.tlb x.c.asn va big).filter (x.s.usable · u va) with
    | some e => serve x e.leaf
    | none =>
      match (tlbFind t.tlb x.c.asn va big).filter (x.s.usable · u va) with
      | some e => serve { x with s := x.s.setCore x.core { k with tlb := x.s.tlbTake 64 k.tlb e } } e.leaf
      | none =>
        match x.c.verdictAt va with
        | some none => .error (.raise (x.trap 1 u.access addr (BitVec.ofNat 64 n)))
        | some (some leaf) => .error (.raise (x.trap 2 u.access addr leaf))
        | none => .error (.miss va u.asks)

/-- The reserved part of a tile's memory (R94). -/
def reservedPart (off : Nat) : Bool := decide (0x310000 ≤ off) && decide (off < 0x400000)

/-- Offsets in a tile's memory that no load or store of the host reaches: accumulator regions (R99) and the reserved part (R94). -/
def unreachable (off : Nat) : Bool := (decide (off < 0x100000) && decide (0x10000 ≤ off % 0x20000)) || reservedPart off

/-- A system or hub core uses physical addresses (R264, log entry 14), a system core its landing SRAM among them (R452).  The
permission trap meets an address that does not exist or that the core may not reach: a kernel-reserved frame, an inbox and region 6
for a hub core (R98, R264, R265, R454), a security-core register (R264), a write of a bank's state region (R490), an unbacked
block (R468); and the integrity trap a read of an uncorrectable line (R484).  Each is an ordinary exception of that core (R453). DEDUCED (29). DEDUCED (113). -/
def Cx.physical (x : Cx) (n : Nat) (u : Use) (va : Nat) : Except Stop Place :=
  let own := decide (n < 16) && Config.inLanding n va
  let off := va % 0x800000
  let none_ := decide (2 ^ 52 ≤ va) || !populated va || (regionOf va == 2 && reservedPart off)
  let inbox := regionOf va == 2 && decide (0x300000 ≤ off) && decide (off < 0x310000)
  let barred := (decide (16 ≤ n) && (x.s.kernelFrame va || regionOf va == 6 || inbox)) || (bankState va && u.writes) ||
    x.s.unbacked va || (regionOf va == 6 && Config.securityRegister va)
  if own then .ok (.home va 0)
  else if none_ ∨ barred then .error (.raise (x.trap 2 u.access (BitVec.ofNat 64 va) 0))
  else if x.s.cutOff va then .error .stall
  else if u.reads ∧ x.s.badLines.contains (lineOf va) then
    .error (.raise (x.trap 9 u.access (BitVec.ofNat 64 (lineOf va)) (BitVec.ofNat 64 (lineOf va + (tierOf va).getD 0))))
  else .ok (.home va 0)

/-- Alignment (R324), and then translation for a firing or the physical address for a system or hub core.  A forced close
holds back a firing's data accesses until it is complete (R164). -/
def Cx.reach (x : Cx) (u : Use) (plain : Bool) (va n : Nat) : Except Stop (Place × Cx) :=
  if va % n ≠ 0 then .error (.raise (x.trap 3 u.access (BitVec.ofNat 64 va) (BitVec.ofNat 64 n)))
  else
    match x.who with
    | .slot _ => if x.c.ordering ∧ u ≠ .fetch then .error .stall else x.translate u plain va n
    | .sys m => (x.physical m u va).map (·, x)

/-! ## Core-path data -/

/-- A byte that the write buffer holds (R114). -/
def Region.buffered (r : Region) (key : Nat) : Option Byte :=
  match r.wbuf.find? fun l => l.home == lineOf key with
  | some l => if l.mask.getLsbD (key % 64) then some (byteOf l.data.toNat (key % 64)) else none
  | none => none

/-- A committed line of the firing is still on its way to the line of an address (R95, R158). -/
def State.inFlight (s : State) (uid pa : Nat) : Bool :=
  s.flights.any fun f => f.origin.uid == uid && f.phase != 1 && f.line.home == lineOf pa

/-- A byte that a release of the firing is still to write (R154), the latest such release first. -/
def Ctx.owedByte (c : Ctx) (key : Nat) : Option Byte :=
  c.pend.reverse.findSome? fun p => match p.kind with
    | .write h n v => if h ≤ key ∧ key < h + n then some (byteOf v.toNat (key - h)) else none
    | _ => none

/-- A byte that the firing has written and that is still on its way to its home: in a committed line or owed by a release,
whichever comes later in program order (R158). -/
def Cx.onWay (x : Cx) (key : Nat) : Option Byte :=
  let f := (x.s.flights.filter fun f => f.origin.uid == x.c.uid && (f.phase == 0 || f.phase == 3) &&
    f.line.home == lineOf key && f.line.mask.getLsbD (key % 64)).getLast?
  let p := (x.c.pend.filter fun p => match p.kind with
    | .write h n _ => decide (h ≤ key) && decide (key < h + n)
    | _ => false).getLast?
  match f, p with
  | some f, some p => if p.seq ≤ f.num then some (byteOf f.line.data.toNat (key % 64)) else x.c.owedByte key
  | some f, none => some (byteOf f.line.data.toNat (key % 64))
  | none, _ => x.c.owedByte key

/-- The byte at a place of the own share or at a home, as access `acc` of the step reads it on the core path: the last store of
the firing to it, if that has not reached the home, and otherwise the home's (R95, R158). -/
def Cx.coreByte (x : Cx) (key : Nat) (acc : Nat := 0) : Byte :=
  match x.c.region.buffered key with
  | some b => b
  | none =>
    match x.onWay key with
    | some b => b
    | none => if shareBase ≤ key then x.shareByte (key - shareBase) else x.s.readByte 0 key x.c.uid acc

/-- An outstanding access of the firing reads or writes some of `n` bytes at a home. -/
def QLoad.touches (l : QLoad) (pa n : Nat) : Bool :=
  match l.kind with
  | .plain => l.cells.any fun e => e.1.any fun a => decide (pa ≤ a) && decide (a < pa + n)
  | .atomic h m .. => decide (h < pa + n) && decide (pa < h + m)
  | .lock _ h _ m => decide (h < pa + n) && decide (pa < h + m)

/-- An outstanding atomic waits for a lock bit that its own firing holds (R122, R403). -/
def Ctx.selfLocked (c : Ctx) (l : QLoad) : Bool :=
  match l.kind with
  | .atomic h .. => c.lock.any (·.1 == lockOf h)
  | _ => false

/-- An outstanding `AMO` or `CAS`. -/
def QLoad.atomic (l : QLoad) : Bool := match l.kind with
  | .atomic .. => true
  | _ => false

/-- The homes that an outstanding access reads or writes. -/
def QLoad.homes (l : QLoad) : List Nat :=
  match l.kind with
  | .plain => l.cells.filterMap (·.1)
  | .atomic h n .. => (List.range n).map (h + ·)
  | .lock _ h _ n => (List.range n).map (h + ·)

/-- The accesses that cannot be performed before the firing clears its own lock bit: atomics that wait for that bit, and what comes
behind them (R122, R159, R403). -/
def Ctx.stuck (c : Ctx) : List QLoad :=
  c.loads.foldl (fun acc l =>
    let before := acc.filter fun q => decide (q.id < l.id)
    if c.selfLocked l || (l.atomic && !before.isEmpty) || l.homes.any (fun a => before.any (·.touches a 1)) then acc ++ [l]
    else acc) []

/-- An access comes after the firing's outstanding accesses to the same bytes, so that it never sees less of the home's writes
than they (R158, R160). DEDUCED (114). -/
def Ctx.awaits (c : Ctx) (pa n : Nat) : Bool := c.loads.any (·.touches pa n)

/-- Byte `i` of the poison (R326). -/
def poisonByte (a : Nat) : Byte := byteOf 0xDEADBEEFDEADBEEF (a % 8)

/-- A message as the inbox shows it: its 48-byte header and its payload (R98, R130). -/
def Packet.bytes (p : Packet) : List Byte :=
  let le (n v : Nat) : List Byte := (List.range n).map (byteOf v)
  le 1 p.opcode ++ le 1 p.flags ++ le 2 p.len ++ le 2 (p.node + p.agent * 2048) ++ le 2 p.tslot ++ le 1 p.tinc ++ le 1 0 ++
    le 2 p.sslot ++ le 1 p.sinc ++ le 3 p.stamp ++ le 8 p.reply ++ le 8 p.op0 ++ le 8 p.op1 ++ le 8 p.aux ++ p.payload

/-- A byte of a core's inbox (R98): 0 in an entry that holds no message. DESIGN CHOICE (172). -/
def State.inboxByte (s : State) (core off : Nat) : Byte :=
  match (s.coreAt core).inbox.find? fun m => m.entry == off / 512 with
  | some m => (m.packet.bytes).getD (off % 512) 0
  | none => 0

/-- The home of a barrier object that a `SEND` names, where its tile translates the address (R371, R386). -/
def State.sentHome (s : State) (p : Packet) : Option Nat :=
  ((s.tileAt (tileOf (coreOf p.origin.slot))).tlb.find? fun t =>
    t.asn == p.origin.asn && t.page == p.op0 - p.op0 % pageBytes (bit t.leaf 12) && bit t.leaf 0).map fun t =>
      leafAddr t.leaf p.op0

/-- Messages that have been sent, or composed, and not delivered. -/
def State.underWay (s : State) : List Packet :=
  s.flying ++ s.tiles.flatMap fun e => (e.2.inj.filterMap fun i => match i with
    | .packet p _ => some p
    | .fence => none) ++ e.2.held

/-- A bank command waits for an earlier one of its firing that was sent to the bank of another tile (R176, R237). -/
def State.bankSecond (s : State) (p : Packet) : Bool :=
  (p.agent == 10 || p.agent == 11) && p.home.isSome && s.underWay.any fun q =>
    q.home.isSome && q.origin.uid == p.origin.uid && q.agent == p.agent && q.node != p.node && decide (q.origin.mark < p.origin.mark)

/-- A message of a tile for a node that has been sent in class 0 and waits for nothing at its home: a later request of the tile
to that node does not overtake it (R127, R134). DEDUCED (69). -/
def State.sentBefore (s : State) (tile node : Nat) : Bool :=
  let before (p : Packet) : Bool :=
    tileOf (coreOf p.origin.slot) == tile && p.node == node && decide (8 ≤ p.agent) && p.flags / 16 % 4 == 0 &&
      !s.bankSecond p &&
        (p.agent != 14 || (p.home.orElse fun _ => s.sentHome p).any fun h =>
          (s.lockAt (lockOf h)).owner.isNone && !s.stranded h)
  s.flying.any before || (s.tileAt tile).inj.any fun e => match e with
    | .packet p _ => before p
    | .fence => false

/-- Two addresses lie in the window of one peer (R145). -/
def samePeer (a b : Nat) : Bool := regionOf a == 5 && regionOf b == 5 && a / 2 ^ 41 % 256 == b / 2 ^ 41 % 256

/-- Accesses of the firing to a peer that come before its later ones to that peer (R145): lines on their way, and accesses that
have not returned. -/
def State.peerBefore (s : State) (c : Ctx) (pa before : Nat) : Bool :=
  let peer (a : Nat) : Bool := samePeer a pa
  regionOf pa == 5 &&
    ((s.flights.any fun f => f.origin.uid == c.uid && (f.phase == 0 || f.phase == 3) && decide (f.id < before) && peer f.line.home) ||
      c.loads.any fun l => decide (l.id < before) && match l.kind with
        | .plain => l.cells.any fun e => e.1.any peer
        | .atomic h .. => peer h
        | .lock .. => false)

/-- An access to a home must wait for what its tile or its firing has sent there before. -/
def Cx.behind (x : Cx) (pa : Nat) : Bool :=
  x.s.sentBefore (tileOf x.core) (x.s.homeNode pa) || x.s.peerBefore x.c pa x.s.nextId

/-- A load of `n` bytes on the core path, little-endian (R325, R326): the value and the context. -/
def Cx.loadAt (x : Cx) (p : Place) (va n : Nat) : Except Stop (Nat × Cx) :=
  match p with
  | .share off =>
    if x.s.inFlight x.c.uid (shareBase + off) then .error .stall
    else .ok (gatherBytes (x.coreByte ·) (shareBase + off) n, x)
  | .inbox off => .ok (gatherBytes (x.s.inboxByte x.core) off n, x)
  | .zero => .ok (0, x)
  | .poison =>
    .ok (gatherBytes poisonByte va n, { x with c := x.c.setStatus (x.c.regs.status ||| 0x2000) })
  | .home pa leaf =>
    if x.s.inFlight x.c.uid pa ∨ x.c.awaits pa n ∨ x.behind pa then .error .stall
    else if bit leaf 8 then do
      let x ← x.checkLines [(lineOf pa, lineOf va)] false
      .ok (gatherBytes (x.coreByte ·) pa n, x)
    else .ok (gatherBytes (x.coreByte ·) pa n, x)

/-- A load at a virtual address (R324 to R326). -/
def Cx.load (x : Cx) (va n : Nat) : Except Stop (Nat × Cx) := do
  let (p, x) ← x.reach .load true va n
  x.loadAt p va n

/-- Bytes put into a line. -/
def Line.merge (l : Line) (off n v : Nat) : Line :=
  let keep : Nat := l.data.toNat % 2 ^ (8 * off) + 2 ^ (8 * (off + n)) * (l.data.toNat / 2 ^ (8 * (off + n)))
  { l with
    mask := l.mask ||| BitVec.ofNat 64 ((2 ^ n - 1) * 2 ^ off)
    data := BitVec.ofNat 512 (keep + 2 ^ (8 * off) * (v % 2 ^ (8 * n))) }

/-- A store of `n` bytes into the write buffer; the bytes lie in one line (R114, R327). -/
def Cx.buffer (x : Cx) (key va n v : Nat) : Cx :=
  let r := x.c.region
  let base := lineOf key
  let wbuf :=
    if r.wbuf.any fun l => l.home == base then
      r.wbuf.map fun l => if l.home = base then l.merge (key % 64) n v else l
    else r.wbuf ++ [({ home := base, va := lineOf va, mask := 0, data := 0 } : Line).merge (key % 64) n v]
  { x with c := { x.c with region := { r with wbuf := wbuf, since := some (r.since.getD x.s.time) } } }

/-- The lines that stores to these keys would add to the buffer. -/
def Region.newLines (r : Region) (keys : List Nat) : List Nat :=
  (keys.map lineOf).eraseDups.filter fun b => !(r.wbuf.any fun l => l.home == b)

/-- Stores to these keys would need a 65th buffer line (R115). -/
def Cx.full (x : Cx) (keys : List Nat) : Bool :=
  decide (64 < x.c.region.wbuf.length + (x.c.region.newLines keys).length)

/-- The region commits before stores that would need a 65th buffer line (R115, R366). -/
def Cx.makeRoom (x : Cx) (keys : List Nat) : Cx := if x.full keys then x.commit else x

/-- The key of a place that a store reaches. -/
def Place.key : Place → Nat
  | .home pa _ => pa
  | .share off => shareBase + off
  | .inbox off => off
  | .zero => 0
  | .poison => 0

/-- A place as a number: homes below 2^52, then the own share, the inbox, and the two pages that answer by themselves. -/
def Place.code : Place → Nat
  | .home pa _ => pa
  | .share off => shareBase + off
  | .inbox off => 2 ^ 56 + off
  | .zero => 2 ^ 57
  | .poison => 2 ^ 58

/-- The checked line of a place, if any. -/
def Place.checkedLine : Place → Option Nat
  | .home pa leaf => if bit leaf 8 then some (lineOf pa) else none
  | _ => none

/-- A store at a virtual address (R327): translation and permission at once, the claim of a checked line, room in the
buffer, and the bytes. -/
def Cx.store (x : Cx) (va n v : Nat) : Except Stop Cx := do
  let (p, x) ← x.reach .store true va n
  match x.who with
  | .sys _ => .ok { x with s := x.s.writeMem 0 x.c.uid p.key n v }
  | .slot _ =>
    let x ← match p.checkedLine with
      | some l => x.checkLines [(l, lineOf va)] true
      | none => .ok x
    .ok ((x.makeRoom [p.key]).buffer p.key va n v)

/-! ## Queues -/

/-- The region commits before an instruction that would pop a queue of it for the 33rd time (R115): queues are numbered 0
to 7. -/
def Cx.popRoom (x : Cx) (qs : List Nat) : Cx :=
  if qs.any fun q => decide (32 ≤ x.c.region.pops.get q 0) then x.commit else x

/-- A scalar queue has no free place (R289). -/
def Cx.sFull (x : Cx) (q : Nat) : Bool := decide (8 ≤ (x.c.regs.sq.get q []).length)

/-- The oldest entry of a scalar queue (R289); a pop from an empty queue, or of an entry whose data is outstanding,
blocks. -/
def Cx.popS (x : Cx) (q : Nat) : Except Stop (Word × Cx) :=
  let x := x.popRoom [q]
  match x.c.regs.sq.get q [] with
  | .val v :: rest =>
    .ok (v, { x with c := { x.c with
      regs := { x.c.regs with sq := x.c.regs.sq.set q rest [] }
      region := { x.c.region with pops := x.c.region.pops.set q (x.c.region.pops.get q 0 + 1) 0 } } })
  | _ => .error .stall

/-- A scalar queue takes an entry; a push to a full one blocks (R289). -/
def Cx.pushS (x : Cx) (q : Nat) (e : QEnt Word) : Except Stop Cx :=
  let l := x.c.regs.sq.get q []
  if 8 ≤ l.length then .error .stall
  else .ok { x with c := { x.c with regs := { x.c.regs with sq := x.c.regs.sq.set q (l ++ [e]) [] } } }

/-- The oldest entry of a vector queue. -/
def Cx.popV (x : Cx) (q : Nat) : Except Stop (Vec × Cx) :=
  let x := x.popRoom [q]
  match x.c.regs.vq.get q [] with
  | .val v :: rest =>
    .ok (v, { x with c := { x.c with
      regs := { x.c.regs with vq := x.c.regs.vq.set q rest [] }
      region := { x.c.region with pops := x.c.region.pops.set q (x.c.region.pops.get q 0 + 1) 0 } } })
  | _ => .error .stall

/-- A vector queue takes an entry. -/
def Cx.pushV (x : Cx) (q : Nat) (e : QEnt Vec) : Except Stop Cx :=
  let l := x.c.regs.vq.get q []
  if 4 ≤ l.length then .error .stall
  else .ok { x with c := { x.c with regs := { x.c.regs with vq := x.c.regs.vq.set q (l ++ [e]) [] } } }

end Sys2Proof.Machine
end

