-- ==== Sys2Proof/Machine/Issue.lean ====
section
/-! DEFINITION. Taking an exception, completion entries, realign waits, and leaving and taking a slot. -/

namespace Sys2Proof.Machine

/-! ## Traps -/

/-- An exception stops an issuer (R449 to R451, R454): its context keeps the trap's words and the resume address, and the
trap joins the queue of the system cluster in the order in which traps stop their firings. DEDUCED (30). -/
def State.takeTrap (s : State) (who : Issuer) (c : Ctx) (t : Trap) : State :=
  let inside := match c.st with
    | .waiting w => some w
    | _ => none
  let s := s.putCtx who { c with st := .trapped t inside, stalled := false, verdicts := [] }
  { s with trapq := s.trapq ++ [who.number] }

/-- The cause word of a trap (R450). -/
def Trap.cause (t : Trap) (slot inc : Nat) : Word :=
  BitVec.ofNat 64 (t.cls + (if t.async then 32 else 0) + t.access * 64 + t.subcode * 256 + slot % 65536 * 65536 +
    inc * 2 ^ 32)

/-- A precise trap of the instruction in hand.  A memory-model trap closes the interval (R475). DEDUCED (92). -/
def Cx.raise (x : Cx) (t : Trap) : State :=
  let x := if t.cls = 6 then x.closeInterval else x
  x.s.takeTrap x.who x.c t

/-- An orphan report, recorded by Drone against the launch (R456). -/
def State.orphan (s : State) (cls access slot inc : Nat) (addr detail : Word) (launch : Option (Nat × Nat) := none)
    (async : Bool := false) (subcode : Nat := 0) : State :=
  { s with orphans := s.orphans ++
      [{ cls := cls, access := access, slot := slot, inc := inc, addr := addr, detail := detail, async := async,
         subcode := subcode, launch := launch }] }

/-- A trap that its firing can no longer take (R456). -/
def State.orphanTrap (s : State) (t : Trap) (slot inc launch gen : Nat) : State :=
  s.orphan t.cls t.access slot inc t.addr t.detail (some (launch, gen)) t.async t.subcode

/-- Operations that hold back the streams until they complete, every later access with them (R155). DESIGN CHOICE (178). -/
def PendKind.holds : PendKind → Bool
  | .fence .. | .atomic .. | .load .. | .fixed .. => true
  | _ => false

/-- An asynchronous trap reaches its firing wherever it is (R449, R456): a waiting firing stops in its wait; one whose
synchronizing operation still waits for earlier lines stops before that operation, which issues again after `ERET`; another
one stops at its next boundary; one that has retired leaves an orphan report. DEDUCED (91). -/
def State.async (s : State) (o : Origin) (t : Trap) : State :=
  match s.slotOfUid o.uid with
  | some k =>
    match (s.slotAt k).ctx with
    | some c =>
      match c.st with
      | .waiting _ => s.takeTrap (.slot k) c { t with resume := c.pc }
      | .ended _ => s.orphanTrap t o.slot o.inc o.launch o.gen
      | .held =>
        if c.pend.getLast?.any (fun p => p.kind.holds && p.announced.isNone) then
          s.takeTrap (.slot k) { c with pend := c.pend.dropLast } { t with resume := c.pc }
        else s.putCtx (.slot k) { c with asyncs := c.asyncs ++ [t] }
      | _ => s.putCtx (.slot k) { c with asyncs := c.asyncs ++ [t] }
    | none => s
  | none =>
    if s.ready.any fun r => r.ctx.any (·.uid == o.uid) then
      { s with ready := s.ready.map fun r =>
          match r.ctx with
          | some c => if c.uid = o.uid then { r with ctx := some { c with asyncs := c.asyncs ++ [t] } } else r
          | none => r }
    else s.orphanTrap t o.slot o.inc o.launch o.gen

/-- An asynchronous trap's record (R449). -/
def asyncTrap (cls access : Nat) (addr detail : Word) : Trap :=
  { cls := cls, async := true, access := access, subcode := 0, addr := addr, detail := detail, resume := 0,
    disposition := 0 }

/-! ## Event-queue places -/

/-- Entries held outside a core's event queue enter it while places are free (R124).  Those of the firing in the lower slot
come first. DESIGN CHOICE (122). -/
def State.evFill (s : State) (core : Nat) : State :=
  (List.range 8).foldl (fun s i =>
    let k := core * 8 + i
    match (s.slotAt k).ctx with
    | some c =>
      let q := s.coreAt core
      let n := 16 - q.evq.length
      if c.evHeld = [] ∨ n = 0 then s
      else (s.setCore core { q with evq := q.evq ++ c.evHeld.take n }).putCtx (.slot k)
        { c with evHeld := c.evHeld.drop n }
    | none => s) s

/-- A completion entry is posted to a firing's core (R124); one for a firing that has retired is discarded, with an orphan
report if it carries an error. -/
def State.postEvent (s : State) (o : Origin) (tag status engine addr : Nat) : State :=
  let word : Word := BitVec.ofNat 64
    (tag % 2 ^ 24 + status % 256 * 2 ^ 24 + engine * 2 ^ 32 + o.slot * 2 ^ 36 + o.inc * 2 ^ 52 + 2 ^ 63)
  let e : EvEntry := { uid := o.uid, word := word, addr := BitVec.ofNat 64 addr }
  match s.slotOfUid o.uid with
  | some k =>
    match (s.slotAt k).ctx with
    | some c =>
      match c.st with
      | .ended _ => s
      | _ => (s.putCtx (.slot k) { c with evHeld := c.evHeld ++ [e] }).evFill (coreOf k)
    | none => s
  | none =>
    { s with ready := s.ready.map fun r =>
        match r.ctx with
        | some c => if c.uid = o.uid then { r with ctx := some { c with evHeld := c.evHeld ++ [e] } } else r
        | none => r }

/-! ## Realign waits (R338, R339) -/

/-- A context counts as a peer of its launch's realign waits: it has not ended and is in no `WAIT`. DEDUCED (38). -/
def Ctx.realigns (c : Ctx) (launch gen : Nat) : Bool :=
  c.launch == launch && c.gen == gen &&
    match c.st with
    | .waiting _ => false
    | .trapped _ (some _) => false
    | .ended _ => false
    | _ => true

/-- A context is in a realign wait at an address. -/
def Ctx.realignAt (c : Ctx) (pc : Word) : Bool :=
  match c.st with
  | .realign .. => c.pc == pc
  | _ => false

/-- A realign wait ends; the firing goes on after the `REALIGN` (R338). -/
def Ctx.realigned (c : Ctx) : Ctx := { c with st := .running, pc := c.pc + 4 }

/-- The realign waits of a tile are tested (R338, R339): where every peer waits at one address, all leave together.
DEDUCED (38). -/
def State.realignTest (s : State) (tile : Nat) : State :=
  (List.range 64).foldl (fun s i =>
    match (s.slotAt (coreBase tile * 8 + i)).ctx with
    | some c =>
      let peers := (List.range 64).filter fun j =>
        ((s.slotAt (coreBase tile * 8 + j)).ctx.map (·.realigns c.launch c.gen)).getD false
      let at_ (j : Nat) : Bool := ((s.slotAt (coreBase tile * 8 + j)).ctx.map (·.realignAt c.pc)).getD false
      if c.realignAt c.pc ∧ peers.all at_ then
        peers.foldl (fun s j =>
          match (s.slotAt (coreBase tile * 8 + j)).ctx with
          | some d => s.putCtx (.slot (coreBase tile * 8 + j)) d.realigned
          | none => s) s
      else s
    | none => s) s

/-! ## Leaving and taking a slot -/

/-- A matrix command of the firing is queued, granted or held back (R64, R340). -/
def State.matrixBusy (s : State) (uid : Nat) : Bool :=
  (s.cores.any fun e => e.2.mq.any (·.origin.uid == uid)) ||
    s.tiles.any fun e => e.2.granted.any (·.origin.uid == uid) || e.2.mwait.any (·.origin.uid == uid) ||
      e.2.mfly.any (·.origin.uid == uid)

/-- A forwarding entry is live (R66, R504). -/
def Fwd.live (f : Fwd) (time : Nat) : Bool := f.dst.isNone || decide (time < f.expiry)

/-- An incarnation that the device may not give to a slot now (R66). -/
def Slot.barred (sl : Slot) (time : Nat) (i : BitVec 8) : Bool :=
  (sl.fwd.any fun f => f.live time && f.inc == i.toNat) ||
    sl.recent.any fun r => r.1 == i.toNat && decide (time < r.2 + 128)

/-- The next incarnation that the device may give to a slot, or none while all 256 are barred (R6, R66). -/
def Slot.nextInc (sl : Slot) (time : Nat) : Option (BitVec 8) :=
  ((List.range 256).map fun i => sl.inc + BitVec.ofNat 8 (i + 1)).find? fun i => !sl.barred time i

/-- The charges at a district's leaf of leases that have expired: they have been returned, though their event is still to come
(R259). -/
def State.expiredCharges (s : State) (district : Nat) : Nat :=
  (s.slots.map fun e =>
    if districtOf (coreOf e.1) = district then
      match e.2.ctx.bind (·.boost) with
      | some b => if !b.suspended && decide (b.expiry ≤ s.time) then b.charge else 0
      | none => 0
    else 0).sum

/-- The charges reserved at a district's leaf (R258, R259). -/
def State.reservedNow (s : State) (district : Nat) : Nat := s.power.reserved.get district 0 - s.expiredCharges district

/-- The district's surplus covers a charge (R258). -/
def State.covers (s : State) (district charge : Nat) : Bool :=
  decide (s.reservedNow district + charge ≤ s.power.surplus.get district 0)

/-- A charge reserved at a district's leaf. -/
def State.reserve (s : State) (district charge : Nat) : State :=
  { s with power := { s.power with
    reserved := s.power.reserved.set district (s.power.reserved.get district 0 + charge) 0 } }

/-- A charge returned to a district's leaf (R259). -/
def State.unreserve (s : State) (district charge : Nat) : State :=
  { s with power := { s.power with
    reserved := s.power.reserved.set district (s.power.reserved.get district 0 - charge) 0 } }

/-- A running boost lease is suspended: its clock stops and its charge is returned (R259); it is tried again when the firing
next issues. DEDUCED (76). -/
def State.suspend (s : State) (core : Nat) (c : Ctx) : State × Ctx :=
  match c.boost with
  | some b =>
    if b.suspended then (s, { c with boost := some { b with due := true } })
    else (s.unreserve (districtOf core) b.charge,
      { c with boost := some { b with suspended := true, left := b.expiry - s.time, due := true } })
  | none => (s, c)

/-- A suspended boost lease resumes where the district's surplus covers its charge (R259). -/
def State.unsuspend (s : State) (core : Nat) (c : Ctx) : State × Ctx :=
  match c.boost with
  | some b =>
    if b.suspended ∧ s.covers (districtOf core) b.charge then
      (s.reserve (districtOf core) b.charge,
        { c with boost := some { b with suspended := false, expiry := s.time + b.left, due := false } })
    else (s, c)
  | none => (s, c)

/-- The boost leases of the resident firings stand still (R259). -/
def State.suspendAll (s : State) : State :=
  s.slots.foldl (fun s e =>
    match (s.slotAt e.1).ctx with
    | some c =>
      let (s, c) := s.suspend (coreOf e.1) c
      s.putCtx (.slot e.1) c
    | none => s) s

/-- A system core serves no firing's trap any more, and the latch of one is released (R457). -/
def SysCore.unserve (k : SysCore) : SysCore :=
  { k with
    latch := if k.serving.head?.any fun n => decide (n < 65536) then none else k.latch
    serving := k.serving.filter fun n => decide (65536 ≤ n) }

/-- Slots whose traps are in service or queued, in that order. -/
def State.trapped (s : State) : List Nat :=
  (s.sys.flatMap fun e => e.2.serving.filter (decide <| · < 65536)) ++ s.trapq.filter (decide <| · < 65536)

/-- The firings stop, where a change of the state has that effect (R69): their boost leases stand still (R259), and the latches of
their traps are released, with the traps queued again (R457). DEDUCED (105). -/
def State.stopping (s t : State) : State :=
  if s.halted ∨ !t.halted then t
  else
    let t := t.suspendAll
    { t with
      trapq := t.trapped ++ t.trapq.filter (decide <| 65536 ≤ ·)
      sys := t.sys.map fun e => (e.1, e.2.unserve) }

/-- A command reads or writes a sub-tile: all but `MLDB`. -/
def MCmd.usesSub (m : MCmd) : Bool := m.kind != 4

/-- A released sub-tile: the firing whose command has waited longest for it is the next owner, from that command on (R213, R378).
DEDUCED (49). -/
def State.released (s : State) (core k : Nat) : SubTile :=
  let t := s.tileAt (tileOf core)
  match ((s.coreAt core).mq ++ t.mwait ++ t.mfly).find? fun m => m.core == core && m.usesSub && m.k == k with
  | some m => { owner := some m.origin.uid, logical := m.logical }
  | none => {}

/-- A firing leaves its slot: what travels with it goes into its context (R64), and the slot keeps a forwarding entry,
parked until the firing takes a slot (R66, R504); a sub-tile goes to the firing whose command waits for it (R213).  A realign wait ends
(R339). -/
def State.leave (s : State) (k : Nat) (c : Ctx) : State × Ctx :=
  let core := coreOf k
  let sl := s.slotAt k
  let subs := (List.range 4).filter fun j => (s.subAt core j).owner == some c.uid
  let q := s.coreAt core
  let c := match c.st with
    | .realign .. => c.realigned
    | _ => c
  let c := { c with
    accs := subs.map fun j => (j, (s.subAt core j).elems)
    evHeld := (q.evq.filter (·.uid == c.uid)) ++ c.evHeld
    stalled := false }
  let s := subs.foldl (fun s j => s.setSub core j (s.released core j)) s
  let s := s.setCore core { q with evq := q.evq.filter (·.uid != c.uid) }
  let s := s.setSlot k { sl with
    ctx := none
    recent := (sl.inc.toNat, sl.began) :: sl.recent.filter (fun r => decide (s.time < r.2 + 128))
    fwd := { inc := sl.inc.toNat, uid := c.uid, dst := none, expiry := 0 } :: sl.fwd }
  ((s.evFill core).realignTest (tileOf core), c)

/-- Parked forwarding entries of a firing become entries to its new pair (R504). -/
def State.redirect (s : State) (uid k inc : Nat) : State :=
  { s with slots := s.slots.map fun e => (e.1, { e.2 with fwd := e.2.fwd.map fun f =>
      if f.uid = uid ∧ f.dst = none then { f with dst := some (k, inc), expiry := s.time + 100000 } else f }) }

/-- A firing that takes a slot stopped, or in a wait with an asynchronous trap that came to it meanwhile, is stopped there
(R449). -/
def State.enterStopped (s : State) (k : Nat) : State :=
  match (s.slotAt k).ctx with
  | none => s
  | some c =>
    match c.st, c.asyncs with
    | .trapped .., _ => { s with trapq := s.trapq ++ [k] }
    | .waiting _, a :: rest => s.takeTrap (.slot k) { c with asyncs := rest } { a with resume := c.pc }
    | _, _ => s

/-- A firing takes a slot: a new incarnation (R6, R66), its sub-tiles and event-queue entries (R64), its lock bit (R121),
and the messages held for it (R504). -/
def State.enter (s : State) (k : Nat) (c : Ctx) : State :=
  let sl := s.slotAt k
  let inc := (sl.nextInc s.time).getD (sl.inc + 1)
  let s := c.accs.foldl (fun s e => s.setSub (coreOf k) e.1 { owner := some c.uid, elems := e.2 }) s
  let c := { c with accs := [] }
  let s := s.setSlot k { sl with
    inc := inc
    ctx := some c
    began := s.time
    reservedFor := none }
  let s := match c.lock with
    | some (l, _) => s.setLock l { s.lockAt l with owner := some (k, inc.toNat) }
    | none => s
  let mine (p : Packet) : Bool := p.heldFor == some c.uid
  let s := { s with
    badLines := s.badLines.filter fun l => l / 0x2000 != sharePa k 0 / 0x2000
    flying := s.hubHeld.filter mine ++ s.flying
    hubHeld := s.hubHeld.filter fun p => !mine p }
  ((s.redirect c.uid k inc.toNat).evFill (coreOf k)).enterStopped k

/-- The entry of a firing that holds no slot among the ready work (R62, R117). -/
def Ctx.readyEntry (c : Ctx) (time : Nat) : Ready :=
  { launch := c.launch, gen := c.gen, actor := c.actor, kind := c.kind, wid := c.wid, place := c.place, prio := c.prio,
    cls := c.cls, raised := 0, age := c.age, since := time, ctx := some c, handler := none, code := 0, frame := 0,
    scope := 0, recs := [], starved := none, blocking := false }

end Sys2Proof.Machine
end

