-- ==== Sys2Proof/Machine/Launching.lean ====
section
/-! DEFINITION. Creating a launch (R35 to R37, R505), admitting it (R39, R58, R75), and the firings it makes. -/

namespace Sys2Proof.Machine

/-! ## Reading the header (R505) -/

/-- Why an enqueue does not go on: a translation that Drone has still to give, a park page, or a refusal. -/
inductive EnqStop where
  | miss (va : Nat)
  | park (va : Nat)
  | bad

/-- The unit number that translations for enqueues carry (the model's own). -/
def enqUnit : Nat := 9216

/-- A TLB entry of either size that contains an address (R108, R368). -/
def tlbEither (l : List TlbEntry) (asn va : Nat) : Option TlbEntry :=
  l.find? fun e => e.asn == asn && e.page == va - va % pageBytes (bit e.leaf 12)

/-- Drone's negative answer for an access of a unit (R368): there is no leaf, the page is to stay away, or the leaf forbids the
access. -/
def State.refusedWalk (s : State) (unit asn va : Nat) (u : Use) : Bool :=
  s.walks.any fun w => w.unit == unit && w.asn == asn && w.va == va &&
    w.leaf.all fun l => !bit l 0 || !s.leafAllows l u va

/-- Drone's negative answers to a unit are used up: a later access at the address has a walk of its own (R111, R505). -/
def State.forgetWalks (s : State) (unit : Nat) : State := { s with walks := s.walks.filter (·.unit != unit) }

/-- The physical address of a byte that the device reads at enqueue (R505).  The two aliases are no such place, and a
peer's memory waits for a port that leads there (R29). DESIGN CHOICE (120). -/
def State.enqAddr (s : State) (asn va : Nat) (u : Use) : Except EnqStop Nat :=
  if 0xFFFFFFFFFFC000 ≤ va then .error .bad
  else
    match tlbEither s.enqTlb asn va with
    | some e =>
      if bit e.leaf 0 then
        if !s.leafAllows e.leaf u va then .error .bad
        else if s.cutOff (leafAddr e.leaf va) then .error (.park va)
        else .ok (leafAddr e.leaf va)
      else if field e.leaf 9 2 = 0 ∧ !s.refusedWalk enqUnit asn va u then .error (.park va) else .error .bad
    | none => if s.refusedWalk enqUnit asn va u then .error .bad else .error (.miss va)

/-- `n` bytes read at enqueue, on the core path. -/
def State.enqRead (s : State) (asn : Nat) : Nat → Nat → Except EnqStop (List Byte)
  | _, 0 => .ok []
  | va, n + 1 => do
    let pa ← s.enqAddr asn va .load
    let l ← s.enqRead asn (va + 1) n
    .ok (s.readByte 0 pa :: l)

/-- An enqueue's read of `n` bytes reads a line, or may: its address has still to be translated. -/
def State.enqReads (s : State) (asn va n line : Nat) : Bool :=
  (List.range (n / 64 + 2)).any fun i =>
    let a := lineOf va + 64 * i
    decide (a < va + n) && match s.enqAddr asn a .load with
      | .ok pa => lineOf pa == line
      | .error .bad => false
      | .error _ => true

/-- A little-endian number at an offset of a list of bytes (R9). -/
def listNat (l : List Byte) (off : Nat) : Nat → Nat
  | 0 => 0
  | n + 1 => (l.getD off 0).toNat + 256 * listNat l (off + 1) n

/-! ## The checks (R35 to R37) -/

/-- An actor entry at an offset of the table (R36). -/
def actorAt (l : List Byte) (o : Nat) : Actor :=
  let four (k : Nat) : List Nat := (List.range 4).map fun i => listNat l (o + k + i) 1
  { entry := listNat l o 4, kind := listNat l (o + 4) 1, tag := listNat l (o + 5) 1, hprio := listNat l (o + 6) 1,
    inPipe := four 8, inRate := four 12, emitPipe := four 16, emitRate := four 20 }

/-- A pipe entry at an offset of the table (R36). -/
def pipeAt (l : List Byte) (o : Nat) : Pipe :=
  { recSize := listNat l o 2, depth := listNat l (o + 2) 2, home := listNat l (o + 4) 1, offset := listNat l (o + 8) 8 }

/-- The used pipes among entries, with their rates. -/
def usedPipes (ps rs : List Nat) : List (Nat × Nat) := (ps.zip rs).filter fun e => e.1 != 255

/-- An actor entry is well formed (R36, R37, R45). DEDUCED (25). -/
def Actor.ok (a : Actor) (reserved : Bool) (gang : Bool) (pipes t : Nat) : Bool :=
  let ins := usedPipes a.inPipe a.inRate
  let outs := usedPipes a.emitPipe a.emitRate
  a.entry % 2 == 0 && decide (a.kind ≤ 2) && decide (a.hprio ≤ 7) && !reserved &&
    (if a.kind = 2 then decide (128 ≤ a.tag) && a.tag / 16 % 8 == 0 else a.tag == 0) &&
    (ins ++ outs).all (fun e => decide (e.1 < pipes) && (gang || decide (0 < e.2))) &&
    (if a.kind = 1 then !ins.isEmpty && (ins.map fun e => e.1 % t).eraseDups.length == 1 else true) &&
    (if gang then a.kind == 0 else true)

/-- A pipe entry is well formed (R36). -/
def Pipe.ok (p : Pipe) (reserved : Bool) : Bool :=
  decide (16 ≤ p.recSize) && decide (p.recSize ≤ 256) && p.recSize % 16 == 0 && decide (1 ≤ p.depth) &&
    decide (p.depth ≤ 4096) && decide (p.home ≤ 1) && !reserved && (p.home == 1 || p.offset == 0)

/-- Present tiles (R31, R78). -/
def State.presentTiles (s : State) : List Nat := (List.range 1024).filter fun t => field (s.roleOf t) 0 2 != 3

/-- Tiles in compute role. -/
def State.computeTiles (s : State) : List Nat := (List.range 1024).filter s.compute

/-- What a firing brings to its own launch. -/
structure Launcher where
  origin : Origin
  depth : Nat
  scope : Nat

/-- The 128-byte header is well formed, before the tables are read (R35, R37). DEDUCED (25). -/
def headerOk (h : List Byte) (device : Bool) : Bool :=
  let nf := listNat h 6 1
  let width (i : Nat) := listNat h (0x20 + i) 1
  let extent (i : Nat) := listNat h (0x28 + 8 * i) 8
  let comp := listNat h 0x78 8
  listNat h 0 2 == 1 && decide (1 ≤ listNat h 2 1) && decide (listNat h 2 1 ≤ 16) && decide (listNat h 3 1 ≤ 32) &&
    decide (listNat h 4 1 < 128) && (listNat h 5 1 == 255 || decide (listNat h 5 1 < listNat h 2 1)) &&
    decide (1 ≤ nf) && decide (nf ≤ 6) && decide (listNat h 7 1 ≤ 8) &&
    (listNat h 7 1 == 0 || listNat h 4 1 / 64 % 2 == 1) && decide (1 ≤ listNat h 8 1) &&
    listNat h 0x10 8 % 64 == 0 && decide (listNat h 0x10 8 < 2 ^ 56) && listNat h 0x18 8 % 32 == 0 &&
    decide (((List.range 6).map width).sum ≤ 64) &&
    (List.range 6).all (fun i =>
      if i < nf then decide (1 ≤ extent i) && decide (extent i ≤ 2 ^ width i) else width i == 0 && extent i == 0) &&
    listNat h 0x6C 4 == 0 && (listNat h 7 1 == 0 || listNat h 0x70 8 % 4 == 0) &&
    decide (comp % 4 ≤ (if device then 2 else 1)) && comp / 4 % 8 == 0 && decide (comp < 2 ^ 56)

/-- The launch that a header and its tables describe; `t` is the size of its compute set. -/
def launchFrom (h tab : List Byte) (producers : List Nat) (asn t gen : Nat) (by_ : Option Launcher)
    (parent : Option (Nat × Nat)) (queue : Nat) : Launch :=
  let na := listNat h 2 1
  let fl := listNat h 4 1
  let actors := (List.range na).map fun i => actorAt tab (32 * i)
  let nf := listNat h 6 1
  let extents := (List.range 6).map fun i => listNat h (0x28 + 8 * i) 8
  let items := (extents.take nf).foldl (· * ·) 1
  { gen := gen, asn := asn, depth := (by_.map (·.depth + 1)).getD 1, parent := parent, prio := fl % 8,
    cls := fl / 8 % 4, gang := fl / 32 % 2 == 1, dependent := fl / 64 % 2 == 1, noticeActor := listNat h 5 1,
    widths := (List.range 6).map fun i => listNat h (0x20 + i) 1, extents := extents, tiles := t,
    leaseAllow := listNat h 0x26 2, quota := (List.range 5).map fun i => listNat h (0x58 + 4 * i) 4,
    codeBase := listNat h 0x10 8, actors := actors, pipes := (List.range (listNat h 3 1)).map fun i =>
      pipeAt tab (32 * na + 16 * i),
    producers := producers, compKind := listNat h 0x78 8 % 4, compAddr := listNat h 0x78 8 / 32 * 32 % 2 ^ 56,
    launcher := (by_.map (·.origin)).getD {}, scope := (by_.map (·.scope)).getD 8, queue := queue, admitted := false,
    binds := [], work := items * (actors.filter (·.kind == 0)).length, made := 0, triggered := 0, records := [],
    reservedCount := [], serials := [], charge := [], killed := false, notice := 0 }

/-- A record of completion kind 1 translates, with read and write permission, to a frame of tier 1, 3 or 4 (R37): one on a
page that is not present does not. -/
def State.recordReachable (s : State) (asn va : Nat) : Except EnqStop Bool :=
  match s.enqAddr asn va .load, s.enqAddr asn va .store with
  | .error (.miss v), _ => .error (.miss v)
  | .ok pa, .ok _ =>
    .ok (match tierOf pa with
      | some 1 | some 3 | some 4 => true
      | _ => false)
  | _, _ => .ok false

/-- The first free entry of the launch table (R37, R53): a new launch takes the lowest. DESIGN CHOICE (116). -/
def State.freeEntry (s : State) : Option Nat := (List.range 8192).find? fun i => (s.launches.get? i).isNone

/-- The header of a launch that the host or a rack scheduler node creates (R505). -/
def State.headerAt (s : State) (asn va : Nat) : Except EnqStop (List Byte) :=
  if va % 8 ≠ 0 then .error .bad else s.enqRead asn va 128

/-- The enqueue of a launch (R35 to R37, R414, R505): its status, its handle and the state.  An enqueue that must wait is
an error; a refusal changes nothing.  A producer that has completed is met already (R54). DESIGN CHOICE (6). -/
def State.enqueue (s : State) (asn : Nat) (header : Except EnqStop (List Byte)) (by_ : Option Launcher)
    (parent : Option (Nat × Nat)) (queue : Nat) : Except EnqStop (Nat × Nat × State) :=
  let attempt : Except EnqStop (Nat × Nat × State) := do
    let h ← header
    if !headerOk h by_.isSome then .error .bad else
    let comp := listNat h 0x78 8
    let reach ← if comp % 4 = 1 then s.recordReachable asn (comp / 32 * 32) else .ok true
    if !reach then .error .bad else
    let na := listNat h 2 1
    let np := listNat h 3 1
    let tab ← s.enqRead asn (listNat h 0x18 8) (32 * na + 16 * np)
    let prods ← s.enqRead asn (listNat h 0x70 8) (4 * listNat h 7 1)
    let gang := listNat h 4 1 / 32 % 2 == 1
    let t := if listNat h 0x0E 2 = 0 then s.computeTiles.length else listNat h 0x0E 2
    let actors := (List.range na).map fun i => actorAt tab (32 * i)
    let pipes := (List.range np).map fun i => pipeAt tab (32 * na + 16 * i)
    let actorsOk := (List.range na).all fun i =>
      (actorAt tab (32 * i)).ok (listNat tab (32 * i + 7) 1 + listNat tab (32 * i + 0x18) 8 != 0) gang np (Nat.max t 1)
    let pipesOk := (List.range np).all fun i =>
      (pipeAt tab (32 * na + 16 * i)).ok (listNat tab (32 * na + 16 * i + 5) 3 != 0)
    let notice := listNat h 5 1
    let noticeOk := notice == 255 || (actors.map (·.kind)).getD notice 0 == 2
    if !(actorsOk && pipesOk && noticeOk) then .error .bad else
    if 32 < listNat h 8 1 ∨ 16 < listNat h 9 1 ∨ 8 < listNat h 10 1 ∨ 8 < listNat h 11 1 ∨ 128 < listNat h 12 2 then
      .ok (1, 0, s) else
    if s.presentTiles.length < t then .ok (3, 0, s) else
    if gang ∧ (64 < na ∨ pipes.any (·.home == 1)) then .ok (6, 0, s) else
    if by_.any (fun b => decide (16 ≤ b.depth)) then .ok (5, 0, s) else
    if by_.isSome ∧ 4096 ≤ s.pool then .ok (4, 0, s) else
    match s.freeEntry with
    | none => .ok (7, 0, s)
    | some i =>
      let gen := (s.gens.get i 0 + 1) % 2 ^ 19
      let producers := ((List.range (listNat h 7 1)).map fun k => listNat prods (4 * k) 4).filter fun p =>
        (s.launchOf (p % 2 ^ 13) (p / 2 ^ 13)).isSome
      let l := launchFrom h tab producers asn t gen by_ parent queue
      .ok (0, i + gen * 2 ^ 13, { s with
        launches := s.launches.insert i l
        gens := s.gens.set i gen 0
        pool := if by_.isSome then s.pool + 1 else s.pool
        admission := s.admission ++ [(queue, i)] })
  match attempt with
  | .error .bad => .ok (2, 0, s.forgetWalks enqUnit)
  | .ok (st, h, t) => .ok (st, h, t.forgetWalks enqUnit)
  | r => r

/-! ## Work IDs and firings (R38, R39) -/

/-- Field `i` of a work ID (R39). -/
def widField (widths : List Nat) (w i : Nat) : Nat := w / 2 ^ (widths.take i).sum % 2 ^ (widths.getD i 0)

/-- The work ID of item `k`, in ascending order (R38, R39). -/
def widOf (l : Launch) (nf k : Nat) : Nat :=
  ((List.range nf).map fun i =>
    k / (l.extents.take i).foldl (· * ·) 1 % l.extents.getD i 1 * 2 ^ (l.widths.take i).sum).sum

/-- The number of fields: those with an extent (R35). -/
def Launch.fields (l : Launch) : Nat := (l.extents.filter (· != 0)).length

/-- The ready entry of work firing number `n` of a launch: item n / actors, actor by ascending index (R39). -/
def Launch.workEntry (l : Launch) (i n time : Nat) : Ready :=
  let acts := (List.range l.actors.length).filter fun a => (l.actors.map (·.kind)).getD a 0 == 0
  let w := widOf l l.fields (n / Nat.max acts.length 1)
  { launch := i, gen := l.gen, actor := acts.getD (n % Nat.max acts.length 1) 0, kind := 0,
    wid := BitVec.ofNat 64 w, place := widField l.widths w (l.fields - 1) % Nat.max l.tiles 1, prio := l.prio,
    cls := l.cls, raised := 0, age := time, since := time, ctx := none, handler := none, code := 0, frame := 0,
    scope := 0, recs := [], starved := none, blocking := false }

/-- Work firings that the dispatcher creates ahead of their placement (log entry 16). -/
def feedAhead : Nat := 65536

/-- The dispatcher creates a launch's next work firings, in order (R39). -/
def State.feed (s : State) (i : Nat) : State :=
  match s.launches.get? i with
  | none => s
  | some l =>
    if !l.admitted || l.killed then s
    else
      let waiting := (s.ready.filter fun r => r.launch == i && r.kind == 0 && r.ctx.isNone).length
      let n := Nat.min (feedAhead - waiting) (l.work - l.made)
      { s with
        ready := s.ready ++ (List.range n).map fun j => l.workEntry i (l.made + j) s.time
        launches := s.launches.insert i { l with made := l.made + n } }

/-! ## Admission (R58, R75) -/

/-- The storage of one copy of a launch's pipes in a home, in bytes (R44, R101). DEDUCED (36). -/
def Launch.pipeBytes (l : Launch) (home : Nat) : Nat :=
  ((l.pipes.filter (·.home == home)).map fun p => p.recSize * p.depth).sum

/-- The copies of its home-0 pipes that a launch has: one, or one for each gang instance under way (R43). -/
def Launch.gangCopies (l : Launch) : Nat := if l.gang then l.copies.length else 1

def Launch.debit (l : Launch) (tier n : Nat) : Launch := { l with charge := l.charge.set tier (l.charge.get tier 0 + n) 0 }

def Launch.credit (l : Launch) (tier n : Nat) : Launch := { l with charge := l.charge.set tier (l.charge.get tier 0 - n) 0 }

/-- How many logical tiles are bound to a physical tile. -/
def State.boundCount (s : State) (tile : Nat) : Nat :=
  (s.launches.map fun e => (e.2.binds.filter (·.2 == tile)).length).sum

/-- The tile among `l` with the least measure; ties go to the earlier one. -/
def leastBy (f : Nat → Nat) : List Nat → Option Nat
  | [] => none
  | a :: l =>
    match leastBy f l with
    | none => some a
    | some b => if f a ≤ f b then some a else some b

/-- The tiles to which logical tiles may be bound: those in compute role, but for one whose logical tiles a recast has already
taken elsewhere (R75, R90). DEDUCED (87). -/
def State.bindable (s : State) : List Nat := s.computeTiles.filter fun t => field (s.roleOf t) 2 3 != 3

/-- Logical tiles `k`, … bound in ascending order, each to the compute tile that holds the fewest (R75). -/
def State.bindTiles (s : State) (i : Nat) : Nat → Nat → State
  | _, 0 => s
  | k, n + 1 =>
    match s.launches.get? i, leastBy s.boundCount s.bindable with
    | some l, some t => ({ s with launches := s.launches.insert i { l with binds := l.binds.insert k t } }).bindTiles i
        (k + 1) n
    | _, _ => s

/-- Handler actors with tags 1 to 15 take the unbound entries of the route-tag tables of the launch's tiles (R58); of two with
one tag, the lower actor index. DESIGN CHOICE (119). -/
def State.bindHandlers (s : State) (i : Nat) (l : Launch) : State :=
  let hs := (List.range l.actors.length).filterMap fun a =>
    match l.actors[a]? with
    | some x => if x.kind = 2 ∧ x.tag % 16 ≠ 0 then some (a, x.tag % 16, x.hprio) else none
    | none => none
  (l.binds.map (·.2)).eraseDups.foldl (fun s t =>
    (List.range 8).foldl (fun s c =>
      let k := s.coreAt (coreBase t + c)
      let routes := hs.foldl (fun r h => match r.get? h.2.1 with
        | some _ => r
        | none => r.insert h.2.1 { launch := i, gen := l.gen, actor := h.1, hprio := h.2.2 }) k.routes
      s.setCore (coreBase t + c) { k with routes := routes }) s) s

/-- The admission of the launch at table index `i` (R37, R39, R58, R75). -/
def State.admitLaunch (s : State) (i : Nat) : State :=
  match s.launches.get? i with
  | none => s
  | some l =>
    let l := { l with admitted := true }
    let l := (l.debit 1 (l.gangCopies * l.pipeBytes 0)).debit 3 (l.pipeBytes 1)
    let s := { s with launches := s.launches.insert i l }
    let s := s.bindTiles i 0 l.tiles
    match s.launches.get? i with
    | none => s
    | some l => (s.bindHandlers i l).feed i

/-- The context of a firing that begins (R41, R59). -/
def Ready.begin (r : Ready) (l : Launch) (uid : Nat) : Ctx :=
  let pc : Word := if r.kind = 3 then r.code else
    BitVec.ofNat 64 (l.codeBase + (l.actors.map (·.entry)).getD r.actor 0)
  let regs : Regs := if r.kind = 3 then { s := Map.set [] 3 r.frame 0 } else {}
  { uid := uid, launch := r.launch, gen := r.gen, asn := l.asn, actor := r.actor, kind := r.kind,
    wid := if r.kind = 2 then 0 else r.wid, place := r.place, prio := r.prio, cls := r.cls, age := r.age, pc := pc,
    regs := regs, region := { start := pc, snap := regs }, reserved := r.recs,
    notice := 0, msg := r.handler.map fun h => (h.2.1, h.2.2) }

end Sys2Proof.Machine
end

