-- ==== Sys2Proof/Machine/Operands.lean ====
section
/-! DEFINITION. The operand forms: format-A sources and destinations with their queue flags (R297, R317), immediates
(R295), and lanes of vector operands (R343). -/

namespace Sys2Proof.Machine

/-! ## Scalar operands -/

/-- The registers that a flagged field names: none where it names a queue. -/
def namesReg (flag : BitVec 1) (r : BitVec 5) : List (BitVec 5) := if flag = 1 then [] else [r]

/-- The queue that a flagged destination pushes. -/
def namesQueue (flag : BitVec 1) (r : BitVec 5) : Option Nat := if flag = 1 then some r.toNat else none

/-- A source register, or the head of the scalar queue that its flag makes it name (R289, R297). -/
def Cx.readS (x : Cx) (flag : BitVec 1) (r : BitVec 5) : Except Stop (Word × Cx) :=
  if flag = 1 then x.popS r.toNat else .ok (x.c.sreg r, x)

/-- Two sources; a queue written twice pops one entry, which serves both (R289). -/
def Cx.readSS (x : Cx) (fa : BitVec 1) (a : BitVec 5) (fb : BitVec 1) (b : BitVec 5) :
    Except Stop (Word × Word × Cx) := do
  let x := x.popRoom ((namesQueue fa a).toList ++ (namesQueue fb b).toList)
  let (va, x) ← x.readS fa a
  if fa = 1 ∧ fb = 1 ∧ a = b then .ok (va, va, x)
  else
    let (vb, x) ← x.readS fb b
    .ok (va, vb, x)

/-- A destination register, or the scalar queue that its flag makes it name (R289, R297, R298). -/
def Cx.writeS (x : Cx) (flag : BitVec 1) (r : BitVec 5) (v : Word) : Except Stop Cx :=
  if flag = 1 then x.pushS r.toNat (.val v) else .ok { x with c := x.c.setS r v }

/-- A signed immediate (R295). -/
def imm {n : Nat} (i : BitVec n) : Word := i.signExtend 64

/-! ## Lanes -/

/-- The width of a lane in bits (R343). -/
def laneWidth (t : Nat) : Nat := if t = 0 ∨ t = 3 ∨ t = 5 then 32 else 16

/-- The number of lanes (R343). -/
def laneCount (t : Nat) : Nat := if t = 0 ∨ t = 3 ∨ t = 5 then 32 else 64

/-- The lanes are read as signed integers (R343). -/
def laneSigned (t : Nat) : Bool := t == 3 || t == 4

/-- The lanes are read as floating-point numbers (R343). -/
def laneFloat (t : Nat) : Bool := decide (t ≤ 2)

/-- Lane `j` of width `w`, raw (R343). -/
def lane (v : Vec) (w j : Nat) : Nat := v.toNat / 2 ^ (w * j) % 2 ^ w

/-- A vector with lane 0 first. -/
def packLanes (w : Nat) : List Nat → Nat
  | [] => 0
  | x :: l => x % 2 ^ w + 2 ^ w * packLanes w l

def ofLanes (w : Nat) (l : List Nat) : Vec := BitVec.ofNat 1024 (packLanes w l)

/-- A raw lane as a signed number. -/
def signed (w x : Nat) : Int := if x < 2 ^ (w - 1) then x else (x : Int) - 2 ^ w

/-- A number as a raw lane, modulo 2^w (R186). -/
def toLane (w : Nat) (x : Int) : Nat := (x % 2 ^ w).toNat

/-- A raw lane as the number that an integer type reads (R343). -/
def laneInt (t x : Nat) : Int := if laneSigned t then signed (laneWidth t) x else x

/-- The lane is enabled by a mask (R344). -/
def enabled (m : Word) (j : Nat) : Bool := m.getLsbD j

end Sys2Proof.Machine
end

