-- ==== Sys2Proof/Machine/Settle.lean ====
section
/-! DEFINITION. Panpipe announcements, injection queues, and how synchronizing operations complete in program order
(R133, R142 to R144, R148 to R156, R175). -/

namespace Sys2Proof.Machine

/-! ## Panpipe (R142, R143) -/

/-- Network clocks since reset: 18.8 to a reference tick (R23). -/
def clocksAt (time : Nat) : Nat := time * 188 / 10

/-- The Panpipe window of a time (R142). -/
def windowAt (time : Nat) : Nat := clocksAt time / 64

/-- Role-map updates, translation changes and the joins of completed launches come from hubs, the other announcements from
slots (R143). DEDUCED (77). -/
def Announce.fromHub (a : Announce) : Bool := decide (3 ≤ a.kind) || a.join.isSome

/-- Two announcements share an announcement slot: one tile, or one hub (R142). -/
def sameAnnouncer (a b : Announce) : Bool :=
  a.fromHub == b.fromHub && (if a.fromHub then a.inc == b.inc else a.slot / 64 == b.slot / 64)

/-- An announcement is requested: it takes the first window, from now on, in which its announcer has made fewer than four,
and none before an earlier one of the same announcer (R142). -/
def State.announce (s : State) (a : Announce) : State :=
  let mine := s.pan.filter (sameAnnouncer a)
  let last := mine.foldl (fun w b => Nat.max w b.window) (windowAt s.time)
  let w := if (mine.filter (·.window == last)).length < 4 then last else last + 1
  { s with pan := s.pan ++ [{ a with id := s.nextId, window := w }], nextId := s.nextId + 1 }

/-- A hub announces: slot 0xFFFF and its district (R143); its serial is zero. DESIGN CHOICE (143). -/
def hubAnnounce (kind district x y : Nat) (entries : List (Nat × Word)) : Announce :=
  { id := 0, window := 0, kind := kind, scope := 0, slot := 0xFFFF, inc := district, serial := 0, x := x, y := y,
    entries := entries }

/-! ## Injection queues (R133) -/

/-- A tile's injection queue has a free entry that no composed command is to take (R133). -/
def State.injRoom (s : State) (tile : Nat) : Bool :=
  decide ((s.tileAt tile).inj.length + (s.tileAt tile).held.length < 16)

/-- A packet or a fence marker enters a tile's injection queue; the device stamps a packet with bits 29:6 of the reference
count (R130, R133). DESIGN CHOICE (138). -/
def State.inject (s : State) (tile : Nat) (p : Packet) : State :=
  let t := s.tileAt tile
  s.setTile tile { t with inj := t.inj ++ [.packet { p with stamp := s.time / 64 % 2 ^ 24 } 0] }

/-- A fence marker enters the injection queue behind what it holds. -/
def State.injectFence (s : State) (tile : Nat) : State :=
  let t := s.tileAt tile
  if t.inj = [] then s else s.setTile tile { t with inj := t.inj ++ [.fence] }

/-! ## Counters and records (R173, R412, R413) -/

/-- A bank operation's write of a counter: one value, which every path sees (R173); a firing that is fetching the line may have its
old content (R316). -/
def State.bankWrite (s : State) (pa n v : Nat) : State :=
  { s with
    mem := (List.range n).foldl (fun m i => m.set (pa + i) (byteOf v i) 0) s.mem
    unseen := (List.range n).map (fun i =>
      { pa := pa + i, writer := 0, uid := 0, blind := 0, old := s.byteAt (pa + i), at_ := s.fresh }) ++ s.unseen }

/-- A counter as its bank holds it (R173). -/
def State.bankRead (s : State) (pa n : Nat) : Nat := gatherBytes s.byteAt pa n

/-- A spawned record becomes ready: the device reads code, frame, prio and wid (R47, R412).  Among records of one age, it reaches
its hub now, not at its `SPAWN` (R49). DESIGN CHOICE (152). -/
def State.recordReady (s : State) (k : Cont) (scope : Nat) : State :=
  let f (o n : Nat) := match k.fixed with
    | some w => w.toNat / 256 ^ (o % 8) % 256 ^ n
    | none => s.readMem 0 (k.home + o) n
  let prio := if 7 < f 0x14 1 ∨ f 0x15 3 ≠ 0 then 0 else f 0x14 1
  { s with
    conts := s.conts.filter (·.id != k.id)
    ready := s.ready ++
      [{ launch := k.launch, gen := k.gen, actor := 0, kind := 3, wid := BitVec.ofNat 64 (f 0x18 8), place := k.district,
         prio := prio, cls := ((s.launchOf k.launch k.gen).map (·.cls)).getD 0, raised := 0, age := s.time,
         since := s.time, ctx := none, handler := none, code := BitVec.ofNat 64 (f 0 8),
         frame := BitVec.ofNat 64 (f 8 8), scope := scope, recs := [], starved := none, blocking := false }] }

/-- The decrement of a join counter at its home, and the readiness of a spawned record (R413). -/
def State.joinAt (s : State) (home scope : Nat) : State :=
  let v := (s.bankRead (home + 0x10) 4 + (2 ^ 32 - 1)) % 2 ^ 32
  let s := s.bankWrite (home + 0x10) 4 v
  match s.conts.find? fun k => k.home == home && k.fixed.isNone with
  | some k => if v = 0 then s.recordReady k scope else s
  | none => s

/-! ## Atomics (R400, R401) -/

/-- The new value of an `AMO` (op 0 to 8) or `CAS` (op 9, comparand c) on an n-byte word (R400, R401). -/
def amoResult (op n old b c : Nat) : Nat :=
  let w := 8 * n
  let m := 2 ^ w
  match op with
  | 0 => (old + b) % m
  | 1 => Nat.land old (b % m)
  | 2 => Nat.lor old (b % m)
  | 3 => Nat.xor old (b % m)
  | 4 => if signed w old ≤ signed w (b % m) then old else b % m
  | 5 => if signed w old ≤ signed w (b % m) then b % m else old
  | 6 => Nat.min old (b % m)
  | 7 => Nat.max old (b % m)
  | 8 => b % m
  | _ => if old = c % m then b % m else old

/-- An operation writes its word: a `CAS` whose comparison fails does not (R401). -/
def amoWrites (op n old c : Nat) : Bool := decide (op < 9) || old == c % 2 ^ (8 * n)

/-- An n-byte word as a register receives it: sign-extended (R400 to R404). -/
def sextWord (n v : Nat) : Word := BitVec.ofInt 64 (signed (8 * n) (v % 2 ^ (8 * n)))

/-! ## Completion in program order (R154) -/

/-- `SCLD`, which is no release (R148, R404). -/
def PendKind.reads : PendKind → Bool
  | .load .. => true
  | .fixed .. => true
  | _ => false

/-- The release conditions of R154 hold: the earlier lines of the firing, and those that an earlier firing of its slot has left on
their way, are acknowledged, and its earlier loads have returned. DEDUCED (27). DEDUCED (136). -/
def State.releasable (s : State) (k : Nat) (c : Ctx) (p : Pend) : Bool :=
  !(s.flights.any fun f => (f.origin.uid == c.uid && decide (f.num < p.seq)) ||
      (!p.kind.reads && f.origin.slot == k && f.origin.uid != c.uid)) &&
    !(c.loads.any fun l => decide (l.id < p.mark)) &&
    match p.kind with
    | .load home n _ => !s.inFlight c.uid home && !c.awaits home n
    | _ => true

/-- The next interval begins where the operation that closed the last one is complete (R163). -/
def Ctx.interval_ (c : Ctx) (time : Nat) : Ctx := if c.checkedSince.isNone then { c with interval := time } else c

/-- The instruction that held back the stream is complete (R155). -/
def Ctx.resume (c : Ctx) (time : Nat) : Ctx :=
  let pc := c.pc + 4
  { c.interval_ time with
    st := .running, pc := pc, verdicts := [], stalled := false
    region := { start := pc, snap := c.regs, vsnap := c.vstream } }

/-- The value of an outstanding operation reaches the scalar register that waits for it (R398). -/
def Regs.arrive (r : Regs) (id reg : Nat) (v : Word) : Regs :=
  if r.due.get? reg = some id then { r with s := r.s.set reg v 0, due := r.due.erase reg } else r

/-- The value of a load reaches the vector register that waits for it (R365). -/
def Regs.arriveV (r : Regs) (id reg : Nat) (v : Vec) : Regs :=
  if r.vdue.get? reg = some id then { r with v := r.v.set reg v 0, vdue := r.vdue.erase reg } else r

/-- As `Regs.arrive`, in the registers and in the shadow of the open region, which the value precedes. -/
def Ctx.arrive (c : Ctx) (id reg : Nat) (v : Word) : Ctx :=
  { c with regs := c.regs.arrive id reg v, region := { c.region with snap := c.region.snap.arrive id reg v } }

/-- An atomic's bank operation at its home (R400, R401): the state, and the old value. -/
def State.atomicAt (s : State) (uid home n op : Nat) (b c : Word) : State × Nat :=
  let old := s.readMem 0 home n uid
  (if amoWrites op n old c.toNat then s.writeMem 0 uid home n (amoResult op n old b.toNat c.toNat) else s, old)

/-- `n` bytes of a firing's own word at a home or in its share (R97, R172, R174). -/
def Cx.wordAt (x : Cx) (home n : Nat) : Nat :=
  if shareBase ≤ home then gatherBytes (fun a => x.shareByte (a - shareBase)) home n else x.s.readMem 0 home n x.c.uid

/-- `n` bytes of a firing's own word written at a home or in its share (R97, R172, R174). -/
def Cx.putWord (x : Cx) (home n v : Nat) : Cx :=
  if shareBase ≤ home then (List.range n).foldl (fun x i => x.putShare (home - shareBase + i) (byteOf v i)) x
  else { x with s := x.s.writeMem 0 x.c.uid home n v }

/-- What a word of an uncorrectable line gives in its place. -/
def poisonWord (n : Nat) : Word := sextWord n (gatherBytes poisonByte 0 n)

/-- The line of a word at a home, or of a share, as a physical address (R94). -/
def wordLine (k home : Nat) : Nat := lineOf (if shareBase ≤ home then sharePa k home else home)

/-- A firing has read an uncorrectable line after its access issued: an asynchronous integrity trap (R484). DEDUCED (70). -/
def State.struck (s : State) (k : Nat) (c : Ctx) (line va : Nat) : State :=
  let o : Origin := { uid := c.uid, slot := k, inc := (s.slotAt k).inc.toNat, launch := c.launch, gen := c.gen }
  s.async o (asyncTrap 9 0 (BitVec.ofNat 64 va) (BitVec.ofNat 64 (line + (tierOf line).getD 0)))

/-- The effect of a synchronizing operation at its completion; none where it must still wait.  A word of a line that has become
uncorrectable since it issued gives the poison (R484).  A `LAUNCH` is enqueued on a queue of its own slot. DESIGN CHOICE (168). -/
def State.complete (s : State) (k : Nat) (c : Ctx) (p : Pend) : Option State :=
  let x : Cx := { s := s, who := .slot k, c := c }
  match p.kind with
  | .write home n v => some (x.putWord home n v.toNat).put
  | .fence a b =>
    let s := s.putCtx (.slot k) (c.resume s.time)
    some (if a = b then s else s.cross a b fun u => s.homeInUnit p.scope k u.pa)
  | .atomic home n op b cmp rd =>
    if (s.lockAt (lockOf home)).owner.isSome then none
    else if s.badLines.contains (lineOf home) then
      some ((s.putCtx (.slot k) ((c.setS (BitVec.ofNat 5 rd) (poisonWord n)).resume s.time)).struck k c (lineOf home)
        (lineOf p.va))
    else
      let (t, old) := s.atomicAt c.uid home n op b cmp
      some (t.putCtx (.slot k) ((c.setS (BitVec.ofNat 5 rd) (sextWord n old)).resume s.time))
  | .load home n rd =>
    if s.badLines.contains (wordLine k home) then
      some ((s.putCtx (.slot k) ((c.setS (BitVec.ofNat 5 rd) (poisonWord n)).resume s.time)).struck k c (wordLine k home)
        (lineOf p.va))
    else some (s.putCtx (.slot k) ((c.setS (BitVec.ofNat 5 rd) (sextWord n (x.wordAt home n))).resume s.time))
  | .fixed v rd => some (s.putCtx (.slot k) ((c.setS (BitVec.ofNat 5 rd) v).resume s.time))
  | .order => some (s.putCtx (.slot k) (c.interval_ s.time))
  | .join home _ => some ((s.putCtx (.slot k) c).joinAt home p.scope)
  | .send m =>
    if s.injRoom (tileOf (coreOf k)) then some ((s.putCtx (.slot k) c).inject (tileOf (coreOf k)) m) else none
  | .trig =>
    let s := s.putCtx (.slot k) { c with trig := true }
    match s.launchOf c.launch c.gen with
    | some l =>
      if c.trig = false ∧ c.kind = 0 then some (s.setLaunch c.launch { l with triggered := l.triggered + 1 }) else some s
    | none => some s
  | .launch va rd id =>
    match s.launchOf c.launch c.gen with
    | none => some (s.putCtx (.slot k) c)
    | some l =>
      if s.halted then none else
      let share (n : Nat) : Except EnqStop (List Byte) :=
        .ok ((List.range 128).map fun i => x.shareByte (n + i))
      let header := if 0xFFFFFFFFFFE000 ≤ va then share (va % 0x2000) else s.enqRead c.asn va 128
      let o : Origin :=
        { uid := c.uid, slot := k, inc := (s.slotAt k).inc.toNat, asn := c.asn, launch := c.launch, gen := c.gen,
          seq := c.seq }
      match s.enqueue c.asn header (some { origin := o, depth := l.depth, scope := p.scope })
          (some (c.launch, c.gen)) (16 + k) with
      | .error _ => none
      | .ok (st, h, s) =>
        some (s.putCtx (.slot k) ((c.arrive id rd (BitVec.ofNat 64 st)).arrive id (rd + 1) (BitVec.ofNat 64 h)))
  | .spawn id =>
    let s := s.putCtx (.slot k) c
    match s.conts.find? (·.id == id) with
    | some r => some (s.recordReady r p.scope)
    | none => some s
  | .close serial =>
    some { s.putCtx (.slot k) c with closed := s.closed.set k (BitVec.ofNat 8 serial) 255 }

/-- The announcement that an operation needs before it completes: scopes 4 and wider (R153), and every close (R165).  Its
serial is the slot's interval serial: that of the closed interval for a close, and for a release that of the interval that
follows it (R143). DEDUCED (117). -/
def Pend.announcement (p : Pend) (k : Nat) (sl : Slot) (uid : Nat) : Option Announce :=
  match p.kind with
  | .close serial => some
      { id := 0, window := 0, kind := 2, scope := 0, slot := k, inc := sl.inc.toNat, serial := serial, x := uid, y := 0,
        entries := [] }
  | _ =>
    if 4 ≤ p.scope then some
      { id := 0, window := 0, kind := 0, scope := p.scope, slot := k, inc := sl.inc.toNat, serial := sl.serial.toNat,
        x := uid, y := 0, entries := [] }
    else none

/-- The home that an operation reads or writes at its completion. -/
def PendKind.home : PendKind → Option Nat
  | .write home .. => some home
  | .atomic home .. => some home
  | .load home .. => some home
  | .join home _ => some home
  | _ => none

/-- The word at a home that an operation reads or writes at its completion. -/
def PendKind.word : PendKind → Option (Nat × Nat)
  | .write home n _ => some (home, n)
  | .atomic home n .. => some (home, n)
  | .load home n _ => some (home, n)
  | _ => none

/-- An operation that comes before it in the order S, on its own word, has been delivered and is still to be performed (R156):
all that have been, where it has no place from Panpipe. -/
def State.sBefore (s : State) (p : Pend) : Bool :=
  p.sc && match p.kind.word with
    | none => false
    | some (h, n) => decide (h < shareBase) && s.slots.any fun e => match e.2.ctx with
      | none => false
      | some c => c.pend.any fun q => q.sc && q.delivered && (!p.delivered || decide (q.order < p.order)) &&
          match q.kind.word with
          | some (g, m) => decide (h < g + m) && decide (g < h + n)
          | none => false

/-- An `SCLD` is no release: it need not wait for the firing's earlier operations, but for one in the order S, for one on its own
word, and for one on a word of the same peer (R145, R154, R156). -/
def Pend.overtakes (p q : Pend) : Bool :=
  match p.kind, q.kind with
  | .load home n _, .write h m _ => !q.sc && !(decide (h < home + n) && decide (home < h + m)) && !samePeer home h
  | .load .., _ => !q.sc
  | .fixed .., _ => !q.sc
  | _, _ => false

/-- One turn of a slot's pending operation `i`: it is announced, or it completes, or it still waits.  An `SCLD` is announced
only once the firing's own lines to its line have arrived, so that it reads at its place in the order S (R156, R404).  An
operation on a word of a peer waits while no port leads there (R29), and none overtakes what its tile or its firing has sent to
its home before (R127, R145). -/
def State.settleEntry (s : State) (k : Nat) (c : Ctx) (i : Nat) (p : Pend) : Option State :=
  let rest := c.pend.eraseIdx i
  let waits (h : Nat) : Bool :=
    s.stranded h || s.cutOff h || (decide (h < shareBase) && s.sentBefore (tileOf (coreOf k)) (s.homeNode h)) ||
      (p.kind.reads && s.peerBefore c h s.nextId)
  if p.kind.home.any waits ∨ s.sBefore p then none
  else if p.delivered then s.complete k { c with pend := rest } p
  else if p.announced.isSome || !s.releasable k c p then none
  else
    match p.announcement k (s.slotAt k) c.uid with
    | none => s.complete k { c with pend := rest } p
    | some a => some ((s.announce a).putCtx (.slot k) { c with pend := c.pend.set i { p with announced := some s.nextId } })

/-- One turn of a slot's pending operations: an `SCLD` that may overtake every one before it, or else the oldest.
DEDUCED (20). -/
def State.settleOne (s : State) (k : Nat) : Option State :=
  match (s.slotAt k).ctx with
  | none => none
  | some c =>
    let last := match c.pend.getLast? with
      | some p => if c.pend.dropLast.all p.overtakes then s.settleEntry k c (c.pend.length - 1) p else none
      | none => none
    match last, c.pend with
    | some t, _ => some t
    | none, p :: _ => s.settleEntry k c 0 p
    | none, [] => none

/-- A slot's pending operations go as far as they can, in program order. -/
def State.settleFuel (k : Nat) : Nat → State → State
  | 0, s => s
  | n + 1, s =>
    match s.settleOne k with
    | some t => t.settleFuel k n
    | none => s

def State.pendCount (s : State) (k : Nat) : Nat := ((s.slotAt k).ctx.map fun c => c.pend.length).getD 0

/-- A slot's pending operations settle (R154). DEDUCED (41). -/
def State.settle (s : State) (k : Nat) : State := s.settleFuel k (s.pendCount k + 1)

/-- Every slot's pending operations settle. DEDUCED (41). -/
def State.settleAll (s : State) : State := s.slots.foldl (fun s e => s.settle e.1) s

/-- A synchronizing operation is pending from here on: it comes behind the firing's earlier ones, and completes at once if
nothing is outstanding.  `SCLD` is no release, and does not wait for the firing's earlier accesses (R148, R404); `sc` says that
the operation is a member of the order S (R156), and `va` is the address of the word that it reads. -/
def Cx.pendOn (x : Cx) (kind : PendKind) (scope : Nat) (sc : Bool := false) (va : Nat := 0) : State :=
  let p : Pend :=
    { kind := kind, scope := scope, seq := if kind.reads then 0 else x.c.seq, mark := if kind.reads then 0 else x.s.nextId,
      sc := sc, va := va }
  let st : RunState := if kind.holds then .held else x.c.st
  ({ x with c := { x.c with pend := x.c.pend ++ [p], st := st } }.put).settle x.slot

/-- What every synchronizing operation does first: its region commits and its interval closes (R115, R163). -/
def Cx.synchronize (x : Cx) : Cx := x.commit.closeInterval

end Sys2Proof.Machine
end

