-- ==== Sys2Proof/Machine/Uses.lean ====
section
/-! DEFINITION. The registers that an instruction reads, by which it waits for one that is still to receive its value (R345,
R365, R398). -/

namespace Sys2Proof.Machine

/-- The scalar registers that an instruction reads as operands (R398); a flagged field names a queue (R297). -/
def Instr.reads : Instr → List (BitVec 5)
  | .add z y _ b a _ | .sub z y _ b a _ | .and z y _ b a _ | .or z y _ b a _ | .xor z y _ b a _ | .andn z y _ b a _
  | .shl z y _ b a _ | .shr z y _ b a _ | .sra z y _ b a _ | .mul z y _ b a _ | .mulh z y _ b a _
  | .mulhn z y _ b a _ | .div z y _ b a _ | .divn z y _ b a _ | .rem z y _ b a _ | .remn z y _ b a _
  | .min z y _ b a _ | .max z y _ b a _ | .minn z y _ b a _ | .maxn z y _ b a _ | .slt z y _ b a _
  | .sltn z y _ b a _ | .seq z y _ b a _ | .ldx _ z y _ b a _ => namesReg y a ++ namesReg z b
  | .csel z y b a d => d :: (namesReg y a ++ namesReg z b)
  | .clz y _ a _ | .ctz y _ a _ | .popc y _ a _ | .sext _ y _ a _ | .zext _ y _ a _ => namesReg y a
  | .addi _ a _ | .andi _ a _ | .ori _ a _ | .xori _ a _ | .shli _ a _ | .shri _ a _ | .srai _ a _ | .slti _ a _
  | .ld _ _ a _ | .pref _ a | .alloc _ a _ | .free a _ | .loop _ _ a | .jalr _ a _ | .vbcast _ a _ | .unpkT5 _ a _
  | .unpkI8 _ a _ | .unpkN8 _ a _ | .unpkI4 _ a _ | .unpkN4 _ a _ | .vld _ _ _ a _ | .vst _ _ _ a _
  | .vgath _ _ _ a _ | .vscat _ _ _ a _ | .mcfg a _ | .ecopy _ a | .scan _ a | .ldlk _ a _ | .acq _ _ a _
  | .scld _ _ a _ | .waitList _ _ a _ | .waitBar _ _ a _ | .waitJoin _ _ a _ | .send _ a _ | .htag a _ | .spawn a
  | .join _ a | .launch _ a _ | .ppush a _ | .ppop a _ | .migr a _ | .unlease _ a _ | .role _ a _ | .nack a _
  | .boost a _ | .crw _ a | .tlbi _ a => [a]
  | .lui _ _ | .addpc _ _ | .jal _ _ | .realign _ | .fin | .nop | .vadd16 _ _ _ | .vsub16 _ _ _ | .vrsub16 _ _ _
  | .vmul16 _ _ _ | .vmin16 _ _ _ | .vmax16 _ _ _ | .vand16 _ _ _ | .vor16 _ _ _ | .vxor16 _ _ _ | .vmov16 _ _ _
  | .vabs16 _ _ _ | .vneg16 _ _ _ | .vshl16 _ _ _ | .vshr16 _ _ _ | .vsra16 _ _ _ | .vfmak16 _ _ _
  | .vadd32 _ _ _ _ _ | .vsub32 _ _ _ _ _ | .vrsub32 _ _ _ _ _ | .vmul32 _ _ _ _ _ | .vmin32 _ _ _ _ _
  | .vmax32 _ _ _ _ _ | .vand32 _ _ _ _ _ | .vor32 _ _ _ _ _ | .vxor32 _ _ _ _ _ | .vmov32 _ _ _ _ | .vabs32 _ _ _ _
  | .vneg32 _ _ _ _ | .vshl32 _ _ _ _ _ | .vshr32 _ _ _ _ _ | .vsra32 _ _ _ _ _ | .vfmak32 _ _ _ _ _
  | .vfma _ _ _ _ _ _ | .vfms _ _ _ _ _ _ | .vfnma _ _ _ _ _ _ | .vcmp _ _ _ _ _ _ | .vnot _ _ _ _ | .vexp2 _ _ _ _
  | .vlog2 _ _ _ _ | .vrcp _ _ _ _ | .vrsq _ _ _ _ | .viota _ _ _ | .vcvt _ _ _ _ _ | .vsel _ _ _ _ _
  | .vperm _ _ _ _ _ | .vcompress _ _ _ _ | .vadds _ _ _ _ _ | .vscanpAdd _ _ _ _ | .vscanpMin _ _ _ _
  | .vscanpMax _ _ _ _ | .vredAdd _ _ _ _ _ | .vredMin _ _ _ _ _ | .vredMax _ _ _ _ _ | .vredAnd _ _ _ _ _
  | .vredOr _ _ _ _ _ | .vredXor _ _ _ _ _ | .vdot _ _ _ _ _ _ | .mand _ _ _ | .mor _ _ _ | .mxor _ _ _ | .mnot _ _
  | .mpop _ _ _ | .vtype _ | .mzero _ | .pfx _ _ _ _ | .fence _ | .fenceP _ _ _ | .cmt | .trig | .waitEvq _ _ _
  | .waitNotice _ _ _ | .waitProd _ _ _ | .wid _ _ | .ppeek _ _ | .crr _ _ | .crrEvq _ | .trap _ | .sysc _ | .bkpt _
  | .eret | .tack | .powerUp | .bootGo | .chanterBoot | .droneReady | .hostAccess | .registerWrite | .doorbell
  | .completionDoorbell | .qcplWrite | .launchEnqueueResume | .launchAdmission | .rackLaunch | .residencyReport
  | .dispatch | .pipeActorFire | .priorityAge | .fitStarvation | .migrationComplete | .forwardingExpire
  | .pageResident | .quotaDecline | .tlbMiss | .regionTimeCommit | .intervalTimeClose | .loadDataReturn
  | .postedLineAtHome | .storeAck | .checkedAccessAtHome | .lockGrant | .pageMigration | .panpipeDelivery
  | .roleMapAck | .staleRequestReturn | .injectionSend | .messageDelivery | .handlerCreate | .recordPass
  | .firingRetire | .subtileRelease | .launchComplete | .completionJoinResume | .launchEndWrite | .waitConditionMet
  | .waitTimeout | .realignTimeout | .censusSample | .recastProposal | .recastDeadline | .storageCopyDone
  | .computeRecastRebind | .recastFinish | .leaseExpire | .matrixGrant | .matrixCommandDone | .copyChainStart
  | .scanChainStart | .chainCopy | .chainMcast | .chainDeal | .chainLoop | .chainIfz | .chainIfnz | .chainSignal
  | .chainEnd | .chainSel | .mcastLineArrival | .scanPart | .scanMerge | .cabArrival | .budgetDivision
  | .allocationEffect | .peakCapReached | .voltageStep | .boostExpire | .regulatorTimeout | .trapDelivery
  | .trapEscalation | .journalRetry | .journalDiscard | .freezeStart | .rackFreeze | .freezeTargetTimeout
  | .freezeComplete | .freezeResume | .resumeComplete | .attest | .identity | .release | .ceilings | .powerOff
  | .ualinkTargetRequest | .softError => []
  | .st _ _ a c | .mdrn _ c a _ _ | .lease _ c a _ => [c, a]
  | .stx _ z y x b a c => namesReg y a ++ namesReg z b ++ namesReg x c
  | .beq _ _ b a | .bne _ _ b a | .blt _ _ b a | .bge _ _ b a | .bltn _ _ b a | .bgen _ _ b a | .mma _ b a _
  | .barinit b a | .baradd b a | .amoAdd _ _ _ b a _ | .amoAnd _ _ _ b a _ | .amoOr _ _ _ b a _ | .amoXor _ _ _ b a _
  | .amoMin _ _ _ b a _ | .amoMax _ _ _ b a _ | .amoMinn _ _ _ b a _ | .amoMaxn _ _ _ b a _ | .amoSwap _ _ _ b a _
  | .stul _ b a | .rel _ _ b a | .scst _ _ b a | .waitPipe _ _ b a _ | .waitMem _ _ _ _ b a _ | .tlbw b a => [b, a]
  | .vslideUp _ _ b _ _ | .vslideDn _ _ b _ _ | .vext _ b _ _ => [b]
  | .vins _ b a _ | .vlds _ _ b a _ | .vsts _ _ b a _ | .vldIndexed _ _ b a _ | .vstIndexed _ _ b a _ | .mldb a b
    => [a, b]
  | .mmag _ b g _ => [b, g]
  | .cabcfg _ c k | .cabdrn _ c k => [c, k]
  | .cabpush _ _ k w => [k, w]
  | .cabmrg k _ | .cabclr k => [k]
  | .cabrd c k i => [c, k, i]
  | .cas _ _ _ b a d => [b, a, d]

/-- A vector destination that a mask leaves some lanes of as they were (R344). -/
def merged (m : BitVec 3) (d : BitVec 5) : List (BitVec 5) := if m = 0 then [] else [d]

/-- The vector fields whose registers an instruction reads, its destination among them where that keeps lanes (R344, R345);
one of 16 and more names a queue. -/
def Instr.vreads : Instr → List (BitVec 5)
  | .add _ _ _ _ _ _ | .sub _ _ _ _ _ _ | .and _ _ _ _ _ _ | .or _ _ _ _ _ _ | .xor _ _ _ _ _ _ | .andn _ _ _ _ _ _
  | .shl _ _ _ _ _ _ | .shr _ _ _ _ _ _ | .sra _ _ _ _ _ _ | .mul _ _ _ _ _ _ | .mulh _ _ _ _ _ _
  | .mulhn _ _ _ _ _ _ | .div _ _ _ _ _ _ | .divn _ _ _ _ _ _ | .rem _ _ _ _ _ _ | .remn _ _ _ _ _ _
  | .min _ _ _ _ _ _ | .max _ _ _ _ _ _ | .minn _ _ _ _ _ _ | .maxn _ _ _ _ _ _ | .slt _ _ _ _ _ _
  | .sltn _ _ _ _ _ _ | .seq _ _ _ _ _ _ | .csel _ _ _ _ _ | .clz _ _ _ _ | .ctz _ _ _ _ | .popc _ _ _ _
  | .sext _ _ _ _ _ | .zext _ _ _ _ _ | .addi _ _ _ | .andi _ _ _ | .ori _ _ _ | .xori _ _ _ | .shli _ _ _
  | .shri _ _ _ | .srai _ _ _ | .slti _ _ _ | .lui _ _ | .addpc _ _ | .ld _ _ _ _ | .st _ _ _ _ | .ldx _ _ _ _ _ _ _
  | .stx _ _ _ _ _ _ _ | .pref _ _ | .alloc _ _ _ | .free _ _ | .beq _ _ _ _ | .bne _ _ _ _ | .blt _ _ _ _
  | .bge _ _ _ _ | .bltn _ _ _ _ | .bgen _ _ _ _ | .loop _ _ _ | .jal _ _ | .jalr _ _ _ | .realign _ | .fin | .nop
  | .vbcast _ _ _ | .mand _ _ _ | .mor _ _ _ | .mxor _ _ _ | .mnot _ _ | .mpop _ _ _ | .vtype _ | .mma _ _ _ _
  | .mmag _ _ _ _ | .mzero _ | .mldb _ _ | .mdrn _ _ _ _ _ | .mcfg _ _ | .pfx _ _ _ _ | .ecopy _ _ | .barinit _ _
  | .baradd _ _ | .cabcfg _ _ _ | .cabmrg _ _ | .cabrd _ _ _ | .cabdrn _ _ _ | .cabclr _ | .scan _ _
  | .amoAdd _ _ _ _ _ _ | .amoAnd _ _ _ _ _ _ | .amoOr _ _ _ _ _ _ | .amoXor _ _ _ _ _ _ | .amoMin _ _ _ _ _ _
  | .amoMax _ _ _ _ _ _ | .amoMinn _ _ _ _ _ _ | .amoMaxn _ _ _ _ _ _ | .amoSwap _ _ _ _ _ _ | .cas _ _ _ _ _ _
  | .ldlk _ _ _ | .stul _ _ _ | .acq _ _ _ _ | .rel _ _ _ _ | .scld _ _ _ _ | .scst _ _ _ _ | .fence _
  | .fenceP _ _ _ | .cmt | .trig | .waitList _ _ _ _ | .waitBar _ _ _ _ | .waitPipe _ _ _ _ _ | .waitJoin _ _ _ _
  | .waitEvq _ _ _ | .waitNotice _ _ _ | .waitProd _ _ _ | .waitMem _ _ _ _ _ _ _ | .send _ _ _ | .htag _ _
  | .spawn _ | .join _ _ | .launch _ _ _ | .wid _ _ | .ppush _ _ | .ppop _ _ | .ppeek _ _ | .migr _ _
  | .lease _ _ _ _ | .unlease _ _ _ | .role _ _ _ | .nack _ _ | .boost _ _ | .crr _ _ | .crrEvq _ | .crw _ _
  | .trap _ | .sysc _ | .bkpt _ | .eret | .tack | .tlbw _ _ | .tlbi _ _ | .powerUp | .bootGo | .chanterBoot
  | .droneReady | .hostAccess | .registerWrite | .doorbell | .completionDoorbell | .qcplWrite | .launchEnqueueResume
  | .launchAdmission | .rackLaunch | .residencyReport | .dispatch | .pipeActorFire | .priorityAge | .fitStarvation
  | .migrationComplete | .forwardingExpire | .pageResident | .quotaDecline | .tlbMiss | .regionTimeCommit
  | .intervalTimeClose | .loadDataReturn | .postedLineAtHome | .storeAck | .checkedAccessAtHome | .lockGrant
  | .pageMigration | .panpipeDelivery | .roleMapAck | .staleRequestReturn | .injectionSend | .messageDelivery
  | .handlerCreate | .recordPass | .firingRetire | .subtileRelease | .launchComplete | .completionJoinResume
  | .launchEndWrite | .waitConditionMet | .waitTimeout | .realignTimeout | .censusSample | .recastProposal
  | .recastDeadline | .storageCopyDone | .computeRecastRebind | .recastFinish | .leaseExpire | .matrixGrant
  | .matrixCommandDone | .copyChainStart | .scanChainStart | .chainCopy | .chainMcast | .chainDeal | .chainLoop
  | .chainIfz | .chainIfnz | .chainSignal | .chainEnd | .chainSel | .mcastLineArrival | .scanPart | .scanMerge
  | .cabArrival | .budgetDivision | .allocationEffect | .peakCapReached | .voltageStep | .boostExpire
  | .regulatorTimeout | .trapDelivery | .trapEscalation | .journalRetry | .journalDiscard | .freezeStart
  | .rackFreeze | .freezeTargetTimeout | .freezeComplete | .freezeResume | .resumeComplete | .attest | .identity
  | .release | .ceilings | .powerOff | .ualinkTargetRequest | .softError => []
  | .vadd16 _ s d | .vsub16 _ s d | .vrsub16 _ s d | .vmul16 _ s d | .vmin16 _ s d | .vmax16 _ s d | .vand16 _ s d
  | .vor16 _ s d | .vxor16 _ s d | .vmov16 _ s d | .vabs16 _ s d | .vneg16 _ s d | .vshl16 _ s d | .vshr16 _ s d
  | .vsra16 _ s d => [s.setWidth 5, d.setWidth 5]
  | .vfmak16 _ s d => [15, s.setWidth 5, d.setWidth 5]
  | .vadd32 _ m b a d | .vsub32 _ m b a d | .vrsub32 _ m b a d | .vmul32 _ m b a d | .vmin32 _ m b a d
  | .vmax32 _ m b a d | .vand32 _ m b a d | .vor32 _ m b a d | .vxor32 _ m b a d | .vshl32 _ m b a d
  | .vshr32 _ m b a d | .vsra32 _ m b a d | .vsel _ m b a d | .vperm _ m b a d => [a, b] ++ merged m d
  | .vmov32 _ m a d | .vabs32 _ m a d | .vneg32 _ m a d | .vnot _ m a d | .vexp2 _ m a d | .vlog2 _ m a d
  | .vrcp _ m a d | .vrsq _ m a d | .vscanpAdd _ m a d | .vscanpMin _ m a d | .vscanpMax _ m a d => a :: merged m d
  | .vfmak32 _ m b a d => 15 :: ([a, b] ++ merged m d)
  | .vfma _ m c b a d | .vfms _ m c b a d | .vfnma _ m c b a d => [a, b, c.setWidth 5] ++ merged m d
  | .vcmp _ _ _ b a _ | .vdot _ _ _ b a _ => [a, b]
  | .viota _ m d | .vld _ m _ _ d | .vlds _ m _ _ d | .vldIndexed _ m _ _ d => merged m d
  | .vcvt _ _ _ a d | .vslideUp _ _ _ a d | .vslideDn _ _ _ a d | .vcompress _ _ a d => [a, d]
  | .vadds _ _ b a d => [a, b, d]
  | .vredAdd _ _ _ a _ | .vredMin _ _ _ a _ | .vredMax _ _ _ a _ | .vredAnd _ _ _ a _ | .vredOr _ _ _ a _
  | .vredXor _ _ _ a _ | .vext _ _ a _ => [a]
  | .vins _ _ _ d | .unpkT5 _ _ d | .unpkI8 _ _ d | .unpkN8 _ _ d | .unpkI4 _ _ d | .unpkN4 _ _ d => [d]
  | .vst _ _ _ _ c | .vsts _ _ _ _ c | .vstIndexed _ _ _ _ c => [c]
  | .vgath _ m b _ d => b :: merged m d
  | .vscat _ _ b _ c => [b, c]
  | .cabpush _ v _ _ => [v, v + 1]

/-- The vector field that an instruction writes (R345). -/
def Instr.vwrites : Instr → Option (BitVec 5)
  | .add _ _ _ _ _ _ | .sub _ _ _ _ _ _ | .and _ _ _ _ _ _ | .or _ _ _ _ _ _ | .xor _ _ _ _ _ _ | .andn _ _ _ _ _ _
  | .shl _ _ _ _ _ _ | .shr _ _ _ _ _ _ | .sra _ _ _ _ _ _ | .mul _ _ _ _ _ _ | .mulh _ _ _ _ _ _
  | .mulhn _ _ _ _ _ _ | .div _ _ _ _ _ _ | .divn _ _ _ _ _ _ | .rem _ _ _ _ _ _ | .remn _ _ _ _ _ _
  | .min _ _ _ _ _ _ | .max _ _ _ _ _ _ | .minn _ _ _ _ _ _ | .maxn _ _ _ _ _ _ | .slt _ _ _ _ _ _
  | .sltn _ _ _ _ _ _ | .seq _ _ _ _ _ _ | .csel _ _ _ _ _ | .clz _ _ _ _ | .ctz _ _ _ _ | .popc _ _ _ _
  | .sext _ _ _ _ _ | .zext _ _ _ _ _ | .addi _ _ _ | .andi _ _ _ | .ori _ _ _ | .xori _ _ _ | .shli _ _ _
  | .shri _ _ _ | .srai _ _ _ | .slti _ _ _ | .lui _ _ | .addpc _ _ | .ld _ _ _ _ | .st _ _ _ _ | .ldx _ _ _ _ _ _ _
  | .stx _ _ _ _ _ _ _ | .pref _ _ | .alloc _ _ _ | .free _ _ | .beq _ _ _ _ | .bne _ _ _ _ | .blt _ _ _ _
  | .bge _ _ _ _ | .bltn _ _ _ _ | .bgen _ _ _ _ | .loop _ _ _ | .jal _ _ | .jalr _ _ _ | .realign _ | .fin | .nop
  | .vcmp _ _ _ _ _ _ | .vredAdd _ _ _ _ _ | .vredMin _ _ _ _ _ | .vredMax _ _ _ _ _ | .vredAnd _ _ _ _ _
  | .vredOr _ _ _ _ _ | .vredXor _ _ _ _ _ | .vdot _ _ _ _ _ _ | .vext _ _ _ _ | .mand _ _ _ | .mor _ _ _
  | .mxor _ _ _ | .mnot _ _ | .mpop _ _ _ | .vtype _ | .vst _ _ _ _ _ | .vsts _ _ _ _ _ | .vscat _ _ _ _ _
  | .vstIndexed _ _ _ _ _ | .mma _ _ _ _ | .mmag _ _ _ _ | .mzero _ | .mldb _ _ | .mdrn _ _ _ _ _ | .mcfg _ _
  | .pfx _ _ _ _ | .ecopy _ _ | .barinit _ _ | .baradd _ _ | .cabcfg _ _ _ | .cabpush _ _ _ _ | .cabmrg _ _
  | .cabrd _ _ _ | .cabdrn _ _ _ | .cabclr _ | .scan _ _ | .amoAdd _ _ _ _ _ _ | .amoAnd _ _ _ _ _ _
  | .amoOr _ _ _ _ _ _ | .amoXor _ _ _ _ _ _ | .amoMin _ _ _ _ _ _ | .amoMax _ _ _ _ _ _ | .amoMinn _ _ _ _ _ _
  | .amoMaxn _ _ _ _ _ _ | .amoSwap _ _ _ _ _ _ | .cas _ _ _ _ _ _ | .ldlk _ _ _ | .stul _ _ _ | .acq _ _ _ _
  | .rel _ _ _ _ | .scld _ _ _ _ | .scst _ _ _ _ | .fence _ | .fenceP _ _ _ | .cmt | .trig | .waitList _ _ _ _
  | .waitBar _ _ _ _ | .waitPipe _ _ _ _ _ | .waitJoin _ _ _ _ | .waitEvq _ _ _ | .waitNotice _ _ _ | .waitProd _ _ _
  | .waitMem _ _ _ _ _ _ _ | .send _ _ _ | .htag _ _ | .spawn _ | .join _ _ | .launch _ _ _ | .wid _ _ | .ppush _ _
  | .ppop _ _ | .ppeek _ _ | .migr _ _ | .lease _ _ _ _ | .unlease _ _ _ | .role _ _ _ | .nack _ _ | .boost _ _
  | .crr _ _ | .crrEvq _ | .crw _ _ | .trap _ | .sysc _ | .bkpt _ | .eret | .tack | .tlbw _ _ | .tlbi _ _ | .powerUp
  | .bootGo | .chanterBoot | .droneReady | .hostAccess | .registerWrite | .doorbell | .completionDoorbell
  | .qcplWrite | .launchEnqueueResume | .launchAdmission | .rackLaunch | .residencyReport | .dispatch
  | .pipeActorFire | .priorityAge | .fitStarvation | .migrationComplete | .forwardingExpire | .pageResident
  | .quotaDecline | .tlbMiss | .regionTimeCommit | .intervalTimeClose | .loadDataReturn | .postedLineAtHome
  | .storeAck | .checkedAccessAtHome | .lockGrant | .pageMigration | .panpipeDelivery | .roleMapAck
  | .staleRequestReturn | .injectionSend | .messageDelivery | .handlerCreate | .recordPass | .firingRetire
  | .subtileRelease | .launchComplete | .completionJoinResume | .launchEndWrite | .waitConditionMet | .waitTimeout
  | .realignTimeout | .censusSample | .recastProposal | .recastDeadline | .storageCopyDone | .computeRecastRebind
  | .recastFinish | .leaseExpire | .matrixGrant | .matrixCommandDone | .copyChainStart | .scanChainStart | .chainCopy
  | .chainMcast | .chainDeal | .chainLoop | .chainIfz | .chainIfnz | .chainSignal | .chainEnd | .chainSel
  | .mcastLineArrival | .scanPart | .scanMerge | .cabArrival | .budgetDivision | .allocationEffect | .peakCapReached
  | .voltageStep | .boostExpire | .regulatorTimeout | .trapDelivery | .trapEscalation | .journalRetry
  | .journalDiscard | .freezeStart | .rackFreeze | .freezeTargetTimeout | .freezeComplete | .freezeResume
  | .resumeComplete | .attest | .identity | .release | .ceilings | .powerOff | .ualinkTargetRequest | .softError => none
  | .vadd16 _ _ d | .vsub16 _ _ d | .vrsub16 _ _ d | .vmul16 _ _ d | .vmin16 _ _ d | .vmax16 _ _ d | .vand16 _ _ d
  | .vor16 _ _ d | .vxor16 _ _ d | .vmov16 _ _ d | .vabs16 _ _ d | .vneg16 _ _ d | .vshl16 _ _ d | .vshr16 _ _ d
  | .vsra16 _ _ d | .vfmak16 _ _ d => some (d.setWidth 5)
  | .vadd32 _ _ _ _ d | .vsub32 _ _ _ _ d | .vrsub32 _ _ _ _ d | .vmul32 _ _ _ _ d | .vmin32 _ _ _ _ d
  | .vmax32 _ _ _ _ d | .vand32 _ _ _ _ d | .vor32 _ _ _ _ d | .vxor32 _ _ _ _ d | .vmov32 _ _ _ d | .vabs32 _ _ _ d
  | .vneg32 _ _ _ d | .vshl32 _ _ _ _ d | .vshr32 _ _ _ _ d | .vsra32 _ _ _ _ d | .vfmak32 _ _ _ _ d
  | .vfma _ _ _ _ _ d | .vfms _ _ _ _ _ d | .vfnma _ _ _ _ _ d | .vnot _ _ _ d | .vexp2 _ _ _ d | .vlog2 _ _ _ d
  | .vrcp _ _ _ d | .vrsq _ _ _ d | .viota _ _ d | .vcvt _ _ _ _ d | .vsel _ _ _ _ d | .vperm _ _ _ _ d
  | .vslideUp _ _ _ _ d | .vslideDn _ _ _ _ d | .vcompress _ _ _ d | .vadds _ _ _ _ d | .vscanpAdd _ _ _ d
  | .vscanpMin _ _ _ d | .vscanpMax _ _ _ d | .vbcast _ _ d | .vins _ _ _ d | .unpkT5 _ _ d | .unpkI8 _ _ d
  | .unpkN8 _ _ d | .unpkI4 _ _ d | .unpkN4 _ _ d | .vld _ _ _ _ d | .vlds _ _ _ _ d | .vgath _ _ _ _ d
  | .vldIndexed _ _ _ _ d => some d

/-- The mask register that an instruction writes (R351, R362). -/
def Instr.mwrites : Instr → Option (BitVec 5)
  | .add _ _ _ _ _ _ | .sub _ _ _ _ _ _ | .and _ _ _ _ _ _ | .or _ _ _ _ _ _ | .xor _ _ _ _ _ _ | .andn _ _ _ _ _ _
  | .shl _ _ _ _ _ _ | .shr _ _ _ _ _ _ | .sra _ _ _ _ _ _ | .mul _ _ _ _ _ _ | .mulh _ _ _ _ _ _
  | .mulhn _ _ _ _ _ _ | .div _ _ _ _ _ _ | .divn _ _ _ _ _ _ | .rem _ _ _ _ _ _ | .remn _ _ _ _ _ _
  | .min _ _ _ _ _ _ | .max _ _ _ _ _ _ | .minn _ _ _ _ _ _ | .maxn _ _ _ _ _ _ | .slt _ _ _ _ _ _
  | .sltn _ _ _ _ _ _ | .seq _ _ _ _ _ _ | .csel _ _ _ _ _ | .clz _ _ _ _ | .ctz _ _ _ _ | .popc _ _ _ _
  | .sext _ _ _ _ _ | .zext _ _ _ _ _ | .addi _ _ _ | .andi _ _ _ | .ori _ _ _ | .xori _ _ _ | .shli _ _ _
  | .shri _ _ _ | .srai _ _ _ | .slti _ _ _ | .lui _ _ | .addpc _ _ | .ld _ _ _ _ | .st _ _ _ _ | .ldx _ _ _ _ _ _ _
  | .stx _ _ _ _ _ _ _ | .pref _ _ | .alloc _ _ _ | .free _ _ | .beq _ _ _ _ | .bne _ _ _ _ | .blt _ _ _ _
  | .bge _ _ _ _ | .bltn _ _ _ _ | .bgen _ _ _ _ | .loop _ _ _ | .jal _ _ | .jalr _ _ _ | .realign _ | .fin | .nop
  | .vadd16 _ _ _ | .vsub16 _ _ _ | .vrsub16 _ _ _ | .vmul16 _ _ _ | .vmin16 _ _ _ | .vmax16 _ _ _ | .vand16 _ _ _
  | .vor16 _ _ _ | .vxor16 _ _ _ | .vmov16 _ _ _ | .vabs16 _ _ _ | .vneg16 _ _ _ | .vshl16 _ _ _ | .vshr16 _ _ _
  | .vsra16 _ _ _ | .vfmak16 _ _ _ | .vadd32 _ _ _ _ _ | .vsub32 _ _ _ _ _ | .vrsub32 _ _ _ _ _ | .vmul32 _ _ _ _ _
  | .vmin32 _ _ _ _ _ | .vmax32 _ _ _ _ _ | .vand32 _ _ _ _ _ | .vor32 _ _ _ _ _ | .vxor32 _ _ _ _ _
  | .vmov32 _ _ _ _ | .vabs32 _ _ _ _ | .vneg32 _ _ _ _ | .vshl32 _ _ _ _ _ | .vshr32 _ _ _ _ _ | .vsra32 _ _ _ _ _
  | .vfmak32 _ _ _ _ _ | .vfma _ _ _ _ _ _ | .vfms _ _ _ _ _ _ | .vfnma _ _ _ _ _ _ | .vnot _ _ _ _ | .vexp2 _ _ _ _
  | .vlog2 _ _ _ _ | .vrcp _ _ _ _ | .vrsq _ _ _ _ | .viota _ _ _ | .vcvt _ _ _ _ _ | .vsel _ _ _ _ _
  | .vperm _ _ _ _ _ | .vslideUp _ _ _ _ _ | .vslideDn _ _ _ _ _ | .vcompress _ _ _ _ | .vadds _ _ _ _ _
  | .vscanpAdd _ _ _ _ | .vscanpMin _ _ _ _ | .vscanpMax _ _ _ _ | .vredAdd _ _ _ _ _ | .vredMin _ _ _ _ _
  | .vredMax _ _ _ _ _ | .vredAnd _ _ _ _ _ | .vredOr _ _ _ _ _ | .vredXor _ _ _ _ _ | .vdot _ _ _ _ _ _
  | .vbcast _ _ _ | .vins _ _ _ _ | .vext _ _ _ _ | .unpkT5 _ _ _ | .unpkI8 _ _ _ | .unpkN8 _ _ _ | .unpkI4 _ _ _
  | .unpkN4 _ _ _ | .mpop _ _ _ | .vtype _ | .vld _ _ _ _ _ | .vst _ _ _ _ _ | .vlds _ _ _ _ _ | .vsts _ _ _ _ _
  | .vgath _ _ _ _ _ | .vscat _ _ _ _ _ | .vldIndexed _ _ _ _ _ | .vstIndexed _ _ _ _ _ | .mma _ _ _ _
  | .mmag _ _ _ _ | .mzero _ | .mldb _ _ | .mdrn _ _ _ _ _ | .mcfg _ _ | .pfx _ _ _ _ | .ecopy _ _ | .barinit _ _
  | .baradd _ _ | .cabcfg _ _ _ | .cabpush _ _ _ _ | .cabmrg _ _ | .cabrd _ _ _ | .cabdrn _ _ _ | .cabclr _
  | .scan _ _ | .amoAdd _ _ _ _ _ _ | .amoAnd _ _ _ _ _ _ | .amoOr _ _ _ _ _ _ | .amoXor _ _ _ _ _ _
  | .amoMin _ _ _ _ _ _ | .amoMax _ _ _ _ _ _ | .amoMinn _ _ _ _ _ _ | .amoMaxn _ _ _ _ _ _ | .amoSwap _ _ _ _ _ _
  | .cas _ _ _ _ _ _ | .ldlk _ _ _ | .stul _ _ _ | .acq _ _ _ _ | .rel _ _ _ _ | .scld _ _ _ _ | .scst _ _ _ _
  | .fence _ | .fenceP _ _ _ | .cmt | .trig | .waitList _ _ _ _ | .waitBar _ _ _ _ | .waitPipe _ _ _ _ _
  | .waitJoin _ _ _ _ | .waitEvq _ _ _ | .waitNotice _ _ _ | .waitProd _ _ _ | .waitMem _ _ _ _ _ _ _ | .send _ _ _
  | .htag _ _ | .spawn _ | .join _ _ | .launch _ _ _ | .wid _ _ | .ppush _ _ | .ppop _ _ | .ppeek _ _ | .migr _ _
  | .lease _ _ _ _ | .unlease _ _ _ | .role _ _ _ | .nack _ _ | .boost _ _ | .crr _ _ | .crrEvq _ | .crw _ _
  | .trap _ | .sysc _ | .bkpt _ | .eret | .tack | .tlbw _ _ | .tlbi _ _ | .powerUp | .bootGo | .chanterBoot
  | .droneReady | .hostAccess | .registerWrite | .doorbell | .completionDoorbell | .qcplWrite | .launchEnqueueResume
  | .launchAdmission | .rackLaunch | .residencyReport | .dispatch | .pipeActorFire | .priorityAge | .fitStarvation
  | .migrationComplete | .forwardingExpire | .pageResident | .quotaDecline | .tlbMiss | .regionTimeCommit
  | .intervalTimeClose | .loadDataReturn | .postedLineAtHome | .storeAck | .checkedAccessAtHome | .lockGrant
  | .pageMigration | .panpipeDelivery | .roleMapAck | .staleRequestReturn | .injectionSend | .messageDelivery
  | .handlerCreate | .recordPass | .firingRetire | .subtileRelease | .launchComplete | .completionJoinResume
  | .launchEndWrite | .waitConditionMet | .waitTimeout | .realignTimeout | .censusSample | .recastProposal
  | .recastDeadline | .storageCopyDone | .computeRecastRebind | .recastFinish | .leaseExpire | .matrixGrant
  | .matrixCommandDone | .copyChainStart | .scanChainStart | .chainCopy | .chainMcast | .chainDeal | .chainLoop
  | .chainIfz | .chainIfnz | .chainSignal | .chainEnd | .chainSel | .mcastLineArrival | .scanPart | .scanMerge
  | .cabArrival | .budgetDivision | .allocationEffect | .peakCapReached | .voltageStep | .boostExpire
  | .regulatorTimeout | .trapDelivery | .trapEscalation | .journalRetry | .journalDiscard | .freezeStart
  | .rackFreeze | .freezeTargetTimeout | .freezeComplete | .freezeResume | .resumeComplete | .attest | .identity
  | .release | .ceilings | .powerOff | .ualinkTargetRequest | .softError => none
  | .vcmp _ _ _ _ _ d | .mand _ _ d | .mor _ _ d | .mxor _ _ d | .mnot _ d => some d

end Sys2Proof.Machine
end

