-- ==== Sys2Proof/Machine/Frame.lean ====
section
/-! DEFINITION. The frame around every instruction: which encodings and privileges are refused, how the two streams meet,
and what becomes of an instruction that does not complete. -/

namespace Sys2Proof.Machine

/-- The data of a context's outstanding loads has been delivered (R347); a request that waits at a bank may be left to
wait. -/
def Ctx.settled (c : Ctx) : Bool := c.loads.all (·.kind != .plain)

/-- A park (R117): the region aborts and the firing leaves its slot until Drone has made the page resident.  Matrix
commands that it has queued complete first (R64), and so do its pending synchronizing operations; its checked interval
closes (R163), and its boost lease stands still (R259). -/
def Cx.park (x : Cx) (va access : Nat) : State :=
  if x.c.checkedSince.isSome then x.closeStopped.put.settle x.slot
  else if x.s.matrixBusy x.c.uid || !x.c.pend.isEmpty || !x.abort.c.settled then x.s
  else
    let x := x.abort
    let (s, c) := x.s.suspend x.core x.c
    let (s, c) := s.leave x.slot c
    let c := { c with st := .pageWait va access }
    { s with ready := s.ready ++ [{ c.readyEntry s.time with blocking := true }] }

/-! ## The frame around an instruction -/

/-- The vector stream stands at an instruction boundary (R64): it has nothing to run, or its oldest instruction, which has had no
effect, names an empty vector queue or a full one, on which it may block for good (R289, R478). -/
def Ctx.vrests (c : Ctx) : Bool :=
  match c.vstream with
  | [] => true
  | d :: _ =>
    ((Instr.vreads d.instr).any fun r => decide (16 ≤ r.toNat) && (c.regs.vq.get (r.toNat - 16) []).isEmpty) ||
      (d.fills.any fun q => decide (4 ≤ (c.regs.vq.get q []).length)) ||
      d.pushes.any fun q => decide (8 ≤ (c.regs.sq.get q []).length)

/-- What becomes of an attempt at an instruction.  A precise trap waits until every earlier instruction of the vector
stream is complete (R347); a due asynchronous trap is taken at a boundary of both streams before the instruction issues, unless the
instruction itself traps (R449, R456). DEDUCED (92). -/
def Cx.conclude (x : Cx) (s : State) : Except Stop State → Host.Outcome State Fault Refusal
  | .error (.refuse r) => .refused r
  | .error (.raise t) => .next (if x.c.vstream = [] then (x.raise t).settle x.slot else s)
  | r =>
    match x.c.asyncs with
    | a :: rest =>
      .next (if x.c.vrests then s.takeTrap x.who { x.c with asyncs := rest } { a with resume := x.c.pc } else s)
    | [] =>
      match r with
      | .ok t => .next t
      | .error .waiting => .next (s.putCtx x.who { x.c with stalled := true })
      | .error (.miss va a) => .next (s.putCtx x.who { x.c with st := .missing va a })
      | .error (.park va a) => .next (x.park va a)
      | .error (.pageWait va a) => .next (s.putCtx x.who { x.c with st := .pageWait va a })
      | .error (.stay t) => .next (t.settle x.slot)
      | _ => .next s

/-- How an instruction meets vector instructions that its slot has forwarded and that are not complete (R343, R345). -/
inductive Meets where
  /-- It waits until none is left. -/
  | alone
  /-- It goes on beside them, unless one of them will write a scalar register or push a scalar queue that it names. -/
  | beside (regs : List (BitVec 5)) (pushes : Option Nat)

def Meets.free (m : Meets) (c : Ctx) : Bool :=
  match m with
  | .alone => c.vstream.isEmpty
  | .beside regs pushes => c.vstream.all fun d =>
      (match d.writes with
        | some r => !regs.contains r
        | none => true) &&
      (match d.pushes with
        | some q => !(pushes == some q)
        | none => true)

/-- What is particular to an instruction's issue. -/
structure How where
  /-- It takes a pending format prefix (R219). -/
  prefixed : Bool := false
  /-- A firing may not execute it (R311). -/
  privileged : Bool := false
  /-- System and hub cores have it (log entry 14). -/
  system : Bool := false
  meets : Meets := .alone

/-- A vector register that the instruction reads is still to receive its value (R365). -/
def Ctx.vwaits (c : Ctx) (i : Instr) : Bool := c.regs.vdue.any fun e => (Instr.vreads i).any (·.toNat == e.1)

/-- Nothing that the scalar stream reads for the instruction is still to receive its value: an operand (R398), the register that
a pending format prefix names (R219), and a vector register of an instruction that the vector stream does not run.
DEDUCED (115). -/
def Ctx.arrived (c : Ctx) (h : How) (i : Instr) : Bool :=
  (c.regs.due.all fun e => !((Instr.reads i).any (·.toNat == e.1)) &&
    !(h.prefixed && bit c.regs.status 5 && field c.regs.pfx 8 5 == e.1)) &&
    match h.meets with
    | .alone => !c.vwaits i
    | .beside .. => true

/-- The word of an instruction, as the detail word of a trap carries it (R449). -/
def Instr.detail (i : Instr) : Word := BitVec.ofNat 64 (encode i)

/-- An attempt at an instruction: an illegal encoding (R314, R219), then privilege (R315), then its effect. -/
def Cx.attempt (x : Cx) (h : How) (i : Instr) (legal : Bool) (body : Cx → Except Stop State) : Except Stop State :=
  if !i.wellFormed || !legal || (bit x.c.regs.status 5 && !h.prefixed) then
    .error (.raise (x.trap 4 3 x.c.pc (Instr.detail i)))
  else if h.privileged && x.isFiring then .error (.raise (x.trap 5 3 x.c.pc (Instr.detail i)))
  else if !x.isFiring && !h.system then .error (.refuse .systemCoreForm)
  else if !h.meets.free x.c || !x.c.arrived h i then .error .stall
  else body x

/-- An issuer's vector stream may run its oldest instruction (R343): also while the scalar stream waits, and in a freeze,
until it is empty (R347). -/
def Ctx.vectorRuns (c : Ctx) : Bool :=
  match c.st with
  | .trapped .. => false
  | .moving => false
  | .ended _ => false
  | .realign .. => false
  | _ => true

/-- An issuer may issue: a firing outside a freeze (R69), a system or hub core once it is released (R260). -/
def State.mayIssue (s : State) : Issuer → Bool
  | .slot _ => !s.halted
  | .sys n => decide (4 ≤ s.host.stage) && decide (n < 80) && (decide (n < 16) || !s.absentHubs.contains (n - 16))

/-- The vector instruction in hand of the current issuer, if its vector stream may run. -/
def State.vectorHand (s : State) : Option Cx :=
  match s.ctxOf s.cur with
  | some c => if c.vectorRuns ∧ s.host.frzState ≤ 1 then some { s := s, who := s.cur, c := c } else none
  | none => none

/-- The instruction in hand of the current issuer, if it is one that may issue. DESIGN CHOICE (108). -/
def State.hand (s : State) : Option Cx :=
  match s.ctxOf s.cur with
  | some c => if c.st = .running ∧ s.mayIssue s.cur then some { s := s, who := s.cur, c := c } else none
  | none => none

/-- An instruction issues in the current issuer's scalar stream; where no firing runs there, nothing happens. -/
def issue (h : How) (i : Instr) (legal : Ctx → Bool) (body : Cx → Except Stop State) (s : State) :
    Host.Outcome State Fault Refusal :=
  match s.hand with
  | none => .next s
  | some x => x.conclude s (x.attempt h i (legal x.c) body)

/-- The usual case: nothing beyond `wellFormed` decides legality, and the body leaves a context to put back. -/
def issueOn (h : How) (i : Instr) (body : Cx → Except Stop Cx) (s : State) : Host.Outcome State Fault Refusal :=
  issue h i (fun _ => true) (fun x => (body x).map Cx.put) s

end Sys2Proof.Machine
end

