-- ==== Sys2Proof/Machine/Kill.lean ====
section
/-! DEFINITION. How a firing ends (R340, R461, R462) and how a launch is killed (R463). -/

namespace Sys2Proof.Machine

/-- A firing's reserved records return to the heads of their pipes (R44); those of a killed launch are discarded (R463). -/
def State.returnRecords (s : State) (c : Ctx) : State :=
  match s.launchOf c.launch c.gen with
  | none => s
  | some l =>
    s.setLaunch c.launch (c.reserved.foldl (fun l e =>
      { l with
        records := if l.killed then l.records else l.records.set e.1 (e.2 ++ l.records.get e.1 []) []
        reservedCount := l.reservedCount.set e.1 (l.reservedCount.get e.1 0 - e.2.length) 0 }) l)

/-- A running boost lease ends and its charge returns to its district's leaf (R259). -/
def State.endBoost (s : State) (core : Nat) (c : Ctx) : State :=
  match c.boost with
  | some b =>
    if b.suspended then s
    else s.unreserve (districtOf core) b.charge
  | none => s

/-- A message waits in its inbox again for the next handler firing of its tag (R461). -/
def State.unbegin (s : State) (core entry : Nat) : State :=
  let k := s.coreAt core
  s.setCore core { k with inbox := k.inbox.map fun m => if m.entry = entry then { m with begun := false, running := false } else m }

/-- The message of a handler firing leaves the inbox (R59), or, where the firing was killed, waits there for the next
handler firing of its tag (R461). -/
def State.handled (s : State) (core : Nat) (c : Ctx) (killed : Bool) : State :=
  match c.msg with
  | none => s
  | some (e, _) =>
    let k := s.coreAt core
    if killed then s.unbegin core e else s.setCore core { k with inbox := k.inbox.filter fun m => m.entry != e }

/-- A lock bit that the firing holds is cleared without a write, and reported (R340, R462); a request of it for one is
withdrawn. -/
def State.dropLock (s : State) (slot inc : Nat) (c : Ctx) : State :=
  let s := match c.lock with
    | some (l, va) =>
      (s.setLock l { s.lockAt l with owner := none }).orphan 2 3 slot inc (BitVec.ofNat 64 va) 0 (some (c.launch, c.gen))
    | none => s
  c.loads.foldl (fun s l => match l.kind with
    | .lock l .. => s.setLock l { s.lockAt l with queue := (s.lockAt l).queue.filter (· != c.uid) }
    | _ => s) s

/-- Asynchronous traps that wait at a firing that ends become orphan reports (R456). DEDUCED (66). -/
def State.orphanAll (s : State) (slot inc : Nat) (c : Ctx) : State :=
  c.asyncs.foldl (fun s t => s.orphanTrap t slot inc c.launch c.gen) s

/-- The context of a firing that has ended and has still to retire: what it has committed, the atomics that it has issued,
and what waits to complete. -/
def Ctx.finished (c : Ctx) (killed : Bool) : Ctx :=
  { c with
    st := .ended killed, regs := {}, region := {}, loads := c.loads.filter (·.atomic), vstream := [], boost := none,
    lock := none, msg := none,
    reserved := [], asyncs := [], stalled := false, verdicts := [],
    pend := c.pend.filter fun p => !p.kind.holds }

/-- The end of the firing in a slot (R340, R455, R461): the region commits or is discarded, and everything else that R340
lists takes place; the firing then waits to retire. -/
def Cx.finish (x : Cx) (discard killed : Bool) : State :=
  let x := (if discard then x else x.commit).closeInterval
  let s := (x.s.returnRecords x.c).endBoost x.core x.c
  let s := s.handled x.core x.c killed
  let s := s.dropLock x.slot x.slotInc x.c
  let s := { s with moves := s.moves.filter (·.src != x.slot) }
  let s := s.orphanAll x.slot x.slotInc x.c
  ((s.putCtx x.who (x.c.finished killed)).settle x.slot).realignTest (tileOf x.core)

/-- Entries that a firing that has gone has not read are discarded; one that carries an error is also reported (R124, R341).
DEDUCED (66). -/
def State.discardEvents (s : State) (slot inc : Nat) (c : Ctx) (es : List EvEntry) : State :=
  es.foldl (fun s e =>
    let status := field e.word 24 8
    if 4 ≤ status then
      s.orphan 8 3 slot inc e.addr (BitVec.ofNat 64 (status + field e.word 0 24 * 256 + field e.word 32 3 * 2 ^ 32))
        (some (c.launch, c.gen)) true
    else s) s

/-- A work firing that has not triggered counts as having executed `FIN` once it has ended (R54, R340, R463). -/
def State.countEnded (s : State) (c : Ctx) : State :=
  match s.launchOf c.launch c.gen with
  | some l => if c.kind = 0 ∧ !c.trig then s.setLaunch c.launch { l with triggered := l.triggered + 1 } else s
  | none => s

/-- A firing that held no slot has gone: its parked forwarding entries end, and the messages that a hub held for it go on to their
destination (R504), where nothing answers to the pair. -/
def State.unpark (s : State) (uid : Nat) : State :=
  let mine (p : Packet) : Bool := p.heldFor == some uid
  { s with
    flying := s.hubHeld.filter mine ++ s.flying
    hubHeld := s.hubHeld.filter (!mine ·)
    slots := s.slots.map fun e => (e.1, { e.2 with fwd := e.2.fwd.filter fun f => !(f.uid == uid && f.dst.isNone) }) }

/-- A parked firing of a killed launch ends where it is, without a slot. -/
def State.finishParked (s : State) (c : Ctx) : State :=
  let s := (s.returnRecords c).countEnded c
  let s := match c.msg with
    | some _ => s.handled c.place c true
    | none => s
  let s := s.dropLock 0xFFFF 0 c
  ((s.orphanAll 0xFFFF 0 c).discardEvents 0xFFFF 0 c c.evHeld).unpark c.uid

/-- A launch is killed (R463): no further firing, ready ones that have not begun and unrun records are discarded, running
and waiting firings end as killed, trapped ones at their `ERET`, and the records in its pipes are discarded.  Drone records
the kill against the launch (R464). -/
def State.killLaunch (s : State) (i : Nat) : State :=
  match s.launches.get? i with
  | none => s
  | some l =>
    if l.killed then s
    else
      let mine (r : Ready) : Bool := r.launch == i && r.gen == l.gen
      let parked := (s.ready.filter mine).filterMap (·.ctx)
      let waiting := (s.ready.filter mine).filter (·.ctx.isNone)
      let s := s.setLaunch i { l with killed := true }
      let s := { s with
        ready := s.ready.filter (!mine ·)
        conts := s.conts.filter fun k => !(k.launch == i && k.gen == l.gen)
        admission := s.admission.filter (·.2 != i)
        slots := s.slots.map fun e =>
          if e.2.reservedFor.any fun f => f.1 == i && f.2.1 == l.gen then (e.1, { e.2 with reservedFor := none }) else e
        kills := s.kills ++ [i + l.gen * 2 ^ 13] }
      let s := (waiting.filterMap (·.handler)).foldl (fun s h => s.unbegin h.1 h.2.1) s
      let s := parked.foldl State.finishParked s
      let s := s.slots.foldl (fun s e =>
        match (s.slotAt e.1).ctx with
        | some c =>
          if c.launch = i ∧ c.gen = l.gen then
            match c.st with
            | .trapped .. => s
            | .ended _ => s
            | _ => ({ s := s, who := .slot e.1, c := c } : Cx).finish true true
          else s
        | none => s) s
      match s.launches.get? i with
      | none => s
      | some l => s.setLaunch i { (l.credit 1 (l.gangCopies * l.pipeBytes 0)).credit 3 (l.pipeBytes 1) with
          records := []
          copies := [] }

/-- A handle written to the launch-end register (R463): a generation that no longer matches is ignored (R53). -/
def State.endHandle (s : State) (h : Nat) : State :=
  match s.launchOf (h % 2 ^ 13) (h / 2 ^ 13 % 2 ^ 19) with
  | some _ => s.killLaunch (h % 2 ^ 13)
  | none => s

end Sys2Proof.Machine
end

