-- ==== Sys2Proof/Machine/Alloc.lean ====
section
/-! DEFINITION. Allocation pools: the buddy allocator, charges and quotas (R100 to R103, R331 to R333). -/

namespace Sys2Proof.Machine

/-- log2 of the class of a size: the smallest power of two not below it, at least 2^6 (R100). -/
def classLg (n : Nat) : Nat := Nat.max 6 (if n ≤ 1 then 0 else Nat.log2 (n - 1) + 1)

/-- The smallest of some numbers. -/
def leastOf : List Nat → Option Nat
  | [] => none
  | a :: l => match leastOf l with
    | none => some a
    | some b => some (Nat.min a b)

/-- A block of a class taken from a free list (R100): the lowest-addressed of the class, or of the smallest larger class
that has one, split; its offset and the list that remains. -/
def takeBlock (free : List (Nat × Nat)) (lg : Nat) : Option (Nat × List (Nat × Nat)) :=
  match leastOf ((free.filter fun b => decide (lg ≤ b.2)).map (·.2)) with
  | none => none
  | some k =>
    match leastOf ((free.filter (·.2 == k)).map (·.1)) with
    | none => none
    | some off =>
      some (off, (free.filter fun b => !(b.1 == off && b.2 == k)) ++
        (List.range (k - lg)).map fun i => (off + 2 ^ (lg + i), lg + i))

/-- A block returned to a free list and merged with its buddy whenever that is free, up to 2^21 bytes (R100). -/
def giveBlock : Nat → List (Nat × Nat) → Nat → Nat → List (Nat × Nat)
  | 0, free, off, lg => (off, lg) :: free
  | n + 1, free, off, lg =>
    let buddy := Nat.xor off (2 ^ lg)
    if lg < 21 ∧ free.any (fun b => b.1 == buddy && b.2 == lg) then
      giveBlock n (free.filter fun b => !(b.1 == buddy && b.2 == lg)) (Nat.min off buddy) (lg + 1)
    else (off, lg) :: free

/-- The pool of a tier for a firing's position (R100, R331). -/
def poolUnit (tier core asn : Nat) : Nat := if tier = 1 then quadOf core else if tier = 2 then tileOf core else asn

def State.poolOf (s : State) (tier unit : Nat) : Option Pool := s.pools.find? fun p => p.tier == tier && p.unit == unit

def State.setPool (s : State) (p : Pool) : State :=
  { s with pools := p :: s.pools.filter fun q => !(q.tier == p.tier && q.unit == p.unit) }

/-- The physical address of a pool's offset, in tiers 1 to 3 (R76, R94). -/
def State.poolAddr (s : State) (p : Pool) (off : Nat) : Option Nat :=
  match p.tier with
  | 1 => some (0x4000000000000 + p.unit / 2 * 0x800000 + 0x100000 * (1 + p.unit % 2) + off)
  | 2 => some (0x4000000000000 + p.unit * 0x800000 + 0x400000 + off)
  | 3 => (s.windows.find? (·.asn == p.unit)).map fun w => 0x6000000000000 + w.id * 2 ^ 33 + off
  | _ => none

/-- A range of memory set to zero, as every path sees it, and its race tags cleared (R82, R166, R332). DEDUCED (39). -/
def State.zeroFill (s : State) (pa n : Nat) : State :=
  let inside (a : Nat) : Bool := decide (pa ≤ a) && decide (a < pa + n)
  { s with
    mem := s.mem.filter fun e => !inside e.1
    unseen := s.unseen.filter fun u => !inside u.pa
    tags := s.tags.filter fun e => !inside e.1
    badLines := s.badLines.filter fun l => !(inside l && inside (l + 63)) }

/-- The race tags of a range cleared (R166, R332). -/
def State.clearTags (s : State) (pa n : Nat) : State :=
  { s with tags := s.tags.filter fun e => !(decide (pa ≤ e.1) && decide (e.1 < pa + n)) }

/-- The status of an allocation of `n` bytes in tier `t` for a launch, or the block, its pool and the pool that remains
(R101, R331): 1 QUOTA, 2 EMPTY, 3 BADSIZE, 4 BADTIER. DEDUCED (39). -/
def State.allocate (s : State) (l : Launch) (core asn t n : Nat) : Except Nat (Nat × Pool) :=
  if t = 0 ∨ 5 < t then .error 4
  else if n = 0 ∨ 2 ^ 21 < n then .error 3
  else
    let quota := l.quota.getD (t - 1) 0
    if quota ≠ 0xFFFFFFFF ∧ quota * 65536 < l.charge.get t 0 + 2 ^ classLg n then .error 1
    else
      match s.poolOf t (poolUnit t core asn) with
      | none => .error 2
      | some p =>
        if p.views.all (·.1 != asn) then .error 2
        else
          match takeBlock p.free (classLg n) with
          | none => .error 2
          | some (off, free) => .ok (off, { p with free := free })

/-- Blocks of these places and sizes lie clear of what a pool has. -/
def Pool.clear (p : Pool) (off lg : Nat) : Bool :=
  let apart (o l : Nat) : Bool := decide (o + 2 ^ l ≤ off) || decide (off + 2 ^ lg ≤ o)
  (p.free.all fun b => apart b.1 b.2) && p.live.all fun b => apart b.off b.lg

/-- A pool, or an empty one. -/
def State.poolAt (s : State) (tier unit : Nat) : Pool :=
  (s.poolOf tier unit).getD { tier := tier, unit := unit, views := [], free := [], live := [], holder := [] }

/-- The three buddy regions of a logical block of tier 3, of 4, 2 and 1 MiB, as free blocks of the largest class that they
hold (R100). -/
def blockRegions (block : Nat) : List (Nat × Nat) :=
  [(0, 21), (0x200000, 21), (0x400000, 21), (0x600000, 20)].map fun r => (block * 0x800000 + r.1, r.2)

/-- The tier-3 pool of an address space takes in a logical block that is bound (R96, R100). -/
def State.growPool (s : State) (asn block : Nat) : State :=
  let p := s.poolAt 3 asn
  if (blockRegions block).all fun r => p.clear r.1 r.2 then s.setPool { p with free := blockRegions block ++ p.free } else s

/-- A logical block of a window has been bound: the pool of the window's address space takes it in (R76, R100). -/
def State.poolBound (s : State) (window block : Nat) : State :=
  match s.windows.find? (·.id == window) with
  | some w => s.growPool w.asn block
  | none => s

/-- A failure of a tier-3 allocation, as the census counts it (R80). -/
def State.countT3 (s : State) (core t : Nat) : State :=
  if t = 3 then
    let d := districtOf core
    let k := s.census.get d {}
    { s with census := s.census.set d { k with t3fail := k.t3fail + 1 } {} }
  else s

/-- A block becomes live (R101, R332): charged, zero-filled where another address space held it or nobody did, and its race
tags cleared. -/
def State.takeLive (s : State) (c : Ctx) (l : Launch) (p : Pool) (off lg : Nat) : State :=
  let units := (List.range (2 ^ lg / 64)).map (off / 64 + ·)
  let dirty := p.tier ≤ 2 ∧ units.any fun u => p.holder.get u 0 != c.asn + 1
  let p := { p with
    live := { off := off, lg := lg, launch := some (c.launch, c.gen) } :: p.live
    holder := if p.tier ≤ 2 then units.foldl (fun h u => h.set u (c.asn + 1) 0) p.holder else p.holder }
  let s := (s.setPool p).setLaunch c.launch { l with charge := l.charge.set p.tier (l.charge.get p.tier 0 + 2 ^ lg) 0 }
  match s.poolAddr p off with
  | some pa => if dirty then s.zeroFill pa (2 ^ lg) else s.clearTags pa (2 ^ lg)
  | none => s

/-- `ALLOC` (R331). -/
def execAlloc (t : BitVec 12) (a d : BitVec 5) (s : State) : Host.Outcome State Fault Refusal :=
  issueOn {} (.alloc t a d) (fun x =>
    let n := (x.c.sreg a).toNat
    let x := x.commit
    let done (s : State) (v : Nat) : Except Stop Cx :=
      .ok (({ x with s := s, c := x.c.setS d (BitVec.ofNat 64 v) }.next 4).begin)
    match x.s.launchOf x.c.launch x.c.gen with
    | none => done x.s 2
    | some l =>
      match x.s.allocate l x.core x.c.asn t.toNat n with
      | .error st => done (x.s.countT3 x.core t.toNat) st
      | .ok (off, p) =>
        done (x.s.takeLive x.c l p off (classLg n))
          (((p.views.find? (·.1 == x.c.asn)).map (·.2)).getD 0 + off)) s

/-- A live block at a virtual address of an address space: its pool and the block. -/
def State.liveAt (s : State) (asn va : Nat) : Option (Pool × Block) :=
  s.pools.findSome? fun p =>
    match p.views.find? (·.1 == asn) with
    | some (_, base) => (p.live.find? fun b => base + b.off == va).map (p, ·)
    | none => none

/-- A pool whose quad store or slice is not in compute role takes no block back (R333). -/
def State.poolTakes (s : State) (p : Pool) : Bool :=
  match p.tier with
  | 1 => s.compute (p.unit / 2)
  | 2 => s.compute p.unit
  | _ => true

/-- The pool in whose memory a frame of tier 1 or 2 lies, and the frame's offset there. -/
def State.poolHolding (s : State) (pa : Nat) : Option (Pool × Nat) :=
  if regionOf pa ≠ 2 then none
  else
    match tierOf pa with
    | some 1 =>
      let q := pa % 0x800000 / 0x100000 - 1
      (s.poolOf 1 (tileOfPa pa * 2 + q)).map (·, pa % 0x100000)
    | some 2 => (s.poolOf 2 (tileOfPa pa)).map (·, pa % 0x800000 - 0x400000)
    | _ => none

/-- A frame that held a moved block is free: it returns to the pool that gave it, or to Drone (R333). DESIGN CHOICE (129). -/
def State.giveFrame (s : State) (pa n : Nat) : State :=
  match s.poolHolding pa with
  | some (p, off) => s.setPool { p with free := giveBlock 16 p.free off (Nat.log2 n) }
  | none => { s with freeFrames := (pa, n) :: s.freeFrames }

/-- A free block without a block that lies in it, split down to that one (R100). -/
def carve (free : List (Nat × Nat)) (off lg : Nat) : Option (List (Nat × Nat)) :=
  (free.find? fun b => decide (lg ≤ b.2) && decide (b.1 ≤ off) && decide (off + 2 ^ lg ≤ b.1 + 2 ^ b.2)).map fun b =>
    free.erase b ++ (List.range (b.2 - lg)).map fun i =>
      let k := lg + i
      (Nat.xor (off - off % 2 ^ k) (2 ^ k), k)

/-- A frame to which a page goes is taken: from its pool's free blocks, or from those that `FREE` has released. -/
def State.takeFrame (s : State) (pa n : Nat) : State :=
  match s.poolHolding pa with
  | some (p, off) =>
    match carve p.free off (Nat.log2 n) with
    | some free => s.setPool { p with free := free }
    | none => s
  | none => { s with freeFrames := s.freeFrames.filter (· != (pa, n)) }

/-- A frame holds none of a pool's live blocks. -/
def State.frameFree (s : State) (pa n : Nat) : Bool :=
  match s.poolHolding pa with
  | some (p, off) => p.live.all fun b => decide (b.off + 2 ^ b.lg ≤ off) || decide (off + n ≤ b.off)
  | none => true

/-- A block is freed, and its charge is credited to the launch that allocated it (R102): it goes back to its pool, unless pages of
it have left the pool's tile; then the frames that hold those, and nothing else, are released (R333). DESIGN CHOICE (129). -/
def State.release (s : State) (p : Pool) (b : Block) : State :=
  let s := s.setPool { p with
    live := p.live.filter (·.off != b.off)
    free := if s.poolTakes p ∧ b.moved = false then giveBlock 16 p.free b.off b.lg else p.free }
  let others := s.pools.flatMap fun q => q.live.flatMap (·.frames)
  let s := (b.frames.filter fun f => !others.contains f).foldl (fun s f => s.giveFrame f.1 f.2) s
  match b.launch with
  | some (i, gen) =>
    match s.launchOf i gen with
    | some l => s.setLaunch i { l with charge := l.charge.set p.tier (l.charge.get p.tier 0 - 2 ^ b.lg) 0 }
    | none => s
  | none => s

/-- `FREE` (R333). -/
def execFree (a d : BitVec 5) (s : State) : Host.Outcome State Fault Refusal :=
  issueOn {} (.free a d) (fun x =>
    let va := (x.c.sreg a).toNat
    let x := x.commit
    let done (s : State) (v : Word) : Except Stop Cx := .ok (({ x with s := s, c := x.c.setS d v }.next 4).begin)
    match x.s.liveAt x.c.asn va with
    | some (p, b) => done (x.s.release p b) 0
    | none => done x.s 1) s

end Sys2Proof.Machine
end

