-- ==== Sys2Proof/Machine/Flags.lean ====
section
/-! DEFINITION. `cr.status`: its fields, the sticky flags and what a `CRW` changes (R188, R189). -/

namespace Sys2Proof.Machine

/-- Sticky flags as bits of `cr.status` (R188). -/
def flagNv : Nat := 2 ^ 8
def flagDz : Nat := 2 ^ 9
def flagOf : Nat := 2 ^ 10
def flagUf : Nat := 2 ^ 11
def flagNx : Nat := 2 ^ 12
def flagPz : Nat := 2 ^ 13
def flagTx : Nat := 2 ^ 14

/-- The rounding mode (R188). -/
def statusRm (w : Word) : Nat := field w 0 2

/-- The current lane type (R188). -/
def statusLtype (w : Word) : Nat := field w 2 3

/-- Sticky flags set (R189). -/
def Ctx.raiseFlags (c : Ctx) (f : Nat) : Ctx := c.setStatus (c.regs.status ||| BitVec.ofNat 64 f)

/-- tx and txpos after a byte that is no T5 code at a position (R188, R361). -/
def statusTx (w : Word) (pos : Nat) : Word :=
  if bit w 14 then w else setField (w ||| BitVec.ofNat 64 flagTx) 15 3 pos

/-- `cr.status` after a `CRW` (R10, R188, R425): rm and ltype are set, a ltype of 7 leaves the field unchanged, sticky
bits written as 1 are cleared, and clearing tx also clears txpos. -/
def statusWrite (old v : Word) : Word :=
  let lt := if field v 2 3 = 7 then field old 2 3 else field v 2 3
  let sticky := field old 8 7 - (Nat.land (field old 8 7) (field v 8 7))
  let pos := if bit v 14 then 0 else field old 15 3
  BitVec.ofNat 64 (field v 0 2 + 4 * lt + 32 * field old 5 1 + 256 * sticky + 2 ^ 15 * pos)

/-- The format prefix is pending (R188, R219). -/
def statusPp (w : Word) : Bool := bit w 5

end Sys2Proof.Machine
end

