-- ==== Sys2Proof/Machine/Float.lean ====
section
/-! DEFINITION. Floating-point numbers: formats, exact values, the one rounding, and the operations that the vector
stream and the engines share (R181 to R192).  Exact values are dyadic; nothing is rounded but by `roundTo`. -/

namespace Sys2Proof.Machine

/-- A format: exponent and fraction bits (R181). -/
structure Fmt where
  ebits : Nat
  fbits : Nat
deriving DecidableEq, Repr

def f32 : Fmt := ⟨8, 23⟩
def bf16 : Fmt := ⟨8, 7⟩
def f16 : Fmt := ⟨5, 10⟩

/-- The format of a floating lane type (R188). -/
def fmtOf (t : Nat) : Fmt := if t = 0 then f32 else if t = 1 then bf16 else f16

def Fmt.bias (f : Fmt) : Int := 2 ^ (f.ebits - 1) - 1

/-- The exponent of the last place of a subnormal. -/
def Fmt.low (f : Fmt) : Int := 1 - f.bias - f.fbits

/-- The width less the sign. -/
def Fmt.size (f : Fmt) : Nat := f.ebits + f.fbits

/-- The canonical NaN (R181, R183). -/
def Fmt.nan (f : Fmt) : Nat := (2 ^ f.ebits - 1) * 2 ^ f.fbits + 2 ^ (f.fbits - 1)

/-- An infinity. -/
def Fmt.inf (f : Fmt) (neg : Bool) : Nat := (if neg then 2 ^ f.size else 0) + (2 ^ f.ebits - 1) * 2 ^ f.fbits

/-- The largest finite value of a sign. -/
def Fmt.max (f : Fmt) (neg : Bool) : Nat := f.inf neg - 1

/-- A zero of a sign. -/
def Fmt.zero (f : Fmt) (neg : Bool) : Nat := if neg then 2 ^ f.size else 0

/-- An exact value: ±m × 2^e, or a special. -/
inductive FV where
  | nan
  | inf (neg : Bool)
  | fin (neg : Bool) (m : Nat) (e : Int)
deriving DecidableEq, Repr

/-- The value of an encoding (R182). -/
def Fmt.decode (f : Fmt) (x : Nat) : FV :=
  let neg := x / 2 ^ f.size % 2 == 1
  let e := x / 2 ^ f.fbits % 2 ^ f.ebits
  let m := x % 2 ^ f.fbits
  if e = 2 ^ f.ebits - 1 then if m = 0 then .inf neg else .nan
  else if e = 0 then .fin neg m f.low
  else .fin neg (2 ^ f.fbits + m) (f.low + (e - 1 : Nat))

/-- The number of bits of a number. -/
def bitLength (m : Nat) : Nat := if m = 0 then 0 else Nat.log2 m + 1

/-- `round(v, fmt, mode)` for ±(m + δ) × 2^e, where 0 < δ < 1 if `more`, else δ = 0: the encoding and the sticky flags
(R189, R190).  With `more`, m has more bits than the format keeps. -/
def Fmt.roundTo (f : Fmt) (mode : Nat) (neg : Bool) (m : Nat) (e : Int) (more : Bool) : Nat × Nat :=
  if m = 0 ∧ more = false then (f.zero neg, 0)
  else
    let top : Int := e + bitLength m - 1
    let q : Int := if top - f.fbits < f.low then f.low else top - f.fbits
    let k : Nat := (q - e).toNat
    let kept : Nat := if q ≤ e then m * 2 ^ (e - q).toNat else m / 2 ^ k
    let rest : Nat := if q ≤ e then 0 else m % 2 ^ k
    let inexact : Bool := decide (rest ≠ 0) || more
    let half : Nat := if q ≤ e then 1 else 2 ^ k
    let above : Bool := decide (half < 2 * rest) || (decide (half = 2 * rest) && (more || decide (kept % 2 = 1)))
    let up : Bool :=
      match mode with
      | 0 => above
      | 1 => false
      | 2 => neg && inexact
      | _ => !neg && inexact
    let kept := if up then kept + 1 else kept
    let nx := if inexact then flagNx else 0
    if f.bias < q + bitLength kept - 1 then
      let big := match mode with
        | 0 => f.inf neg
        | 1 => f.max neg
        | 2 => if neg then f.inf neg else f.max neg
        | _ => if neg then f.max neg else f.inf neg
      (big, flagOf ||| flagNx)
    else
      let uf := if inexact && decide (top < f.low + f.fbits) then flagUf else 0
      ((if neg then 2 ^ f.size else 0) + (q - f.low).toNat * 2 ^ f.fbits + kept, nx ||| uf)

/-- A value rounded to a format: a NaN gives the canonical NaN (R183, R191). -/
def Fmt.round (f : Fmt) (mode : Nat) : FV → Nat × Nat
  | .nan => (f.nan, 0)
  | .inf neg => (f.inf neg, 0)
  | .fin neg m e => f.roundTo mode neg m e false

/-- `rne(v, fmt)` (R190). -/
def Fmt.rne (f : Fmt) (v : FV) : Nat := (f.round 0 v).1

/-- A fraction ±n/d × 2^e rounded once (R194): enough quotient bits, and whether there is more. -/
def Fmt.roundQuotient (f : Fmt) (mode : Nat) (neg : Bool) (n d : Nat) (e : Int) : Nat × Nat :=
  let k := bitLength d + 64
  f.roundTo mode neg (n * 2 ^ k / d) (e - k) (decide (n * 2 ^ k % d ≠ 0))

def FV.isNan : FV → Bool
  | .nan => true
  | _ => false

def FV.neg : FV → FV
  | .nan => .nan
  | .inf s => .inf (!s)
  | .fin s m e => .fin (!s) m e

/-- ±m × 2^e as a multiple of 2^lo, for lo ≤ e. -/
def alignTo (s : Bool) (m : Nat) (e lo : Int) : Int :=
  let v : Int := m * 2 ^ (e - lo).toNat
  if s then -v else v

/-- The exact sum of two finite values; an exact zero takes its sign from R184. -/
def addFin (mode : Nat) (s : Bool) (m : Nat) (e : Int) (s' : Bool) (m' : Nat) (e' : Int) : FV :=
  let lo := if e ≤ e' then e else e'
  let v := alignTo s m e lo + alignTo s' m' e' lo
  if v = 0 then .fin (if s = s' then s else mode == 2) 0 lo
  else .fin (decide (v < 0)) v.natAbs lo

/-- An exact sum and the flags it raises (R184, R189). -/
def FV.add (mode : Nat) : FV → FV → FV × Nat
  | .nan, _ => (.nan, 0)
  | _, .nan => (.nan, 0)
  | .inf s, .inf s' => if s = s' then (.inf s, 0) else (.nan, flagNv)
  | .inf s, .fin .. => (.inf s, 0)
  | .fin .., .inf s => (.inf s, 0)
  | .fin s m e, .fin s' m' e' => (addFin mode s m e s' m' e', 0)

/-- An exact product and the flags it raises (R189). -/
def FV.mul : FV → FV → FV × Nat
  | .nan, _ => (.nan, 0)
  | _, .nan => (.nan, 0)
  | .inf s, .inf s' => (.inf (s != s'), 0)
  | .inf s, .fin s' m _ => if m = 0 then (.nan, flagNv) else (.inf (s != s'), 0)
  | .fin s m _, .inf s' => if m = 0 then (.nan, flagNv) else (.inf (s != s'), 0)
  | .fin s m e, .fin s' m' e' => (.fin (s != s') (m * m') (e + e'), 0)

/-- `round(a + b)`. -/
def Fmt.add (f : Fmt) (mode : Nat) (a b : FV) : Nat × Nat :=
  let (v, fl) := a.add mode b
  let (r, fl') := f.round mode v
  (r, fl ||| fl')

/-- `round(a × b)`. -/
def Fmt.mul (f : Fmt) (mode : Nat) (a b : FV) : Nat × Nat :=
  let (v, fl) := a.mul b
  let (r, fl') := f.round mode v
  (r, fl ||| fl')

/-- `round(a × b + c)`, one rounding after the exact product and sum (R348, R350); the product is the first operand of
the sum (R184). -/
def Fmt.fma (f : Fmt) (mode : Nat) (a b c : FV) : Nat × Nat :=
  let (p, fl) := a.mul b
  let (v, fl') := p.add mode c
  let (r, fl'') := f.round mode v
  (r, fl ||| fl' ||| fl'')

/-- The exact sum of exact products (R198, R358): a product of NaNs, 0 × ∞ or both infinities make a NaN; an exact zero is −0
only when every product is −0. -/
def dotSum (ps : List (FV × Nat)) : FV × Nat :=
  let vs := ps.map (·.1)
  let created := ps.any fun p => p.2 ≠ 0
  let plus := vs.any fun v => v == .inf false
  let minus := vs.any fun v => v == .inf true
  if vs.any FV.isNan || (plus && minus) then (.nan, if created || (plus && minus) then flagNv else 0)
  else if plus then (.inf false, 0)
  else if minus then (.inf true, 0)
  else
    let allNegZero := vs.all fun v => match v with
      | .fin neg m _ => neg && decide (m = 0)
      | _ => false
    (if vs ≠ [] ∧ allNegZero then .fin true 0 0
      else vs.foldl (fun s v => (s.add 0 v).1) (.fin false 0 0), 0)

/-- a < b for values that are no NaN; −0 and +0 are equal (R184). -/
def FV.lt : FV → FV → Bool
  | .nan, _ => false
  | _, .nan => false
  | .inf s, .inf s' => s && !s'
  | .inf s, .fin .. => s
  | .fin .., .inf s => !s
  | .fin s m e, .fin s' m' e' =>
    let lo := if e ≤ e' then e else e'
    decide (alignTo s m e lo < alignTo s' m' e' lo)

/-- a = b for values that are no NaN. -/
def FV.eq (a b : FV) : Bool := !a.isNan && !b.isNan && !a.lt b && !b.lt a

/-- The sign of a value. -/
def FV.sign : FV → Bool
  | .nan => false
  | .inf s => s
  | .fin s _ _ => s

/-- a < b with −0 below +0 (R349). -/
def FV.below (a b : FV) : Bool := a.lt b || (a.eq b && a.sign && !b.sign)

/-- `VMIN` of two encodings of a format (R349). -/
def Fmt.min (f : Fmt) (a b : Nat) : Nat :=
  if (f.decode a).isNan || (f.decode b).isNan then f.nan else if (f.decode b).below (f.decode a) then b else a

/-- `VMAX` of two encodings of a format (R349). -/
def Fmt.maxOf (f : Fmt) (a b : Nat) : Nat :=
  if (f.decode a).isNan || (f.decode b).isNan then f.nan else if (f.decode a).below (f.decode b) then b else a

/-- An exact value rounded to an integer in a mode, and whether that changed it (R191). -/
def roundInt (mode : Nat) (neg : Bool) (m : Nat) (e : Int) : Int × Bool :=
  if 0 ≤ e then ((if neg then -1 else 1) * (m * 2 ^ e.toNat : Int), false)
  else
    let k := (-e).toNat
    let kept := m / 2 ^ k
    let rest := m % 2 ^ k
    let above : Bool := decide (2 ^ k < 2 * rest) || (decide (2 ^ k = 2 * rest) && decide (kept % 2 = 1))
    let up : Bool :=
      match mode with
      | 0 => above
      | 1 => false
      | 2 => neg && decide (rest ≠ 0)
      | _ => !neg && decide (rest ≠ 0)
    let v : Int := if up then kept + 1 else kept
    (if neg then -v else v, decide (rest ≠ 0))

/-- `rne_int(n / d)` of an exact quotient, ties to even (R194). -/
def rneInt (n : Int) (d : Nat) : Int :=
  let q := n / d
  let r := n % d
  if (d : Int) < 2 * r ∨ ((d : Int) = 2 * r ∧ q % 2 = 1) then q + 1 else q

/-- Saturation to a range (R186). DEDUCED (26). -/
def clampInt (lo hi v : Int) : Int := if v < lo then lo else if hi < v then hi else v

/-- The range of an integer lane type (R343). -/
def typeRange (t : Nat) : Int × Int :=
  let w := laneWidth t
  if laneSigned t then (-(2 ^ (w - 1)), 2 ^ (w - 1) - 1) else (0, 2 ^ w - 1)

/-- `to_f32(n, k)` for a signed integer n (R190): `rne(n × 2^k, f32)`, and its flags. -/
def toF32 (n k : Int) : Nat × Nat := f32.roundTo 0 (decide (n < 0)) n.natAbs k false

end Sys2Proof.Machine
end

