-- ==== Sys2Proof/Machine/Engine.lean ====
section
/-! DEFINITION. What the engines share: translation (R368), reads and writes on their paths (R372), completion entries and
errors (R369, R370, R488), and tensor tiles (R104, R105, R373). -/

namespace Sys2Proof.Machine

/-- Why an engine's access does not go on: a translation or a page that Drone has still to give, or an error code of R370. -/
inductive EStop where
  | wait
  | code (n : Nat)

/-- An engine at work on a command: its access path, the tile whose TLB it uses, the issuer, and its code (R124). -/
structure Eng where
  path : Nat
  tile : Nat
  origin : Origin
  engine : Nat

/-- Error codes of R370. -/
def errXlate : Nat := 1
def errRange : Nat := 2
def errPlace : Nat := 3
def errChain : Nat := 4
def errState : Nat := 5
def errAlign : Nat := 6
def errPipe : Nat := 7

/-- The unit number of a tile's engines in the walks that Drone answers (the model's own). -/
def engUnit (tile : Nat) : Nat := 8192 + tile

/-! ## Translation -/

/-- The home of an engine's access, or `shareBase` and the offset in the issuer's share (R73, R97, R98, R111, R368, R468,
R490). DEDUCED (51). -/
def State.engKey (s : State) (e : Eng) (u : Use) (va : Nat) : Except EStop Nat :=
  let refused := s.refusedWalk (engUnit e.tile) e.origin.asn va u
  if 2 ^ 56 ≤ va then .error (.code errXlate)
  else if 0xFFFFFFFFFFE000 ≤ va then .ok (shareBase + va % 0x2000)
  else if 0xFFFFFFFFFFC000 ≤ va then .error (.code errXlate)
  else
    match (s.tileAt e.tile).tlb.find? fun t =>
        t.asn == e.origin.asn && t.page == va - va % pageBytes (bit t.leaf 12) && s.usable t u va with
    | none => if refused then .error (.code errXlate) else .error .wait
    | some t =>
      let pa := leafAddr t.leaf va
      if !bit t.leaf 0 then
        if field t.leaf 9 2 = 0 ∧ !refused then .error .wait else .error (.code errXlate)
      else if s.migrating pa ∨ s.cutOff pa then .error .wait
      else if tierOf pa = some 0 then .error (.code errXlate)
      else if populated pa = false ∨ (regionOf pa = 2 ∧ ((tierOf pa).isNone ∨ !s.compute (tileOfPa pa))) ∨ s.unbacked pa ∨
          (bankState pa ∧ u = .store) then .error (.code errPlace)
      else .ok pa

/-- The tier of a key: tier 0 for the issuer's share. DEDUCED (51). -/
def keyTier (key : Nat) : Option Nat := if shareBase ≤ key then some 0 else tierOf key

/-- Chains, tile records and blocks: a quad store or the issuer's share (R135, R373, R388, R395). -/
def blockPlace (key : Nat) : Bool := keyTier key == some 0 || keyTier key == some 1

/-- Any tier (R383). -/
def anyTier (key : Nat) : Bool := (keyTier key).isSome

/-- Tiers 1 to 5. -/
def tiers1to5 (key : Nat) : Bool := (keyTier key).isSome && keyTier key != some 0

/-- Tiers 1, 3 and 4. -/
def tiers134 (key : Nat) : Bool := keyTier key == some 1 || keyTier key == some 3 || keyTier key == some 4

/-! ## Data -/

/-- The context of a firing, wherever it is. -/
def State.ctxOfUid (s : State) (uid : Nat) : Option Ctx :=
  match s.slotOfUid uid with
  | some k => (s.slotAt k).ctx
  | none => (s.ready.find? fun r => r.ctx.any (·.uid == uid)).bind (·.ctx)

/-- A change to the context of a firing, wherever it is. -/
def State.mapUid (s : State) (uid : Nat) (f : Ctx → Ctx) : State :=
  match s.slotOfUid uid with
  | some k =>
    match (s.slotAt k).ctx with
    | some c => s.putCtx (.slot k) (f c)
    | none => s
  | none =>
    { s with ready := s.ready.map fun r =>
        match r.ctx with
        | some c => if c.uid = uid then { r with ctx := some (f c) } else r
        | none => r }

/-- The line of a key, as a physical address: of a share, while its firing holds a slot (R94). -/
def State.keyLine (s : State) (e : Eng) (key : Nat) : Nat :=
  if shareBase ≤ key then ((s.slotOfUid e.origin.uid).map fun k => lineOf (sharePa k (key - shareBase))).getD key
  else lineOf key

/-- A byte at a key: an uncorrectable line gives the poison (R484). -/
def State.keyByte (s : State) (e : Eng) (key va : Nat) : Byte :=
  if s.badLines ≠ [] ∧ s.badLines.contains (s.keyLine e key) then poisonByte va
  else if shareBase ≤ key then
    ((s.ctxOfUid e.origin.uid).map fun c =>
      s.heldByte e.path (shareKey c.uid (key - shareBase)) (c.share.get (key - shareBase) 0) 0 0).getD 0
  else s.readByte e.path key

/-- `n` bytes from a virtual address on, at places that the command accepts (R370). -/
def State.engBytes (s : State) (e : Eng) (ok : Nat → Bool) (va : Nat) : Nat → Except EStop (List Byte)
  | 0 => .ok []
  | n + 1 => do
    let key ← s.engKey e .load va
    if !ok key then .error (.code errPlace) else
    let l ← s.engBytes e ok (va + 1) n
    .ok (s.keyByte e key va :: l)

/-- `n` bytes from a physical address on. -/
def State.physBytes (s : State) (e : Eng) (pa n : Nat) : List Byte :=
  (List.range n).map fun i => s.keyByte e (pa + i) (pa + i)

/-- An uncorrectable line that an engine has read: an asynchronous integrity trap to the issuer (R484). -/
def State.integrity (s : State) (e : Eng) (va pa : Nat) : State :=
  s.async e.origin (asyncTrap 9 0 (BitVec.ofNat 64 (lineOf va)) (BitVec.ofNat 64 (lineOf pa + (tierOf pa).getD 0)))

/-- The traps for the uncorrectable lines among `n` bytes read from a virtual address on. -/
def State.integrityAll (s : State) (e : Eng) (va n : Nat) : State :=
  (List.range (n / 64 + 2)).foldl (fun s i =>
    let a := lineOf va + 64 * i
    if a < va + n then
      match s.engKey e .load (Nat.max a va) with
      | .ok key => if s.badLines.contains (s.keyLine e key) then s.integrity e a (s.keyLine e key) else s
      | .error _ => s
    else s) s

/-- The traps for the uncorrectable lines among some blocks read: address and length of each. -/
def State.integrityBlocks (s : State) (e : Eng) (l : List (Nat × Nat)) : State :=
  if s.badLines = [] then s else l.foldl (fun s b => s.integrityAll e b.1 b.2) s

/-- The traps for the uncorrectable lines among `n` bytes read from a physical address on. DEDUCED (53). -/
def State.integrityPhys (s : State) (e : Eng) (pa n : Nat) : State :=
  (List.range (n / 64 + 2)).foldl (fun s i =>
    let a := lineOf pa + 64 * i
    if a < pa + n ∧ s.badLines.contains a then s.integrity e a a else s) s

/-- A byte written at a key, on the engine's path (R172). -/
def State.putKey (s : State) (e : Eng) (key : Nat) (b : Byte) : State :=
  if shareBase ≤ key then
    match s.ctxOfUid e.origin.uid with
    | some c =>
      (s.unsee e.path 0 (shareKey c.uid (key - shareBase)) (c.share.get (key - shareBase) 0) 0).mapUid c.uid fun c =>
        { c with share := c.share.set (key - shareBase) b 0 }
    | none => s
  else s.writeByte e.path 0 key b

/-- Lines all of whose bytes are among keys are no longer uncorrectable (R483). -/
def State.mendKeys (s : State) (e : Eng) (keys : List Nat) : State :=
  if s.badLines = [] then s
  else
    let whole (k : Nat) : Bool := k % 64 == 0 && (List.range 64).all fun i => keys.contains (k + i)
    let lines := (keys.filter whole).map (s.keyLine e)
    { s with badLines := s.badLines.filter fun l => !lines.contains l }

/-- Bytes written in order, each at its virtual address, until one meets an error: the keys written, the state and the code
(0 for none).  One that must wait is an error here: then nothing is done. -/
def State.engPut (s : State) (e : Eng) (ok : Nat → Bool) (keys : List Nat) :
    List (Nat × Byte) → Except Unit (State × Nat)
  | [] => .ok (s.mendKeys e keys, 0)
  | (va, b) :: l =>
    match s.engKey e .store va with
    | .error .wait => .error ()
    | .error (.code c) => .ok (s.mendKeys e keys, c)
    | .ok key => if ok key then (s.putKey e key b).engPut e ok (key :: keys) l else .ok (s.mendKeys e keys, errPlace)

/-- The writes of a command (R488): what was written before an XLATE stands, and of any other error nothing. -/
def State.engStore (s : State) (e : Eng) (ok : Nat → Bool) (l : List (Nat × Byte)) : Except Unit (State × Nat) :=
  match s.engPut e ok [] l with
  | .error () => .error ()
  | .ok (t, c) => .ok (if c = 0 ∨ c = errXlate then (t, c) else (s, c))

/-- Bytes at consecutive addresses. -/
def bytesAt (va : Nat) (l : List Byte) : List (Nat × Byte) := (List.range l.length).map fun i => (va + i, l.getD i 0)

/-- The low `n` bytes of a number at consecutive addresses. -/
def numberAt (va n v : Nat) : List (Nat × Byte) := (List.range n).map fun i => (va + i, byteOf v i)

/-! ## Commands -/

/-- A command's status and its class-8 trap or orphan report where it carries an error (R369, R370, R449, R488). -/
def State.report (s : State) (e : Eng) (tag status addr : Nat) (post : Bool) : State :=
  let s := if post || decide (4 ≤ status) then s.postEvent e.origin tag status e.engine addr else s
  if 4 ≤ status then
    let detail := BitVec.ofNat 64 (status + tag % 2 ^ 24 * 256 + e.engine * 2 ^ 32)
    (s.forgetWalks (engUnit e.tile)).async e.origin (asyncTrap 8 3 (BitVec.ofNat 64 addr) detail)
  else s

/-- Every line that the issuing slot committed before the command has reached its home (R131), and the issuer's earlier accesses have
been performed (R150, R159); but a barrier object's operation, at the home `bar`, comes behind only those atomics that travel to the
same node (R127, R441). DEDUCED (54). -/
def State.landed (s : State) (o : Origin) (bar : Option Nat := none) : Bool :=
  let before (l : QLoad) : Bool :=
    decide (l.id < o.mark) &&
      match bar, l.kind with
      | some b, .atomic h .. => s.homeNode h == s.homeNode b && (s.lockAt (lockOf h)).owner.isNone
      | some _, .lock .. => false
      | _, _ => true
  !(s.flights.any fun f => f.phase != 1 && ((f.origin.uid == o.uid && decide (f.num < o.seq)) ||
      (f.origin.slot == o.slot && f.origin.uid != o.uid && decide (f.id < o.mark)))) &&
    !((s.ctxOfUid o.uid).any fun c => c.loads.any before)

/-- What a message waits for before it leaves its tile, or is taken at its destination (R131). -/
def State.mayGo (s : State) (p : Packet) : Bool := s.landed p.origin (if p.agent = 14 then p.home else none)

/-- The crossing that an engine instruction makes for what its slot committed before it (R176). DEDUCED (54). -/
def State.engCross (s : State) (o : Origin) (path : Nat) : State :=
  s.cross 0 path fun u => (u.uid == o.uid && decide (u.num ≤ o.seq)) ||
    u.by_.any fun b => b.1 == o.slot && decide (b.2 < o.mark)

/-- The physical tile of a logical tile of the issuer's compute set (R75). -/
def State.logicalTile (s : State) (o : Origin) (i : Nat) : Option Nat :=
  (s.launchOf o.launch o.gen).bind fun l => if i < l.tiles then l.binds.get? i else none

/-- The tile on which a firing was when it issued. -/
def Origin.tile (o : Origin) : Nat := tileOf (coreOf o.slot)

/-! ## Matrix queues (R210, R378) -/

/-- Commands at a tile's matrix unit enter the queues of their cores, in order, while those have room.  The arbiter starts
at core 0; once it has granted a command and every queue of the tile is empty it goes round, and the core at which it then
stands is a free value (R211). DEDUCED (46).
DESIGN CHOICE (125). -/
def State.enterQueues (s : State) (tile : Nat) : State :=
  let t := s.tileAt tile
  let idle := (List.range 8).all fun i => (s.coreAt (coreBase tile + i)).mq.isEmpty
  let r := t.mwait.foldl (fun (r : State × List MCmd) m =>
    let k := r.1.coreAt m.core
    if k.mq.length < 8 ∧ r.2.all (·.core != m.core) then (r.1.setCore m.core { k with mq := k.mq ++ [m] }, r.2)
    else (r.1, r.2 ++ [m])) (s, [])
  let u := { r.1.tileAt tile with mwait := r.2 }
  if idle ∧ t.arbUsed ∧ t.mwait ≠ [] then r.1.setTile tile { u with arbCore := s.pick 8, arbGiven := 0 } else r.1.setTile tile u

/-- Commands whose issuers' lines are at their homes reach a tile's matrix unit, those of one firing in order (R131, R210). -/
def State.matrixArrive (s : State) (tile : Nat) : State :=
  let t := s.tileAt tile
  let r := t.mfly.foldl (fun (r : List MCmd × List MCmd) m =>
    if s.landed m.origin ∧ r.2.all (·.origin.uid != m.origin.uid) then (r.1 ++ [m], r.2) else (r.1, r.2 ++ [m])) ([], [])
  if r.1 = [] then s
  else (s.setTile tile { t with mwait := t.mwait ++ r.1, mfly := r.2 }).enterQueues tile

/-- Commands composed on a tile whose issuers' lines are at their homes enter its injection queue, those of one firing in order
(R131, R133, R176). -/
def State.releaseHeld (s : State) (tile : Nat) : State :=
  let t := s.tileAt tile
  let r := t.held.foldl (fun (r : State × List Packet) p =>
    if s.mayGo p ∧ r.2.all (·.origin.uid != p.origin.uid) ∧ (r.1.tileAt tile).inj.length < 16 then
      (r.1.inject tile p, r.2)
    else (r.1, r.2 ++ [p])) (s, [])
  r.1.setTile tile { r.1.tileAt tile with held := r.2 }

/-- Commands that waited for lines or loads of their issuers go on where those have arrived. -/
def State.commandsArrive (s : State) : State :=
  s.tiles.foldl (fun s e =>
    let s := if e.2.mfly = [] then s else s.matrixArrive e.1
    if e.2.held = [] then s else s.releaseHeld e.1) s

/-- A command sets out for a tile's matrix unit (R210). -/
def State.sendMatrix (s : State) (m : MCmd) : State :=
  let tile := tileOf m.core
  let t := s.tileAt tile
  (s.setTile tile { t with mfly := t.mfly ++ [m] }).matrixArrive tile

/-! ## Multicast lines (R138 to R141) -/

/-- The tile that a receiver's logical tile is bound to when a line arrives (R141). -/
def State.mcastTile (s : State) (l : McastLine) : Nat :=
  ((s.launchOf l.launch l.gen).bind fun a => a.binds.get? l.logical).getD l.tile

/-- An address in a tile that is being recast, where its page has already moved to (R90, R141). -/
def State.followed (s : State) (pa : Nat) : Nat :=
  ((s.recasts.flatMap (·.pages)).find? fun p => decide (p.1 ≤ pa) && decide (pa < p.1 + p.2.1)).elim pa fun p =>
    p.2.2 + (pa - p.1)

/-- The home of a multicast's line (R141). -/
def State.mcastHome (s : State) (l : McastLine) : Nat :=
  l.moved.getD (s.followed (quadBase (s.mcastTile l) l.quad + l.offset))

/-- The home of a multicast line's barrier object (R141). -/
def State.mcastBarrier (s : State) (l : McastLine) : Nat :=
  l.barMoved.getD (s.followed (quadBase (s.mcastTile l) l.quad + l.barrier))

/-! ## Tensor tiles -/

/-- A tensor-tile descriptor (R104). -/
structure Desc where
  rows : Nat
  cols : Nat
  e : Nat
  layout : Nat
  pitch : Nat
deriving DecidableEq, Repr

/-- The descriptor at an offset of some bytes; none where a field is out of its range (R104). -/
def descOf (b : List Byte) (o : Nat) : Option Desc :=
  let f (k n : Nat) := listNat b (o + k) n
  let e := 2 ^ f 4 1
  let d : Desc := { rows := f 0 2, cols := f 2 2, e := e, layout := f 5 1, pitch := f 8 4 }
  let along := if d.layout = 0 then d.cols else d.rows
  if 1 ≤ d.rows ∧ d.rows ≤ 4096 ∧ 1 ≤ d.cols ∧ d.cols ≤ 4096 ∧ f 4 1 ≤ 3 ∧ d.layout ≤ 2 ∧ f 6 2 = 0 ∧ f 0xC 4 = 0 ∧
      (d.layout = 2 ∨ (d.pitch % e = 0 ∧ along * e ≤ d.pitch)) then some d
  else none

/-- The offset of element (i, j) from the base (R105). -/
def Desc.offset (d : Desc) (i j : Nat) : Nat :=
  match d.layout with
  | 0 => i * d.pitch + j * d.e
  | 1 => j * d.pitch + i * d.e
  | _ => ((i / 64) * ((d.cols + 63) / 64) + j / 64) * 4096 * d.e + ((i % 64) * 64 + j % 64) * d.e

/-- Every element, in ascending row and column. -/
def Desc.elems (d : Desc) : List (Nat × Nat) :=
  (List.range d.rows).flatMap fun i => (List.range d.cols).map fun j => (i, j)

/-- A tile record (R373): base, descriptor, and the tag and post fields of `MLDB`. -/
structure TileRec where
  base : Nat
  desc : Desc
  tag : Nat
  post : Nat

/-- The tile record at an address. -/
def State.tileRecord (s : State) (e : Eng) (va : Nat) : Except EStop TileRec :=
  if va % 32 ≠ 0 then .error (.code errAlign)
  else do
    let b ← s.engBytes e blockPlace va 32
    match descOf b 8 with
    | none => .error (.code errRange)
    | some d =>
      let base := listNat b 0 8
      if listNat b 0x1C 4 ≠ 0 then .error (.code errRange)
      else if base % d.e ≠ 0 then .error (.code errAlign)
      else .ok { base := base, desc := d, tag := listNat b 0x18 3, post := listNat b 0x1B 1 }

/-- The bytes of some elements of a tensor tile, one list for each. -/
def State.elemBytes (s : State) (e : Eng) (ok : Nat → Bool) (r : TileRec) :
    List (Nat × Nat) → Except EStop (List (List Byte))
  | [] => .ok []
  | (i, j) :: l => do
    let b ← s.engBytes e ok (r.base + r.desc.offset i j) r.desc.e
    let m ← s.elemBytes e ok r l
    .ok (b :: m)

/-- The traps for uncorrectable lines among some elements read. DEDUCED (53). -/
def State.integrityElems (s : State) (e : Eng) (r : TileRec) (elems : List (Nat × Nat)) : State :=
  if s.badLines = [] then s
  else
    (elems.map fun p => lineOf (r.base + r.desc.offset p.1 p.2)).eraseDups.foldl (fun s a => s.integrityAll e a 64) s

/-- The traps for uncorrectable lines of a tensor tile. -/
def State.integrityTile (s : State) (e : Eng) (r : TileRec) : State := s.integrityElems e r r.desc.elems

/-! ## Events -/

/-- An event that occurs where it is enabled, and otherwise changes nothing. DESIGN CHOICE (108). -/
def event (f : State → Option State) (s : State) : Host.Outcome State Fault Refusal :=
  match f s with
  | some t => .next t
  | none => .next s

end Sys2Proof.Machine
end

