-- ==== Sys2Proof/Machine/Bank.lean ====
section
/-! DEFINITION. Clustering banks: the state region, distances, arrivals, the full policies and the bank commands (R226 to
R238, R388 to R393, R488 to R491). -/

namespace Sys2Proof.Machine

/-! ## The state region (R226, R227) -/

/-- The state region of a bank, numbered tile × 2 + quad. -/
def bankBase (b : Nat) : Nat := 0x4000000000000 + b / 2 * 0x800000 + 0x100000 * (1 + b % 2) + 0xDC000

/-- `n` bytes of the header of a bank. -/
def State.cabField (s : State) (b off n : Nat) : Nat := gatherBytes s.byteAt (bankBase b + off) n

/-- A write of the state region, on the CAB path (R228). -/
def State.cabPut (s : State) (b off n v : Nat) : State := s.writeMem 3 0 (bankBase b + off) n v

/-- A part of the region set to zero. -/
def State.cabZero (s : State) (b off n : Nat) : State :=
  let lo := bankBase b + off
  ((s.mem.filter fun e => decide (lo ≤ e.1) && decide (e.1 < lo + n)).foldl (fun s e => s.writeByte 3 0 e.1 0) s).mendRange lo n

/-- `n` bytes of an entry as the bank reads them: an uncorrectable line gives the poison (R484).  The header steers the bank as it
stands. DESIGN CHOICE (162). -/
def State.cabData (s : State) (b off n : Nat) : Nat :=
  gatherBytes (fun a => if s.badLines.contains (lineOf a) then poisonByte a else s.byteAt a) (bankBase b + off) n

/-- D of a bank. -/
def State.cabD (s : State) (b : Nat) : Nat := 16 * (s.cabField b 0 1 + 1)

/-- The entry capacity E. -/
def State.cabE (s : State) (b : Nat) : Nat := s.cabField b 1 1

/-- The bank is configured. -/
def State.cabLive (s : State) (b : Nat) : Bool := s.cabField b 5 1 % 2 == 1

/-- The offset of entry `i` (R227). -/
def State.cabEntry (s : State) (b i : Nat) : Nat := 0x40 + i * (8 * s.cabD b + 64)

def State.cabCount (s : State) (b i : Nat) : Nat := s.cabData b (s.cabEntry b i) 4

def State.cabValid (s : State) (b i : Nat) : Bool := s.cabData b (s.cabEntry b i + 4) 4 == 1

/-- The means of an entry, as f32. -/
def State.cabMean (s : State) (b i : Nat) : List Nat :=
  (List.range (s.cabD b)).map fun d => s.cabData b (s.cabEntry b i + 0x40 + 4 * d) 4

/-- The sums of an entry, as f32. -/
def State.cabSum (s : State) (b i : Nat) : List Nat :=
  (List.range (s.cabD b)).map fun d => s.cabData b (s.cabEntry b i + 0x40 + 4 * s.cabD b + 4 * d) 4

/-- The valid entries, in ascending index. -/
def State.cabEntries (s : State) (b : Nat) : List Nat := (List.range (s.cabE b)).filter (s.cabValid b)

/-! ## Distances (R231, R232) -/

/-- The magnitude of a value. -/
def FV.abs : FV → FV
  | .nan => .nan
  | .inf _ => .inf false
  | .fin _ m e => .fin false m e

/-- One dimension's term of a distance: metric 0 L2SQ, 1 L1, 2 NDOT. -/
def distTerm (metric : Nat) (x m : FV) : FV × Nat :=
  let diff := (x.add 0 m.neg).1
  match metric with
  | 0 => diff.mul diff
  | 1 => (diff.abs, 0)
  | _ => x.mul m

/-- The distance of two vectors of f32, in blocks of 16 dimensions (R231). -/
def distance (metric : Nat) (x m : List Nat) : Nat :=
  let terms := (x.zip m).map fun p => distTerm metric (f32.decode p.1) (f32.decode p.2)
  let d := (List.range (x.length / 16)).foldl (fun acc b =>
    (f32.add 0 (f32.decode acc) (dotSum ((terms.drop (16 * b)).take 16)).1).1) 0
  if metric = 2 ∧ !(f32.decode d).isNan then Nat.xor d (2 ^ 31) else d

/-- A distance is less than another: a NaN is greater than every number (R232). -/
def distLess (a b : Nat) : Bool :=
  let x := f32.decode a
  let y := f32.decode b
  !x.isNan && (y.isNan || x.lt y)

/-- The first of some indices whose measure is least. -/
def firstLeast (f : Nat → Nat) : List Nat → Option Nat
  | [] => none
  | i :: l => match firstLeast f l with
    | none => some i
    | some j => if distLess (f j) (f i) then some j else some i

/-- The distance of a vector from an entry's mean. -/
def State.cabDist (s : State) (b : Nat) (x : List Nat) (i : Nat) : Nat :=
  distance (s.cabField b 2 1) x (s.cabMean b i)

/-- A distance lies within a radius (R232). -/
def within (d radius : Nat) : Bool :=
  let x := f32.decode d
  let r := f32.decode radius
  !x.isNan && !r.isNan && !r.lt x

/-! ## Updates (R233) -/

/-- A count with a weight added: clamped, with flag bit 2. -/
def State.cabAddCount (s : State) (b i w : Nat) : State :=
  let c := s.cabCount b i + w
  let s := s.cabPut b (s.cabEntry b i) 4 (Nat.min c 0xFFFFFFFF)
  if 0xFFFFFFFF < c then s.cabPut b 5 1 (Nat.lor (s.cabField b 5 1) 4) else s

/-- rne(sum / count) (R233). -/
def meanOf (sum count : Nat) : Nat :=
  match f32.decode sum with
  | .nan => f32.nan
  | .inf neg => f32.inf neg
  | .fin neg m e => if m = 0 then f32.zero neg else (f32.roundQuotient 0 neg m count e).1

/-- The sums of an entry written, and its means computed from them and its count. -/
def State.cabSetSums (s : State) (b i : Nat) (sums : List Nat) : State :=
  let o := s.cabEntry b i + 0x40
  let D := s.cabD b
  let count := s.cabCount b i
  ((List.range D).foldl (fun s d =>
    let v := sums.getD d 0
    (s.cabPut b (o + 4 * D + 4 * d) 4 v).cabPut b (o + 4 * d) 4 (meanOf v count)) s).mendRange (bankBase b + o) (8 * D)

/-- w × x as an exact value. -/
def weighted (w x : Nat) : FV := ((FV.fin false w 0).mul (f32.decode x)).1

/-- `update(n, w, x)` (R233). -/
def State.cabUpdate (s : State) (b n w : Nat) (x : List Nat) : State :=
  let sums := ((s.cabSum b n).zip x).map fun p => (f32.add 0 (f32.decode p.1) (weighted w p.2)).1
  (s.cabAddCount b n w).cabSetSums b n sums

/-- `open(f, w, x)` (R233). -/
def State.cabOpen (s : State) (b f w : Nat) (x : List Nat) : State :=
  let e := s.cabEntry b f
  let s := ((s.cabPut b e 4 w).cabPut b (e + 4) 4 1).cabPut b 7 1 (s.cabField b 7 1 + 1)
  s.cabSetSums b f (x.map fun v => f32.rne (weighted w v))

/-- An entry freed: every byte zero (R227). -/
def State.cabFree (s : State) (b i : Nat) : State :=
  (s.cabZero b (s.cabEntry b i) (8 * s.cabD b + 64)).cabPut b 7 1 (s.cabField b 7 1 - 1)

/-- A uint32 counter of the header incremented, saturating. -/
def State.cabBump (s : State) (b off : Nat) : State :=
  s.cabPut b off 4 (Nat.min (s.cabField b off 4 + 1) 0xFFFFFFFF)

/-! ## Closest pair (R236) -/

/-- Pairs i < j of valid entries, in ascending i and then j. -/
def State.cabPairs (s : State) (b : Nat) : List (Nat × Nat) :=
  (s.cabEntries b).flatMap fun i => ((s.cabEntries b).filter fun j => decide (i < j)).map fun j => (i, j)

/-- The closest pair and its distance. -/
def State.cabClosest (s : State) (b : Nat) : Option (Nat × Nat × Nat) :=
  (s.cabPairs b).foldl (fun best p =>
    let d := distance (s.cabField b 2 1) (s.cabMean b p.2) (s.cabMean b p.1)
    match best with
    | none => some (p.1, p.2, d)
    | some q => if distLess d q.2.2 then some (p.1, p.2, d) else best) none

/-- Entry j merged into entry i (R236). -/
def State.cabMerge (s : State) (b i j : Nat) : State :=
  let sums := ((s.cabSum b i).zip (s.cabSum b j)).map fun p => (f32.add 0 (f32.decode p.1) (f32.decode p.2)).1
  let s := s.cabAddCount b i (s.cabCount b j)
  (s.cabSetSums b i sums).cabFree b j

/-! ## Arrivals (R233, R235, R491) -/

/-- The record that EVICT pushes for an entry (R235), filled to the record size with zeros. -/
def State.spillRecord (s : State) (b i size : Nat) : Rec :=
  let le (n v : Nat) : List Byte := (List.range n).map (byteOf v)
  let r := le 4 (s.cabCount b i) ++ le 4 i ++ le 8 0 ++ (s.cabSum b i).flatMap (le 4)
  r ++ (List.range (size - r.length)).map fun _ => 0

/-- The valid entry of least count, lowest index on ties (R235). -/
def State.cabLeast (s : State) (b : Nat) : Option Nat :=
  (s.cabEntries b).foldl (fun best i =>
    match best with
    | none => some i
    | some j => if s.cabCount b i < s.cabCount b j then some i else best) none

/-- An arrival that finds the bank full and no entry near (R235); none while the bank holds it for its spill pipe.  When
the launch that owns the pipe has completed, it is counted and dropped (R491); of one that has been killed the record is discarded as
its pipes' records are (R463).  In a bank of one entry, which has no pair to merge (R236), the arrival is absorbed into that entry.
DESIGN CHOICE (148). DEDUCED (163). -/
def State.cabFull (s : State) (b n w : Nat) (x : List Nat) : Option State :=
  let k := s.bankAt b
  match s.cabField b 4 1 with
  | 0 => some (s.cabUpdate b n w x)
  | 1 =>
    match s.launchOf k.spillLaunch k.spillGen, s.cabLeast b with
    | some l, some i =>
      let pipe := s.cabField b 6 1
      let key := k.spillKey + pipe
      match l.pipes[pipe]? with
      | none => some (s.cabBump b 0x0C)
      | some e =>
        if l.killed then some ((s.cabFree b i).cabOpen b i w x)
        else if e.depth ≤ (l.records.get key []).length + l.reservedCount.get key 0 then none
        else
          let rec_ := s.spillRecord b i e.recSize
          let s := s.setLaunch k.spillLaunch { l with records := l.records.set key (l.records.get key [] ++ [rec_]) [] }
          some ((s.cabFree b i).cabOpen b i w x)
    | _, _ => some (s.cabBump b 0x0C)
  | 2 =>
    match s.cabClosest b with
    | some (i, j, _) => some ((s.cabMerge b i j).cabOpen b j w x)
    | none => some (s.cabUpdate b n w x)
  | _ => some (s.cabBump b 0x0C)

/-- One arrival at the bank's write port (R233). DEDUCED (62). -/
def State.cabArrive (s : State) (b w : Nat) (x : List Nat) : Option State :=
  let bad (v : Nat) : Bool := match f32.decode v with
    | .fin .. => false
    | _ => true
  if x.any bad then some (s.cabBump b 0x10)
  else
    let near := firstLeast (s.cabDist b x) (s.cabEntries b)
    let free := (List.range (s.cabE b)).find? fun i => !s.cabValid b i
    match near, free with
    | some n, f =>
      if within (s.cabDist b x n) (s.cabField b 8 4) then some (s.cabUpdate b n w x)
      else
        match f with
        | some f => some (s.cabOpen b f w x)
        | none => s.cabFull b n w x
    | none, some f => some (s.cabOpen b f w x)
    | none, none => some s

/-- The vector of a payload, widened to f32 (R231, R389). -/
def State.cabVector (s : State) (b : Nat) (payload : List Byte) : List Nat :=
  let fmt := s.cabField b 3 1
  (List.range (s.cabD b)).map fun d =>
    if fmt = 2 then listNat payload (4 * d) 4
    else f32.rne ((if fmt = 0 then bf16 else f16).decode (listNat payload (2 * d) 2))

/-! ## Commands (R388 to R393) -/

/-- The engine at work on a command of a bank. -/
def BankCmd.eng (m : BankCmd) (b : Nat) : Eng := { path := 3, tile := b / 2, origin := m.origin, engine := 3 }

/-- A command ends with an error code. -/
def State.cabFail (s : State) (b : Nat) (m : BankCmd) (code : Nat) : State :=
  s.report (m.eng b) m.tag (4 * code) m.origin.pc true

/-- The issuer, which waits for a reply, goes on (R393). DEDUCED (63). -/
def State.cabReply (s : State) (m : BankCmd) (v : Option Word) : State :=
  s.mapUid m.origin.uid fun c =>
    if c.st = .replyWait then
      (match v with
        | some w => c.setS (BitVec.ofNat 5 m.rd) w
        | none => c).resume s.time
    else c

/-- The limits of a configuration block (R388), without its pipe. -/
def configOk (c : List Byte) : Bool :=
  let f := listNat c
  decide (f 0 1 ≤ 7) && decide (1 ≤ f 1 1) && decide (f 1 1 ≤ 128) && decide (f 2 1 ≤ 2) && decide (f 3 1 ≤ 2) &&
    (f 3 1 != 2 || decide (f 0 1 ≤ 3)) && decide (f 4 1 ≤ 3) && (f 5 1 == 0 || f 5 1 == 2) &&
    (f 4 1 == 1 || f 6 1 == 0xFF) && f 7 1 == 0 && f 0x10 16 == 0

/-- The spill pipe of a configuration is one of the issuer's launch, with room for a record (R230, R388). -/
def State.spillOk (s : State) (o : Origin) (c : List Byte) : Bool :=
  listNat c 4 1 != 1 ||
    match (s.launchOf o.launch o.gen).bind fun l => l.pipes[listNat c 6 1]? with
    | some p => decide (16 + 64 * (listNat c 0 1 + 1) ≤ p.recSize)
    | none => false

/-- `CABCFG` takes effect (R230): the header is written, everything else cleared, and the reorder window emptied. -/
def State.cabConfigure (s : State) (b : Nat) (m : BankCmd) (c : List Byte) : State :=
  let f := listNat c
  let s := s.cabZero b 0 0x24000
  let s := (List.range 5).foldl (fun s i => s.cabPut b i 1 (f i 1)) s
  let s := ((s.cabPut b 5 1 (1 + f 5 1)).cabPut b 6 1 (f 6 1)).cabPut b 8 4 (f 8 4)
  let s := s.cabPut b 0x14 4 (f 0xC 4)
  s.setBank b { s.bankAt b with
    window := [], spillLaunch := m.origin.launch, spillGen := m.origin.gen, spillKey := m.origin.pipes }

/-- The entries, both counters and flag bit 2 cleared; the rest of the configuration stays (R237). -/
def State.cabClear (s : State) (b : Nat) : State :=
  let fl := s.cabField b 5 1
  let s := s.cabZero b 0x40 (0x24000 - 0x40)
  (((s.cabPut b 5 1 (fl % 4)).cabPut b 7 1 0).cabPut b 0xC 4 0).cabPut b 0x10 4 0

/-- The record of an entry (R391): an entry that is not valid gives zeros. DEDUCED (63). -/
def State.cabRecord (s : State) (b i : Nat) : List Byte :=
  let e := s.cabEntry b i
  let n := 8 * s.cabD b
  let at_ (o : Nat) : Byte := byteOf (s.cabData b (e + o) 1) 0
  (List.range 8).map at_ ++ (List.range 8).map (fun _ => 0) ++ (List.range n).map fun k => at_ (0x40 + k)

/-- What a drain writes (R392). -/
def State.cabDrain (s : State) (b : Nat) : List Byte :=
  let le (n v : Nat) : List Byte := (List.range n).map (byteOf v)
  le 4 (s.cabData b 7 1) ++ le 4 (s.cabData b 0xC 4) ++ le 4 (s.cabData b 0x10 4) ++ le 4 0 ++
    (s.cabEntries b).flatMap (s.cabRecord b)

/-- A push in ordered mode (R238, R489): its distance δ from the number expected. -/
def State.cabDelta (s : State) (b : Nat) (arg : Word) : Nat := (field arg 32 32 + 2 ^ 32 - s.cabField b 0x14 4) % 2 ^ 32

/-- After a push has taken its number, the held push with the next one arrives at once (R238). -/
def State.cabRelease (s : State) (b : Nat) : State :=
  let next := s.cabField b 0x14 4
  let k := s.bankAt b
  match k.window.find? (·.1 == next) with
  | some (_, m) => s.setBank b { k with window := k.window.filter (·.1 != next), arrivals := m :: k.arrivals }
  | none => s

/-- A push (R233, R238, R389, R489); the caller has taken it off the arrivals. DEDUCED (62). -/
def State.cabPush (s : State) (b : Nat) (m : BankCmd) : Option State :=
  let w := if field m.arg 0 8 = 0 then 1 else field m.arg 0 8
  let x := s.cabVector b m.payload
  if !s.cabLive b then some s
  else if field m.arg 11 21 ≠ 0 then some (s.cabFail b m errRange)
  else if bit (BitVec.ofNat 64 (s.cabField b 5 1)) 1 then
    let d := s.cabDelta b m.arg
    let k := s.bankAt b
    let n := field m.arg 32 32
    if !bit m.arg 8 ∨ 64 ≤ d ∨ k.window.any (·.1 == n) then some (s.cabFail b m errRange)
    else if d ≠ 0 then some (s.setBank b { k with window := (n, m) :: k.window })
    else
      (s.cabArrive b w x).map fun s => (s.cabPut b 0x14 4 ((n + 1) % 2 ^ 32)).cabRelease b
  else s.cabArrive b w x

/-- What a command reads of its bank's state: addresses and lengths (R484). -/
def State.cabReads (s : State) (b : Nat) (m : BankCmd) : List (Nat × Nat) :=
  let all := (bankBase b + 0x40, s.cabE b * (8 * s.cabD b + 64))
  let entries : List (Nat × Nat) :=
    match m.kind with
    | 0 | 5 => []
    | 1 => if bit (BitVec.ofNat 64 (s.cabField b 5 1)) 1 ∧ s.cabDelta b m.arg ≠ 0 then [] else [all]
    | 3 => if m.arg.toNat < s.cabE b then [(bankBase b + s.cabEntry b m.arg.toNat, 8 * s.cabD b + 64)] else []
    | _ => [all]
  if m.kind = 0 then [] else (bankBase b, 64) :: if s.cabLive b then entries else []

/-- The traps to a command's issuer for uncorrectable lines, as they stood in `s`, that it has read of its bank's state (R484). -/
def State.cabIntegrity (s t : State) (b : Nat) (m : BankCmd) : State :=
  (s.badLines.filter fun a => (s.cabReads b m).any fun r => decide (lineOf r.1 ≤ a) && decide (a < r.1 + r.2)).foldl
    (fun t a => t.integrity (m.eng b) a a) t

/-- A command or push takes effect; none where it must wait.  At a bank whose state lies in a kernel-reserved frame it ends with PLACE
(R265). DEDUCED (145). -/
def State.cabRun (s : State) (b : Nat) (m : BankCmd) : Option State :=
  let e := m.eng b
  let va := m.addr.toNat
  if s.kernelPart (bankBase b) 0x24000 then
    some ((s.cabFail b m errPlace).cabReply m (if m.kind = 2 then some 0xFFFF else none))
  else match m.kind with
  | 0 =>
    if va % 32 ≠ 0 then some (s.cabFail b m errAlign)
    else
      match s.engBytes e blockPlace va 32 with
      | .error .wait => none
      | .error (.code c) => some (s.cabFail b m c)
      | .ok c =>
        let t :=
          if !configOk c then s.cabFail b m errRange
          else if !s.spillOk m.origin c then s.cabFail b m errPipe
          else
            (s.cabConfigure b m c).report e (m.tag % 2 ^ 16 + 2 ^ 16 * (s.bankAt b).window.length) 0 m.origin.pc (m.tag != 0)
        some (t.integrityBlocks e [(va, 32)])
  | 1 => s.cabPush b m
  | 2 =>
    if !s.cabLive b then some ((s.cabFail b m errState).cabReply m (some 0xFFFF))
    else
      match s.cabClosest b with
      | none => some (s.cabReply m (some 0xFFFF))
      | some (i, j, d) => some ((s.cabMerge b i j).cabReply m (some (BitVec.ofNat 64 (i + 256 * j + 2 ^ 32 * d))))
  | 3 =>
    let fail (c : Nat) : Option State := some ((s.cabFail b m c).cabReply m none)
    if !s.cabLive b then fail errState
    else if va % 16 ≠ 0 then fail errAlign
    else if s.cabE b ≤ m.arg.toNat then fail errRange
    else
      let ok (key : Nat) : Bool := tiers134 key || keyTier key == some 0
      match s.engStore e ok (bytesAt va (s.cabRecord b m.arg.toNat)) with
      | .error () => none
      | .ok (t, 0) => some (({ t with unseen := t.unseen.map fun u =>
          if u.writer = 3 ∧ u.uid = 0 ∧ u.at_ = s.fresh then { u with uid := m.origin.uid } else u } : State).cabReply
            m none)
      | .ok (_, c) => fail c
  | 4 =>
    if !s.cabLive b then some (s.cabFail b m errState)
    else if va % 64 ≠ 0 then some (s.cabFail b m errAlign)
    else
      match s.engPut e tiers134 [] (bytesAt va (s.cabDrain b)) with
      | .error () => none
      | .ok (t, 0) => some ((t.cabClear b).report e m.tag 0 m.origin.pc (m.tag != 0))
      | .ok (t, c) => some (t.cabFail b m c)
  | _ => if s.cabLive b then some (s.cabClear b) else some (s.cabFail b m errState)

end Sys2Proof.Machine
end

