-- ==== Sys2Proof/Machine/Registers.lean ====
section
/-! DEFINITION. What Drone sets by registers whose place the manual does not give: the caps, the pools and their views, the storage
windows, the scale-up ports (R28, R29, R76, R100, R102, R145, R252, R264, R492). -/

namespace Sys2Proof.Machine

def State.setHost (s : State) (h : HostSide) : State := { s with host := h }

/-- A list with the number at a place replaced. -/
def setNth (l : List Nat) (i v : Nat) : List Nat := (l.take i ++ [v]) ++ l.drop (i + 1)

/-- Drone sets a cap, at or below Chanter's ceiling (R252, R492): unit × 2, and 1 more for the average cap. -/
def State.setCap (s : State) (i v : Nat) : State :=
  let p := s.power
  let ceil := ([2200000, 2000000, 1000000, 900000, 1000000, 900000] : List Nat).getD i 0
  let v := Nat.min v ceil
  if 6 ≤ i then s
  else if i % 2 = 0 then { s with power := { p with peakCap := setNth p.peakCap (i / 2) v } }
  else { s with power := { p with avgCap := setNth p.avgCap (i / 2) v } }

/-- A pool of tiers 1 to 5 that Drone may describe. -/
def poolNamed (tier unit : Nat) : Bool :=
  match tier with
  | 1 => decide (unit < 2048)
  | 2 => decide (unit < 1024)
  | 3 | 4 | 5 => decide (unit < 65536)
  | _ => false

/-- Drone sets where an address space sees a pool (R100). -/
def State.setView (s : State) (tier unit asn base : Nat) : State :=
  if !poolNamed tier unit then s
  else
    let p := s.poolAt tier unit
    s.setPool { p with views := (asn, base) :: p.views.filter (·.1 != asn) }

/-- Where a pool's blocks may lie: in the quad store below the bank's state region (R226), in the overlay slice, in the backed
part of a bound logical block (R100). -/
def State.poolHolds (s : State) (p : Pool) (off lg : Nat) : Bool :=
  match p.tier with
  | 1 => decide (off + 2 ^ lg ≤ 0xDC000) && s.poolTakes p
  | 2 => decide (off + 2 ^ lg ≤ 0x400000) && s.poolTakes p
  | 3 => decide (off % 0x800000 + 2 ^ lg ≤ 0x700000) && (s.poolAddr p off).any fun pa => !s.unbacked pa
  | _ => true

/-- Drone gives a pool a free block: aligned to its size, within one class, where the pool may have it, and clear of its other
blocks. -/
def State.addFree (s : State) (tier unit off lg : Nat) : State :=
  let p := s.poolAt tier unit
  if !poolNamed tier unit ∨ lg < 6 ∨ 21 < lg ∨ off % 2 ^ lg ≠ 0 ∨ !s.poolHolds p off lg ∨ !p.clear off lg then s
  else s.setPool { p with free := (off, lg) :: p.free }

/-- Drone releases a live block of tiers 3 to 5 (R102). -/
def State.dropBlock (s : State) (tier unit off : Nat) : State :=
  let p := s.poolAt tier unit
  match if tier < 3 then none else p.live.find? (·.off == off) with
  | some b => s.release p b
  | none => s

/-- Drone sets up the storage window of an address space (R76): the pool of the address space takes in the blocks that are
bound (R100). -/
def State.setWindow (s : State) (asn base id : Nat) : State :=
  if base % 0x800000 ≠ 0 ∨ 65536 ≤ id then s
  else
    let s := { s with windows := { asn := asn, base := base, id := id } ::
      s.windows.filter fun w => w.asn != asn && w.id != id }
    s.roles.foldl (fun s e =>
      if field e.2 0 2 = 1 ∧ bit e.2 5 ∧ field e.2 16 16 = id then s.growPool asn (field e.2 6 10) else s) s

/-! ## Scale-up ports (R28, R29, R145) -/

/-- The homes of the words of a wait. -/
def RunState.words : RunState → List Nat
  | .waiting w => w.conds.map (·.home)
  | .trapped _ (some w) => w.conds.map (·.home)
  | _ => []

/-- Nothing that travels on UALink ports is under way: no line for a peer that has been committed, no access of one that is
outstanding, forwarded, or to be performed by a pending operation, and no wait on a word of one. -/
def State.peerIdle (s : State) : Bool :=
  s.flights.all (fun f => regionOf f.line.home != 5) &&
    s.contexts.all fun c =>
      (c.loads.all fun l => l.homes.all fun a => regionOf a != 5) &&
        (c.pend.all fun p => p.kind.home.all fun a => regionOf a != 5) &&
        (c.st.words.all fun a => regionOf a != 5) &&
        c.vstream.all fun d => d.cells.all fun e => regionOf e.2.2 != 5

/-- Nothing that travels on Ultra Ethernet ports is under way: no report that is due to a rack scheduler node, no freeze that
streams. -/
def State.rackIdle (s : State) : Bool := s.rackDue.isEmpty && s.host.frzState != 1

/-- Drone sets the mode of a port, while it holds no traffic. DESIGN CHOICE (128). -/
def State.setPort (s : State) (port : Nat) (ether : Bool) : State :=
  let now := s.host.etherPorts.contains port
  if 64 ≤ port ∨ now = ether ∨ !(if now then s.rackIdle else s.peerIdle) then s
  else
    let others := s.host.etherPorts.filter (· != port)
    s.setHost { s.host with etherPorts := if ether then port :: others else others }

/-- What Drone writes, by space, address and value: 2 the caps; 3 the storage windows, by identifier, of an address space in bits 15:0
and a base; 4 the views of the pool unit × 8 + tier, likewise; 5 its free blocks, log2 size in bits 4:0 and an offset; 6 the mode of a
scale-up port, 1 for Ultra Ethernet; 7 the release of a live block of a pool, by its offset. DESIGN CHOICE (28). -/
def State.droneWrite (s : State) (space a v : Nat) : Option State :=
  match space with
  | 2 => some (s.setCap a v)
  | 3 => some (s.setWindow (v % 65536) (v / 65536) a)
  | 4 => some (s.setView (a % 8) (a / 8) (v % 65536) (v / 65536))
  | 5 => some (s.addFree (a % 8) (a / 8) (v / 32) (v % 32))
  | 6 => some (s.setPort a (v == 1))
  | 7 => some (s.dropBlock (a % 8) (a / 8) v)
  | _ => none

/-- What Drone reads of what it sets: a cap; what the manual does not say of the other registers is free. DESIGN CHOICE (28). -/
def State.droneRead (s : State) (space a pa : Nat) : Nat :=
  if space = 2 ∧ a < 6 then
    if a % 2 = 0 then s.power.peakCap.getD (a / 2) 0 else s.power.avgCap.getD (a / 2) 0
  else gatherBytes (Config.deviceByte s.fresh) pa 8

end Sys2Proof.Machine
end

