-- ==== Sys2Proof/Machine/Device.lean ====
section
/-! DEFINITION. Region 6 as a system core reaches it: the context windows (R454), the posted-store journals (R458) and the
launch-end register (R463); and the tile memory that only system cores reach (R94, R98). -/

namespace Sys2Proof.Machine

/-- `cr.slot` (R425). -/
def slotWord (slot inc : Nat) : Word := BitVec.ofNat 64 (slot % 65536 + inc % 256 * 65536)

/-- Point 7's voltage and clock are the highest (R254): volts in mV by point. -/
def pointMv (p : Nat) : Nat := 600 + 50 * (p % 8)

/-- Its array clock in MHz: hundredths of array clocks to a reference tick (R25, R254). -/
def pointMHz (p : Nat) : Nat := [470, 590, 705, 825, 940, 1020, 1100, 1180].getD p 940

/-- Remaining ticks of a boost lease (R254). -/
def Ctx.brem (c : Ctx) (time : Nat) : Nat :=
  match c.boost with
  | some b => if b.suspended then b.left else b.expiry - time
  | none => 0

/-- `cr.perf` of a context (R254). -/
def State.perfWord (s : State) (core : Nat) (c : Ctx) : Word :=
  let q := s.quadAt (quadOf core)
  BitVec.ofNat 64 (c.req.toNat + 8 * (q.point % 8) + (if q.mv = pointMv q.target then 0 else 64) +
    c.brem s.time % 2 ^ 17 * 2 ^ 24)

/-- A queue entry as a window shows it; one that an outstanding load still owes has no value yet. -/
def QEnt.word (fresh pa : Nat) : QEnt Word → Word
  | .val w => w
  | .due _ => BitVec.ofNat 64 (gatherBytes (Config.deviceByte fresh) pa 8)

/-- The number of entries in each queue, a byte each (R454). -/
def Ctx.levels (c : Ctx) : Nat :=
  ((List.range 8).map fun q =>
    256 ^ q * (if q < 4 then (c.regs.vq.get q []).length else (c.regs.sq.get q []).length)).sum

/-- The 8-byte word at an offset of the window of a slot (R454). -/
def State.windowWord (s : State) (k off : Nat) : Word :=
  match (s.slotAt k).ctx with
  | none => 0
  | some c =>
    match c.st with
    | .trapped t _ =>
      let i := off / 8
      if off < 0x100 then c.sreg (BitVec.ofNat 5 i)
      else if off < 0x140 then c.mask (i - 0x20)
      else if off < 0x180 then
        match i - 0x28 with
        | 0 => t.resume
        | 1 => c.regs.status
        | 2 => c.regs.pfx
        | 3 => c.wid
        | 4 => slotWord k (s.slotAt k).inc.toNat
        | 5 => c.notice
        | 6 => s.perfWord (coreOf k) c
        | _ => 0
      else if off < 0x1A0 then c.items.get (i - 0x30) 0
      else if off < 0x200 then
        match i - 0x34 with
        | 0 => t.cause k (s.slotAt k).inc.toNat
        | 1 => t.addr
        | 2 => t.detail
        | 4 => BitVec.ofNat 64 c.levels
        | 5 => BitVec.ofNat 64 t.disposition
        | _ => 0
      else if off < 0x300 then
        (((c.regs.sq.get (4 + (off - 0x200) / 64) [])[i % 8]?).map (QEnt.word s.fresh off)).getD 0
      else if 0x400 ≤ off ∧ off < 0xC00 then
        BitVec.ofNat 64 ((c.vreg ((off - 0x400) / 128)).toNat / 2 ^ (8 * (off / 8 % 16 * 8)))
      else 0
    | _ => 0

/-- A word with `n` bytes from byte `o` on replaced. -/
def patchWord (w : Word) (o n v : Nat) : Word := setField w (8 * o) (8 * n) v

/-- A write of `n` bytes to the window of a slot by the core that serves its trap (R454). -/
def State.windowWrite (s : State) (k off n v : Nat) : State :=
  match (s.slotAt k).ctx with
  | none => s
  | some c =>
    match c.st with
    | .trapped t w =>
      let i := off / 8
      let o := off % 8
      let new := patchWord (s.windowWord k (off - o)) o n v
      let c :=
        if off < 0x100 then c.setS (BitVec.ofNat 5 i) new
        else if off < 0x140 then c.setM (i - 0x20) new
        else if off < 0x148 then { c with st := .trapped { t with resume := setField new 0 1 0 } w }
        else if off < 0x150 then
          c.setStatus (statusWrite c.regs.status (patchWord (setField c.regs.status 8 7 0) o n v))
        else if 0x1C8 ≤ off ∧ off < 0x1D0 then
          if 3 ≤ new.toNat then c else { c with st := .trapped { t with disposition := new.toNat } w }
        else if 0x400 ≤ off ∧ off < 0xC00 then
          let r := (off - 0x400) / 128
          let lo := off % 128
          let x := (c.vreg r).toNat
          c.setV r (BitVec.ofNat 1024
            (x % 256 ^ lo + 256 ^ lo * (v % 256 ^ n) + 256 ^ (lo + n) * (x / 256 ^ (lo + n))))
        else c
      s.putCtx (.slot k) c
    | _ => s

/-- The committed line that holds entry `i` of the journal of a core (R458). -/
def State.journal (s : State) (core i : Nat) : Option Flight :=
  s.flights.find? fun f => f.core == core && f.journal == some i

/-- The bytes of a journal entry (R458). -/
def State.journalBytes (s : State) (core i : Nat) : List Byte :=
  match s.journal core i with
  | none => []
  | some f =>
    let le (n v : Nat) : List Byte := (List.range n).map (byteOf v)
    le 8 f.line.va ++ le 8 f.line.mask.toNat ++ le 2 f.origin.slot ++ le 1 f.origin.inc ++ le 1 f.reason ++
      le 2 f.origin.asn ++ le 1 (if f.phase = 2 then 2 else 1) ++ le 9 0 ++ le 8 f.line.home ++ le 24 0 ++
      (List.range 64).map fun k => if f.line.mask.getLsbD k then byteOf f.line.data.toNat k else 0

/-- A refused entry is sent again (R458, R474). DEDUCED (69). -/
def State.retryEntry (s : State) (core i : Nat) : State :=
  match s.journal core i with
  | some f =>
    if f.phase = 2 then
      let again (g : Flight) : Flight :=
        { g with phase := 0, reason := 0, tile := (s.homeTile g.line.home).getD 0, epoch := s.epoch }
      { s with flights := s.flights.map fun g => if g.id = f.id then again g else g }
    else s
  | none => s

/-- A refused entry is discarded: its bytes are never written, and the line counts as acknowledged (R458, R459). -/
def State.discardEntry (s : State) (core i : Nat) : State :=
  match s.journal core i with
  | some f =>
    if f.phase = 2 then
      (({ s with flights := s.flights.filter (·.id != f.id) }).grantJournal core).settleAll
    else s
  | none => s

/-- The state byte of a journal entry written by a system core (R458). -/
def State.journalWrite (s : State) (core i v : Nat) : State :=
  if v = 3 then s.retryEntry core i else if v = 4 then s.discardEntry core i else s

/-- The slot whose share an offset of a tile's tier 0 lies in (R94). -/
def shareSlot (pa : Nat) : Nat :=
  (coreBase (tileOfPa pa) + pa % 0x800000 / 0x20000) * 8 + pa % 0x20000 / 0x2000

/-- An offset of a tile's tier 0 that lies in an accumulator region (R94). -/
def inAccumulators (off : Nat) : Bool := decide (0x10000 ≤ off % 0x20000)

/-- The core, sub-tile and element of an address of an accumulator region (R94). -/
def accumulator (pa : Nat) : Nat × Nat × Nat :=
  (coreBase (tileOfPa pa) + pa % 0x800000 / 0x20000, pa % 0x10000 / 0x4000, pa % 0x4000 / 4)

/-- A byte, on a path, of tile memory that only system cores and the host reach: a slot's share (R94, R172), which while the slot holds
no firing has what was stored there meanwhile; a sub-tile (R264); or an inbox (R98). DESIGN CHOICE (166). DEDUCED (167). -/
def State.tileByte (s : State) (path pa : Nat) : Byte :=
  let off := pa % 0x800000
  if off < 0x100000 then
    if inAccumulators off then
      let (core, k, i) := accumulator pa
      byteOf ((s.subAt core k).elems.get i 0).toNat (pa % 4)
    else
      match (s.slotAt (shareSlot pa)).ctx with
      | some c => s.heldByte path (shareKey c.uid off) (c.share.get (off % 0x2000) 0) 0 0
      | none => s.readByte path pa
  else s.inboxByte (coreBase (tileOfPa pa) + (off - 0x300000) / 0x2000) (off % 0x2000)

/-- A byte written there, on a path: an inbox takes none. DESIGN CHOICE (166). DEDUCED (167). -/
def State.tilePut (s : State) (path pa : Nat) (b : Byte) : State :=
  if 0x100000 ≤ pa % 0x800000 then s
  else if inAccumulators (pa % 0x800000) then
    let (core, k, i) := accumulator pa
    let t := s.subAt core k
    let v := patchWord (((t.elems.get i 0).toNat : Nat)) (pa % 4) 1 b.toNat
    s.setSub core k { t with elems := t.elems.set i (BitVec.ofNat 32 v.toNat) 0 }
  else
    match (s.slotAt (shareSlot pa)).ctx with
    | some c =>
      let off := pa % 0x2000
      (s.unsee path 0 (shareKey c.uid off) (c.share.get off 0) 0).putCtx (.slot (shareSlot pa))
        { c with share := c.share.set off b 0 }
    | none => s.writeByte path 0 pa b

/-- An offset of region 2 that lies in no tier from 1 up. -/
def systemTileMemory (pa : Nat) : Bool :=
  regionOf pa == 2 && (tierOf pa == some 0 || (tierOf pa).isNone)

/-- The route tag of a message (R130). -/
def Packet.tag (p : Packet) : Nat := p.flags % 16

/-- `cr.htag` (R58). -/
def Core.htag (k : Core) : Word :=
  BitVec.ofNat 64 (k.enable.toNat + ((List.range 16).map fun t =>
    let mine := k.inbox.filter (·.packet.tag == t)
    if mine ≠ [] ∧ mine.all (!·.running) then 2 ^ (16 + t) else 0).sum)

/-- The bits of a span register that a write sets (R107). -/
def spanMask : Word := 0xFCFFFFFFFFE00003

/-- A core record after a write of a control register by system software: a multiply weight of 0 and a duty above 16 are never
written (R212, R251). -/
def Core.writeReg (k : Core) (r : Nat) (v : Word) : Core :=
  match r with
  | 0x010 => { k with enable := v.setWidth 16 }
  | 0x011 => if field v 0 4 = 0 then k else { k with mxw := v.setWidth 4 }
  | 0x012 => if field v 0 5 ≤ 16 then { k with duty := v.setWidth 5 } else k
  | 0x020 | 0x021 | 0x022 | 0x023 => { k with span := k.span.set (r - 0x20) (v &&& spanMask) 0 }
  | _ => k

/-- A control register of a core as system software reads it. -/
def Core.readReg (k : Core) (r : Nat) : Word :=
  match r with
  | 0x010 => k.htag
  | 0x011 => k.mxw.setWidth 64
  | 0x012 => k.duty.setWidth 64
  | 0x020 | 0x021 | 0x022 | 0x023 => k.span.get (r - 0x20) 0
  | _ => 0

/-- The 8-byte register of region 6 at an address, as a system core reads it: a register of a core, or one by which Drone sets
something.  Of any other the manual says nothing: its value is free. DESIGN CHOICE (28). -/
def State.registerRead (s : State) (pa : Nat) : Nat :=
  match Config.registerAt pa, Config.droneRegister pa with
  | some (k, r), _ => ((s.coreAt (k % 8192)).readReg r).toNat
  | none, some (space, a) => s.droneRead space a pa
  | none, none => gatherBytes (Config.deviceByte s.fresh) pa 8

/-- The register of region 6 at an address written by a system core.  A write of one of which the manual says nothing changes nothing
that the model holds. DESIGN CHOICE (28). -/
def State.registerPut (s : State) (pa v : Nat) : State :=
  match Config.registerAt pa, Config.droneRegister pa with
  | some (k, r), _ => s.setCore (k % 8192) ((s.coreAt (k % 8192)).writeReg r (BitVec.ofNat 64 v))
  | none, some (space, a) => (s.droneWrite space a v).getD s
  | none, none => s

/-- A load of system or hub core `m` at a physical address: its landing SRAM, registers of region 6, tile memory that only such
cores reach, and memory on the core path. DESIGN CHOICE (28). -/
def State.sysRead (s : State) (m pa n : Nat) : Except Stop Nat :=
  if m < 16 ∧ Config.inLanding m pa then .ok (gatherBytes (s.landingByte m) pa n)
  else if 0xC001000000000 ≤ pa ∧ pa < 0xC001010000000 then
    .ok ((s.windowWord ((pa - 0xC001000000000) / 0x1000) (pa % 0x1000 / 8 * 8)).toNat / 256 ^ (pa % 8) % 256 ^ n)
  else if 0xC002000000000 ≤ pa ∧ pa < 0xC002002000000 then
    .ok (if pa % 0x1000 < 32 * 128 then
      listNat (s.journalBytes ((pa - 0xC002000000000) / 0x1000) (pa % 0x1000 / 128)) (pa % 128) n else 0)
  else if 0xC003000000000 ≤ pa ∧ pa < 0xC003000000008 then .ok 0
  else if regionOf pa = 6 then
    .ok (s.registerRead (pa - pa % 8) / 256 ^ (pa % 8) % 256 ^ n)
  else if systemTileMemory pa then .ok (gatherBytes (s.tileByte 0) pa n)
  else .ok (s.readMem 0 pa n)

/-- A store of system or hub core `m`; `serving` are the slots whose traps it serves.  An inbox takes no store.
DESIGN CHOICE (28). -/
def State.sysWrite (s : State) (m : Nat) (serving : List Nat) (pa n v : Nat) : Except Stop State :=
  if m < 16 ∧ Config.inLanding m pa then
    let k := s.sysAt m
    .ok (s.setSys m { k with
      landing := (List.range n).foldl (fun l i => l.set (pa + i) (byteOf v i) 0) k.landing })
  else if 0xC001000000000 ≤ pa ∧ pa < 0xC001010000000 then
    let k := (pa - 0xC001000000000) / 0x1000
    .ok (if serving.contains k then s.windowWrite k (pa % 0x1000) n v else s)
  else if 0xC002000000000 ≤ pa ∧ pa < 0xC002002000000 then
    let o := pa % 128
    .ok (if o ≤ 0x16 ∧ 0x16 < o + n then
      s.journalWrite ((pa - 0xC002000000000) / 0x1000) (pa % 0x1000 / 128) (v / 256 ^ (0x16 - o) % 256) else s)
  else if 0xC003000000000 ≤ pa ∧ pa < 0xC003000000008 then
    .ok (if pa % 8 = 0 then s.endHandle (v % 2 ^ 32) else s)
  else if regionOf pa = 6 then
    let at_ := pa - pa % 8
    .ok (s.registerPut at_ (patchWord (BitVec.ofNat 64 (s.registerRead at_)) (pa % 8) n v).toNat)
  else if systemTileMemory pa then .ok ((List.range n).foldl (fun s i => s.tilePut 0 (pa + i) (byteOf v i)) s)
  else .ok (s.writeMem 0 0 pa n v)

end Sys2Proof.Machine
end

