-- ==== Sys2Proof/Machine/Scalar.lean ====
section
/-! DEFINITION. Scalar three-register and immediate operations: majors 0x00 to 0x03 (R319 to R322). -/

namespace Sys2Proof.Machine

/-- Three-register operations (R318, R319): every source is read and every pop done before the destination is written. -/
def alu3 (i : Instr) (z y x : BitVec 1) (b a d : BitVec 5) (f : Word → Word → Word) (s : State) :
    Host.Outcome State Fault Refusal :=
  issueOn { system := true, meets := .beside (namesReg y a ++ namesReg z b ++ namesReg x d) (namesQueue x d) } i
    (fun c => do
      let (va, vb, c) ← c.readSS y a z b
      let c ← c.writeS x d (f va vb)
      .ok (c.next 4)) s

/-- Unary operations (R319). -/
def alu2 (i : Instr) (y x : BitVec 1) (a d : BitVec 5) (f : Word → Word) (s : State) :
    Host.Outcome State Fault Refusal :=
  issueOn { system := true, meets := .beside (namesReg y a ++ namesReg x d) (namesQueue x d) } i
    (fun c => do
      let (va, c) ← c.readS y a
      let c ← c.writeS x d (f va)
      .ok (c.next 4)) s

/-- Immediate operations (R321): they name no queue. -/
def aluI (i : Instr) (a d : BitVec 5) (f : Word → Word) (s : State) : Host.Outcome State Fault Refusal :=
  issueOn { system := true, meets := .beside [a, d] none } i
    (fun c => .ok ({ c with c := c.c.setS d (f (c.c.sreg a)) }.next 4)) s

/-- One for true, zero for false. -/
def flagWord (p : Bool) : Word := if p then 1 else 0

/-! ## The results (R319, R320) -/

/-- Bits 127:64 of the exact product of two numbers. -/
def highProduct (p : Int) : Word := BitVec.ofInt 64 (p / 2 ^ 64)

/-- `DIV`: truncated; division by zero gives all ones, and −2^63 by −1 gives −2^63 (R186, R320). -/
def divS (a b : Word) : Word := if b = 0 then BitVec.allOnes 64 else BitVec.ofInt 64 (a.toInt.tdiv b.toInt)

/-- `REM`: the sign of the dividend; by zero the dividend (R186, R320). -/
def remS (a b : Word) : Word := if b = 0 then a else BitVec.ofInt 64 (a.toInt.tmod b.toInt)

def divU (a b : Word) : Word := if b = 0 then BitVec.allOnes 64 else BitVec.ofNat 64 (a.toNat / b.toNat)

def remU (a b : Word) : Word := if b = 0 then a else BitVec.ofNat 64 (a.toNat % b.toNat)

/-- The number of zero bits of the low `n` bits above the highest one bit. -/
def leadingZeros (a : Word) : Nat → Nat
  | 0 => 0
  | n + 1 => if bit a n then 0 else leadingZeros a n + 1

/-- The number of zero bits below the lowest one bit, counting from bit `64 - n`. -/
def trailingZeros (a : Word) : Nat → Nat
  | 0 => 0
  | n + 1 => if bit a (63 - n) then 0 else trailingZeros a n + 1

/-- The number of one bits among the low `n`. -/
def onesBelow (a : Word) : Nat → Nat
  | 0 => 0
  | n + 1 => (if bit a n then 1 else 0) + onesBelow a n

/-- The source width in bits that aux gives `SEXT` and `ZEXT` (R300). -/
def auxWidth (w : BitVec 2) : Nat := 8 * 2 ^ w.toNat

/-- The low `w` bits, sign-extended (R317). -/
def sext64 (v : Word) (w : Nat) : Word := BitVec.ofInt 64 (signed w (v.toNat % 2 ^ w))

/-- The low `w` bits, zero-extended (R317). -/
def zext64 (v : Word) (w : Nat) : Word := BitVec.ofNat 64 (v.toNat % 2 ^ w)

/-! ## The instructions -/

/-- `ADD` -/
def execAdd (z y x : BitVec 1) (b a d : BitVec 5) (s : State) : Host.Outcome State Fault Refusal :=
  alu3 (.add z y x b a d) z y x b a d (fun u v => u + v) s

/-- `SUB` -/
def execSub (z y x : BitVec 1) (b a d : BitVec 5) (s : State) : Host.Outcome State Fault Refusal :=
  alu3 (.sub z y x b a d) z y x b a d (fun u v => u - v) s

/-- `AND` -/
def execAnd (z y x : BitVec 1) (b a d : BitVec 5) (s : State) : Host.Outcome State Fault Refusal :=
  alu3 (.and z y x b a d) z y x b a d (fun u v => u &&& v) s

/-- `OR` -/
def execOr (z y x : BitVec 1) (b a d : BitVec 5) (s : State) : Host.Outcome State Fault Refusal :=
  alu3 (.or z y x b a d) z y x b a d (fun u v => u ||| v) s

/-- `XOR` -/
def execXor (z y x : BitVec 1) (b a d : BitVec 5) (s : State) : Host.Outcome State Fault Refusal :=
  alu3 (.xor z y x b a d) z y x b a d (fun u v => u ^^^ v) s

/-- `ANDN` -/
def execAndn (z y x : BitVec 1) (b a d : BitVec 5) (s : State) : Host.Outcome State Fault Refusal :=
  alu3 (.andn z y x b a d) z y x b a d (fun u v => u &&& ~~~v) s

/-- `SHL`: by b<5:0> -/
def execShl (z y x : BitVec 1) (b a d : BitVec 5) (s : State) : Host.Outcome State Fault Refusal :=
  alu3 (.shl z y x b a d) z y x b a d (fun u v => u <<< (v.toNat % 64)) s

/-- `SHR`: by b<5:0>, zeros in -/
def execShr (z y x : BitVec 1) (b a d : BitVec 5) (s : State) : Host.Outcome State Fault Refusal :=
  alu3 (.shr z y x b a d) z y x b a d (fun u v => u >>> (v.toNat % 64)) s

/-- `SRA`: by b<5:0>, copies of bit 63 in -/
def execSra (z y x : BitVec 1) (b a d : BitVec 5) (s : State) : Host.Outcome State Fault Refusal :=
  alu3 (.sra z y x b a d) z y x b a d (fun u v => u.sshiftRight (v.toNat % 64)) s

/-- `MUL`: bits 63:0 of the product -/
def execMul (z y x : BitVec 1) (b a d : BitVec 5) (s : State) : Host.Outcome State Fault Refusal :=
  alu3 (.mul z y x b a d) z y x b a d (fun u v => u * v) s

/-- `MULH`: bits 127:64, signed -/
def execMulh (z y x : BitVec 1) (b a d : BitVec 5) (s : State) : Host.Outcome State Fault Refusal :=
  alu3 (.mulh z y x b a d) z y x b a d (fun u v => highProduct (u.toInt * v.toInt)) s

/-- `MULHN`: bits 127:64, unsigned -/
def execMulhn (z y x : BitVec 1) (b a d : BitVec 5) (s : State) : Host.Outcome State Fault Refusal :=
  alu3 (.mulhn z y x b a d) z y x b a d (fun u v => highProduct ((u.toNat : Int) * v.toNat)) s

/-- `DIV` (R320) -/
def execDiv (z y x : BitVec 1) (b a d : BitVec 5) (s : State) : Host.Outcome State Fault Refusal :=
  alu3 (.div z y x b a d) z y x b a d (fun u v => divS u v) s

/-- `DIVN` (R320) -/
def execDivn (z y x : BitVec 1) (b a d : BitVec 5) (s : State) : Host.Outcome State Fault Refusal :=
  alu3 (.divn z y x b a d) z y x b a d (fun u v => divU u v) s

/-- `REM` (R320) -/
def execRem (z y x : BitVec 1) (b a d : BitVec 5) (s : State) : Host.Outcome State Fault Refusal :=
  alu3 (.rem z y x b a d) z y x b a d (fun u v => remS u v) s

/-- `REMN` (R320) -/
def execRemn (z y x : BitVec 1) (b a d : BitVec 5) (s : State) : Host.Outcome State Fault Refusal :=
  alu3 (.remn z y x b a d) z y x b a d (fun u v => remU u v) s

/-- `MIN`, as int64 -/
def execMin (z y x : BitVec 1) (b a d : BitVec 5) (s : State) : Host.Outcome State Fault Refusal :=
  alu3 (.min z y x b a d) z y x b a d (fun u v => if u.toInt ≤ v.toInt then u else v) s

/-- `MAX`, as int64 -/
def execMax (z y x : BitVec 1) (b a d : BitVec 5) (s : State) : Host.Outcome State Fault Refusal :=
  alu3 (.max z y x b a d) z y x b a d (fun u v => if u.toInt ≤ v.toInt then v else u) s

/-- `MINN`, as uint64 -/
def execMinn (z y x : BitVec 1) (b a d : BitVec 5) (s : State) : Host.Outcome State Fault Refusal :=
  alu3 (.minn z y x b a d) z y x b a d (fun u v => if u.toNat ≤ v.toNat then u else v) s

/-- `MAXN`, as uint64 -/
def execMaxn (z y x : BitVec 1) (b a d : BitVec 5) (s : State) : Host.Outcome State Fault Refusal :=
  alu3 (.maxn z y x b a d) z y x b a d (fun u v => if u.toNat ≤ v.toNat then v else u) s

/-- `SLT`, as int64 -/
def execSlt (z y x : BitVec 1) (b a d : BitVec 5) (s : State) : Host.Outcome State Fault Refusal :=
  alu3 (.slt z y x b a d) z y x b a d (fun u v => flagWord (decide (u.toInt < v.toInt))) s

/-- `SLTN`, as uint64 -/
def execSltn (z y x : BitVec 1) (b a d : BitVec 5) (s : State) : Host.Outcome State Fault Refusal :=
  alu3 (.sltn z y x b a d) z y x b a d (fun u v => flagWord (decide (u.toNat < v.toNat))) s

/-- `SEQ` -/
def execSeq (z y x : BitVec 1) (b a d : BitVec 5) (s : State) : Host.Outcome State Fault Refusal :=
  alu3 (.seq z y x b a d) z y x b a d (fun u v => flagWord (u == v)) s

/-- `CSEL` (R300, R319): the old value of F1 is the condition. -/
def execCsel (z y : BitVec 1) (b a d : BitVec 5) (s : State) : Host.Outcome State Fault Refusal :=
  issueOn { system := true, meets := .beside (namesReg y a ++ namesReg z b ++ [d]) none } (.csel z y b a d)
    (fun c => do
      let (va, vb, c) ← c.readSS y a z b
      .ok ({ c with c := c.c.setS d (if c.c.sreg d ≠ 0 then va else vb) }.next 4)) s

/-- `CLZ`; 64 for 0 -/
def execClz (y x : BitVec 1) (a d : BitVec 5) (s : State) : Host.Outcome State Fault Refusal :=
  alu2 (.clz y x a d) y x a d (fun u => BitVec.ofNat 64 (leadingZeros u 64)) s

/-- `CTZ`; 64 for 0 -/
def execCtz (y x : BitVec 1) (a d : BitVec 5) (s : State) : Host.Outcome State Fault Refusal :=
  alu2 (.ctz y x a d) y x a d (fun u => BitVec.ofNat 64 (trailingZeros u 64)) s

/-- `POPC` -/
def execPopc (y x : BitVec 1) (a d : BitVec 5) (s : State) : Host.Outcome State Fault Refusal :=
  alu2 (.popc y x a d) y x a d (fun u => BitVec.ofNat 64 (onesBelow u 64)) s

/-- `SEXT` -/
def execSext (w : BitVec 2) (y x : BitVec 1) (a d : BitVec 5) (s : State) : Host.Outcome State Fault Refusal :=
  alu2 (.sext w y x a d) y x a d (fun u => sext64 u (auxWidth w)) s

/-- `ZEXT` -/
def execZext (w : BitVec 2) (y x : BitVec 1) (a d : BitVec 5) (s : State) : Host.Outcome State Fault Refusal :=
  alu2 (.zext w y x a d) y x a d (fun u => zext64 u (auxWidth w)) s

/-- `ADDI` (R321) -/
def execAddi (i : BitVec 12) (a d : BitVec 5) (s : State) : Host.Outcome State Fault Refusal :=
  aluI (.addi i a d) a d (fun u => u + imm i) s

/-- `ANDI` -/
def execAndi (i : BitVec 12) (a d : BitVec 5) (s : State) : Host.Outcome State Fault Refusal :=
  aluI (.andi i a d) a d (fun u => u &&& imm i) s

/-- `ORI` -/
def execOri (i : BitVec 12) (a d : BitVec 5) (s : State) : Host.Outcome State Fault Refusal :=
  aluI (.ori i a d) a d (fun u => u ||| imm i) s

/-- `XORI` -/
def execXori (i : BitVec 12) (a d : BitVec 5) (s : State) : Host.Outcome State Fault Refusal :=
  aluI (.xori i a d) a d (fun u => u ^^^ imm i) s

/-- `SHLI`: by imm<5:0> -/
def execShli (i : BitVec 12) (a d : BitVec 5) (s : State) : Host.Outcome State Fault Refusal :=
  aluI (.shli i a d) a d (fun u => u <<< (i.toNat % 64)) s

/-- `SHRI`: by imm<5:0> -/
def execShri (i : BitVec 12) (a d : BitVec 5) (s : State) : Host.Outcome State Fault Refusal :=
  aluI (.shri i a d) a d (fun u => u >>> (i.toNat % 64)) s

/-- `SRAI`: by imm<5:0> -/
def execSrai (i : BitVec 12) (a d : BitVec 5) (s : State) : Host.Outcome State Fault Refusal :=
  aluI (.srai i a d) a d (fun u => u.sshiftRight (i.toNat % 64)) s

/-- `SLTI`, as int64 -/
def execSlti (i : BitVec 12) (a d : BitVec 5) (s : State) : Host.Outcome State Fault Refusal :=
  aluI (.slti i a d) a d (fun u => flagWord (decide (u.toInt < (imm i).toInt))) s

/-- `LUI` (R322): sext64(imm20 << 12, 32). -/
def execLui (i : BitVec 20) (d : BitVec 5) (s : State) : Host.Outcome State Fault Refusal :=
  issueOn { system := true, meets := .beside [d] none } (.lui i d)
    (fun c => .ok ({ c with c := c.c.setS d (imm i <<< 12) }.next 4)) s

/-- `ADDPC` (R295, R322): (pc with bits 2:0 cleared) + imm20 × 8. -/
def execAddpc (i : BitVec 20) (d : BitVec 5) (s : State) : Host.Outcome State Fault Refusal :=
  issueOn { system := true, meets := .beside [d] none } (.addpc i d)
    (fun c => .ok ({ c with c := c.c.setS d ((c.c.pc &&& ~~~(7 : Word)) + (imm i <<< 3)) }.next 4)) s

end Sys2Proof.Machine
end

