-- ==== Sys2Proof/Machine/Vector.lean ====
section
/-! DEFINITION. How the vector stream runs an instruction: forwarding (R343, R345, R347), vector operands, and the lanes
that an instruction writes (R344). -/

namespace Sys2Proof.Machine

/-- What the scalar stream forwards with a vector instruction (R345, R346): its address, its scalar operands and
`cr.status` as program order gives them. -/
structure VIn where
  pc : Word
  x : Word
  y : Word
  status : Word
  /-- Elements of a memory access already checked, and those that have been served or taken. -/
  cells : List (Nat × Nat × Nat) := []
  got : Map Nat := []
  /-- The number of a load. -/
  id : Nat := 0

/-- What is particular to a vector instruction's forwarding. -/
structure VHow where
  /-- Scalar registers it names as sources, x and then y. -/
  ops : List (BitVec 5) := []
  writes : Option (BitVec 5) := none
  pushes : Option Nat := none
  /-- Its vector destination. -/
  dest : Option (BitVec 5) := none
  len : Nat := 4

/-- The vector queue that a vector field names (R296). -/
def vecQueue (r : BitVec 5) : Option Nat := if 16 ≤ r.toNat then some (r.toNat - 16) else none

def VHow.x (h : VHow) (c : Ctx) : Word := match h.ops with
  | r :: _ => c.sreg r
  | [] => 0

def VHow.y (h : VHow) (c : Ctx) : Word := match h.ops with
  | _ :: r :: _ => c.sreg r
  | _ => 0

/-- The oldest forwarded instruction is complete. DEDUCED (22). -/
def Cx.forwardedDone (x : Cx) (rest : List Deferred) : Cx := { x with c := { x.c with vstream := rest } }

/-- A forwarded instruction's operands. -/
def Deferred.operands (d : Deferred) : VIn :=
  { pc := d.pc, x := d.x, y := d.y, status := d.status, cells := d.cells, got := d.got, id := d.id }

/-- The turn of a slot's vector stream: its oldest forwarded instruction.  A store whose interval has been closed since, by a
park, claims its checked lines again (R163, R167); an instruction waits for a register that it reads (R365). -/
def vectorTurn (body : VIn → Cx → Except Stop Cx) (s : State) : Host.Outcome State Fault Refusal :=
  let s' := { s with vecTurn := false }
  match s'.vectorHand with
  | none => .next s'
  | some x =>
    match x.c.vstream with
    | [] => .next s'
    | d :: rest =>
      match d.claims.find? fun l => !x.c.hasTouch l.1 true with
      | some (l, va) =>
        if x.c.st = .running then .next { x with c := { x.c.checked with st := .checking l va true } }.put else .next s'
      | none =>
        if x.c.vwaits d.instr then .next s'
        else
          match body d.operands x with
          | .ok y => .next (y.forwardedDone rest).put
          | .error (.stay t) => .next t
          | _ => .next s'

/-- A vector instruction: behind forwarded ones it is forwarded; otherwise it takes effect at once, or is forwarded where a
queue, or a load of a register that it reads, blocks the vector stream (R289, R343, R347, R365). DEDUCED (22). -/
def vissue (h : VHow) (i : Instr) (legal : Word → Bool) (body : VIn → Cx → Except Stop Cx) (s : State) :
    Host.Outcome State Fault Refusal :=
  if s.vecTurn then vectorTurn body s
  else issue { meets := .beside h.ops none } i (fun c => legal c.regs.status) (fun x =>
    let v : VIn := { pc := x.c.pc, x := h.x x.c, y := h.y x.c, status := x.c.regs.status }
    let d : Deferred :=
      { instr := i, pc := v.pc, x := v.x, y := v.y, status := v.status, writes := h.writes, pushes := h.pushes,
        fills := h.dest.bind vecQueue }
    let forwarded := ({ x with c := { x.c with vstream := x.c.vstream ++ [d] } }.next h.len).put
    if x.c.vstream ≠ [] ∨ x.c.vwaits i then .ok forwarded
    else
      match body v x with
      | .ok y => .ok (y.next h.len).put
      | .error .stall => .ok forwarded
      | .error e => .error e) s

/-! ## Vector operands -/

/-- A vector source: a register, or the head of a queue (R296, R345). -/
def Cx.readV (x : Cx) (r : BitVec 5) : Except Stop (Vec × Cx) :=
  if 16 ≤ r.toNat then x.popV (r.toNat - 16) else .ok (x.c.vreg r.toNat, x)

/-- Two vector sources; a queue written twice pops one entry (R289). -/
def Cx.readVV (x : Cx) (a b : BitVec 5) : Except Stop (Vec × Vec × Cx) := do
  let x := x.popRoom ((vecQueue a).toList ++ (vecQueue b).toList)
  let (va, x) ← x.readV a
  if 16 ≤ a.toNat ∧ a = b then .ok (va, va, x)
  else
    let (vb, x) ← x.readV b
    .ok (va, vb, x)

/-- The prior value of a vector destination; that of a queue reads as zero (R344). -/
def Ctx.prior (c : Ctx) (r : BitVec 5) : Vec := if 16 ≤ r.toNat then 0 else c.vreg r.toNat

/-- A vector destination: a register, or a queue, which receives a new entry (R344). -/
def Cx.writeV (x : Cx) (r : BitVec 5) (v : Vec) : Except Stop Cx :=
  if 16 ≤ r.toNat then x.pushV (r.toNat - 16) (.val v) else .ok { x with c := x.c.setV r.toNat v }

/-- A scalar result of a vector instruction, to a register or to a scalar queue (R289, R357). -/
def Cx.writeVS (x : Cx) (q : BitVec 1) (d : BitVec 5) (v : Word) : Except Stop Cx := x.writeS q d v

/-- The lanes of a result (R344): an enabled lane takes the value and raises the flags of `f`, a disabled lane keeps its
prior value.  A lane beyond `n` keeps it as well. -/
def laneResults (w n : Nat) (m : Word) (old : Vec) (f : Nat → Nat × Nat) : Vec × Nat :=
  let r := (List.range (1024 / w)).map fun j =>
    if decide (j < n) && enabled m j then f j else (lane old w j, 0)
  (ofLanes w (r.map (·.1)), r.foldl (fun a p => a ||| p.2) 0)

/-- A lane-wise result written, with its flags (R344, R346). -/
def Cx.writeLanes (x : Cx) (t : Nat) (m : Word) (d : BitVec 5) (f : Nat → Nat × Nat) : Except Stop Cx :=
  let (v, fl) := laneResults (laneWidth t) (laneCount t) m (x.c.prior d) f
  ({ x with c := x.c.raiseFlags fl }).writeV d v

end Sys2Proof.Machine
end

