-- ==== Sys2Proof/Machine/LoadStore.lean ====
section
/-! DEFINITION. Scalar loads and stores (R324 to R330), vector loads and stores (R364 to R367), and how they pass forwarded
vector instructions (R345, R347). -/

namespace Sys2Proof.Machine

/-! ## Scalar loads and stores -/

/-- The size of an access in bytes (R301). -/
def accessSize (s : Nat) : Nat := 2 ^ (s % 4)

/-- A loaded value as a register takes it: func3 0 to 3 sign-extend and 4 to 6 zero-extend (R301, R325). -/
def loadExtend (s n v : Nat) : Word := if 4 ≤ s then BitVec.ofNat 64 v else sextWord n v

/-- The bytes of a forwarded access (R345), element by element: 4-byte words. -/
def Deferred.words (d : Deferred) : List Nat := d.cells.map fun c => c.2.2 / 4

/-- A forwarded instruction is still to write a mask register (R345, R351). -/
def Ctx.maskDue (c : Ctx) (m : BitVec 3) : Bool :=
  m != 0 && c.vstream.any fun d => (Instr.mwrites d.instr).any (·.toNat == m.toNat)

/-- A vector field is not ready for the scalar stream: a forwarded instruction is still to write it, or, where it names a queue, to
use that; or it is a register that a load is still to write (R345, R364). -/
def Ctx.fieldDue (c : Ctx) (b : BitVec 5) : Bool :=
  (c.vstream.any fun d => Instr.vwrites d.instr == some b || (decide (16 ≤ b.toNat) && (Instr.vreads d.instr).contains b)) ||
    c.regs.vdue.any fun e => e.1 == b.toNat

/-- The scalar stream must not overtake a forwarded vector access to the same word (R158, R160). -/
def Ctx.clash (c : Ctx) (key n : Nat) : Bool :=
  c.vstream.any fun d => d.words.any fun w => decide (key / 4 ≤ w) && decide (w ≤ (key + n - 1) / 4)

/-- Byte `i` of an element whose place has a code, as a load reads it (R158, R326, R365). -/
def Cx.codeByte (x : Cx) (va code i : Nat) (acc : Nat := 0) : Byte :=
  if 2 ^ 58 ≤ code then poisonByte (va + i)
  else if 2 ^ 57 ≤ code then 0
  else if 2 ^ 56 ≤ code then x.s.inboxByte x.core (code - 2 ^ 56 + i)
  else x.coreByte (code + i) acc

/-- The plain load at an address, with its result extended (R324 to R326). -/
def Cx.scalarLoad (x : Cx) (s : BitVec 3) (ea : Word) : Except Stop (Word × Cx) := do
  let n := accessSize s.toNat
  match x.who with
  | .sys _ =>
    let (p, x) ← x.reach .load true ea.toNat n
    let v ← x.s.sysRead x.sysNumber p.key n
    .ok (loadExtend s.toNat n v, x)
  | .slot _ =>
    let (p, x) ← x.reach .load true ea.toNat n
    if x.c.clash p.code n then .error .stall else
    let (v, x) ← x.loadAt p ea.toNat n
    .ok (loadExtend s.toNat n v, x)

/-- What a byte of an outstanding load is: fixed when the load issues, or served at a home later (R114, R325).  A load of a
checked line is served when it is recorded (R167). -/
def Cx.loadByte (x : Cx) (checked : Bool) (va code i : Nat) (acc : Nat := 0) : Option Nat × Byte :=
  if code < shareBase ∧ !checked ∧ (x.c.region.buffered (code + i)).isNone ∧ (x.c.owedByte (code + i)).isNone then
    (some (code + i), 0)
  else (none, x.codeByte va code i acc)

/-- A load to a register that the schedule has served at its home later (R160, R398), and whether there is one: some of its
bytes come from a home whose page is unchecked. DEDUCED (21). -/
def Cx.lateLoad (x : Cx) (s : BitVec 3) (ea : Word) (d : BitVec 5) : Except Stop (Option Cx) := do
  let n := accessSize s.toNat
  if !x.s.late || d == 0 || !x.isFiring then .ok none
  else
    let (p, x) ← x.reach .load true ea.toNat n
    if x.c.clash p.code n then .error .stall else
    let cells := (List.range n).map fun i => x.loadByte p.checkedLine.isSome ea.toNat p.code i
    if cells.all (·.1.isNone) then .ok none
    else
      let id := x.s.nextId
      .ok (some { x with
        s := { x.s with nextId := id + 1 }
        c := { x.c with
          regs := { x.c.regs with due := x.c.regs.due.insert d.toNat id }
          loads := x.c.loads ++ [{ id := id, vec := false, q := s.toNat, cells := cells, signed := decide (s.toNat < 4),
                                   reg := some d.toNat, lines := [(lineOf p.code, lineOf ea.toNat)]
                                   stamps := x.s.stamp [lineOf p.code], epoch := x.s.epoch }] } })

/-- The load of an address into a register (R325, R398). -/
def Cx.loadInto (x : Cx) (s : BitVec 3) (ea : Word) (d : BitVec 5) : Except Stop Cx := do
  match ← x.lateLoad s ea d with
  | some y => .ok y
  | none =>
    let (v, x) ← x.scalarLoad s ea
    .ok { x with c := x.c.setS d v }

/-- The slots whose traps a system core serves. -/
def Cx.serving (x : Cx) : List Nat :=
  match x.who with
  | .sys n => (x.s.sysAt n).serving
  | .slot _ => []

/-- The plain store at an address (R324, R327).  One that would commit the region waits for the forwarded accesses, which
precede what the commit drains (R159). -/
def Cx.scalarStore (x : Cx) (s : BitVec 2) (ea v : Word) : Except Stop Cx := do
  let n := 2 ^ s.toNat
  match x.who with
  | .sys _ =>
    let (p, x) ← x.reach .store true ea.toNat n
    let t ← x.put.sysWrite x.sysNumber x.serving p.key n (v.toNat % 256 ^ n)
    .ok { x with s := t }
  | .slot _ =>
    let (p, x') ← x.reach .store true ea.toNat n
    if x'.c.clash p.code n ∨ (x'.c.vstream.any (!·.cells.isEmpty) ∧ x'.full [p.key]) then .error .stall
    else x.store ea.toNat n v.toNat

/-- What a load or store does before it pops queues for its operands: translation, the race checks of its line, and, for a
store, room in the buffer. -/
def Cx.prepare (x : Cx) (store : Bool) (ea : Word) (n : Nat) : Except Stop Cx :=
  match x.who with
  | .sys _ => .ok x
  | .slot _ => do
    let (p, x) ← x.reach (if store then .store else .load) true ea.toNat n
    let x ← x.checkLines (p.checkedLine.toList.map (·, lineOf ea.toNat)) store
    if store ∧ x.full [p.key] ∧ x.c.vstream.any (!·.cells.isEmpty) then .error .stall
    else .ok (if store then x.makeRoom [p.key] else x)

/-- `LD` (R324 to R326). -/
def execLd (s : BitVec 3) (i : BitVec 12) (a d : BitVec 5) (st : State) : Host.Outcome State Fault Refusal :=
  issueOn { system := true, meets := .beside [a, d] none } (.ld s i a d) (fun x => do
    let x ← x.loadInto s (x.c.sreg a + imm i) d
    .ok (x.next 4)) st

/-- `ST` (R324, R327). -/
def execSt (s : BitVec 2) (i : BitVec 12) (a c : BitVec 5) (st : State) : Host.Outcome State Fault Refusal :=
  issueOn { system := true, meets := .beside [a, c] none } (.st s i a c) (fun x => do
    let x ← x.scalarStore s (x.c.sreg a + imm i) (x.c.sreg c)
    .ok (x.next 4)) st

/-- A load to a queue becomes outstanding, with its place in the queue taken (R289, R328); one that no home has to serve is
complete at once. -/
def Cx.queueLoadS (x : Cx) (s : BitVec 3) (ea : Word) (q : Nat) : Except Stop Cx := do
  let n := accessSize s.toNat
  let (p, x) ← x.reach .load true ea.toNat n
  if x.c.clash p.code n then .error .stall else
  let x ← match p.checkedLine with
    | some l => x.checkLines [(l, lineOf ea.toNat)] false
    | none => .ok x
  let now := p.checkedLine.isSome || (decide (shareBase ≤ p.code) && decide (p.code < 2 ^ 56))
  if now ∧ (x.s.inFlight x.c.uid p.code ∨ x.c.awaits p.code n ∨ (p.checkedLine.isSome ∧ x.behind p.code)) then
    .error .stall
  else
  let x := if p = .poison then { x with c := x.c.setStatus (x.c.regs.status ||| 0x2000) } else x
  let cells := (List.range n).map fun i => x.loadByte p.checkedLine.isSome ea.toNat p.code i
  if cells.all (·.1.isNone) then
    x.pushS q (.val (loadExtend s.toNat n (gatherBytes (x.codeByte ea.toNat p.code) 0 n)))
  else
    let id := x.s.nextId
    let x ← x.pushS q (.due id)
    .ok { x with
      s := { x.s with nextId := id + 1 }
      c := { x.c with loads := x.c.loads ++
        [{ id := id, vec := false, q := q, cells := cells, signed := decide (s.toNat < 4),
           lines := [(lineOf p.code, lineOf ea.toNat)], stamps := x.s.stamp [lineOf p.code], epoch := x.s.epoch }] } }

/-- `LDX` (R324, R325, R328): a flagged destination is a scalar queue, which blocks the load before anything else while it is
full, once the operands are popped. -/
def execLdx (s : BitVec 3) (z y x : BitVec 1) (b a d : BitVec 5) (st : State) : Host.Outcome State Fault Refusal :=
  issueOn { system := true, meets := .beside (namesReg y a ++ namesReg z b ++ namesReg x d) (namesQueue x d) }
    (.ldx s z y x b a d) (fun c => do
      let (ua, ub, p) ← c.readSS y a z b
      if x = 1 ∧ p.sFull d.toNat then .error .stall else
      let c ← c.prepare false (ua + ub) (accessSize s.toNat)
      let (va, vb, c) ← c.readSS y a z b
      if x = 1 ∧ c.isFiring then
        let c ← c.queueLoadS s (va + vb) d.toNat
        .ok (c.next 4)
      else if x = 0 then
        let c ← c.loadInto s (va + vb) d
        .ok (c.next 4)
      else
        let (v, c) ← c.scalarLoad s (va + vb)
        let c ← c.writeS x d v
        .ok (c.next 4)) st

/-- `STX` (R324, R327, R328): a queue named more than once pops one entry. -/
def execStx (s : BitVec 2) (z y x : BitVec 1) (b a c : BitVec 5) (st : State) : Host.Outcome State Fault Refusal :=
  issueOn { system := true, meets := .beside (namesReg y a ++ namesReg z b ++ namesReg x c) none }
    (.stx s z y x b a c) (fun k => do
      let k := k.popRoom ((namesQueue y a).toList ++ (namesQueue z b).toList ++ (namesQueue x c).toList)
      let (ua, ub, _) ← k.readSS y a z b
      let k ← k.prepare true (ua + ub) (2 ^ s.toNat)
      let (va, vb, k) ← k.readSS y a z b
      let (vc, k) ← if x = 1 ∧ y = 1 ∧ c = a then .ok (va, k)
        else if x = 1 ∧ z = 1 ∧ c = b then .ok (vb, k) else k.readS x c
      let k ← k.scalarStore s (va + vb) vc
      .ok (k.next 4)) st

/-- `PREF` (R330): the device drops it, so it only goes on. DEDUCED (33). -/
def execPref (i : BitVec 12) (a : BitVec 5) (st : State) : Host.Outcome State Fault Refusal :=
  issueOn { system := true, meets := .beside [a] none } (.pref i a) (fun x => .ok (x.next 4)) st

/-! ## Vector loads and stores (R364 to R367) -/

/-- The elements of a vector access, each translated in lane order (R364): lane, address and place; and the checked lines
among them. -/
def Cx.reachLanes (x : Cx) (u : Use) (e : Nat) :
    List (Nat × Nat) → Except Stop (List (Nat × Nat × Nat) × List (Nat × Nat) × Cx)
  | [] => .ok ([], [], x)
  | (j, va) :: l => do
    let (p, x) ← x.reach u true va e
    let (cs, ls, x) ← x.reachLanes u e l
    .ok ((j, va, p.code) :: cs, p.checkedLine.toList.map (·, lineOf va) ++ ls, x)

/-- The elements up to the first that faults, each with the race check of its line, so that the lowest faulting lane reports
(R367, R469). -/
def Cx.faultLanes (x : Cx) (u : Use) (e : Nat) (claim : Bool) : List (Nat × Nat) → Except Stop Cx
  | [] => .ok x
  | (_, va) :: l => do
    let (p, x) ← x.reach u true va e
    let x ← x.checkLines (p.checkedLine.toList.map (·, lineOf va)) claim
    x.faultLanes u e claim l

/-- The elements of a vector access, translated and checked, and their checked lines (R364 to R367). -/
def Cx.checkLanes (x : Cx) (store : Bool) (e : Nat) (lanes : List (Nat × Nat)) :
    Except Stop (List (Nat × Nat × Nat) × List (Nat × Nat) × Cx) :=
  let u : Use := if store then .store else .load
  match x.reachLanes u e lanes with
  | .ok (cells, lines, x) => (x.checkLines lines store).map (cells, lines, ·)
  | .error s =>
    match x.faultLanes u e store lanes with
    | .error f => .error f
    | .ok _ => .error s

/-- pz, where an element lies on a return-poison page (R326, R365). -/
def Cx.poisoned (x : Cx) (cells : List (Nat × Nat × Nat)) : Cx :=
  if cells.any fun c => decide (2 ^ 58 ≤ c.2.2) then { x with c := x.c.setStatus (x.c.regs.status ||| 0x2000) } else x

/-- Lanes that are read at once wait for the firing's own lines, for its outstanding accesses to the same bytes (R158), and for
what its tile or the firing has sent to their homes before (R127, R145). -/
def Cx.lanesWait (x : Cx) (w : Nat) (cells : List (Nat × Nat × Nat)) : Bool :=
  cells.any fun c => decide (c.2.2 < 2 ^ 56) && (x.s.inFlight x.c.uid c.2.2 || x.c.awaits c.2.2 (w / 8) ||
    (decide (c.2.2 < shareBase) && x.behind c.2.2))

/-- An element lies in a checked line that the interval has recorded. -/
def Cx.recorded (x : Cx) (code : Nat) : Bool := decide (code < shareBase) && x.c.hasTouch (lineOf code) false

/-- Elements of a load that are read as their lines are recorded (R167): all that lie in checked lines, but for those that a
forwarded store of the firing, which has claimed its lines, comes before (R158). -/
def Cx.recordedLanes (x : Cx) (w : Nat) (cells : List (Nat × Nat × Nat)) : List (Nat × Nat × Nat) :=
  cells.filter fun c => x.recorded c.2.2 && !(x.c.vstream.any fun d => d.stores && d.words.any fun u =>
    decide (c.2.2 / 4 ≤ u) && decide (u ≤ (c.2.2 + w / 8 - 1) / 4))

/-- Their values, by lane. -/
def Cx.servedLanes (x : Cx) (w : Nat) (cells : List (Nat × Nat × Nat)) : Map Nat :=
  (x.recordedLanes w cells).map fun c => (c.1, gatherBytes (x.codeByte c.2.1 c.2.2 · c.1) 0 (w / 8))

/-- The value of an element that is read at once. -/
def Cx.laneValue (x : Cx) (w : Nat) (v : VIn) (c : Nat × Nat × Nat) : Nat :=
  (v.got.get? c.1).getD (gatherBytes (x.codeByte c.2.1 c.2.2 · c.1) 0 (w / 8))

/-- A vector load into a register, read at once (R344, R365). -/
def Cx.loadLanes (x : Cx) (w : Nat) (d : BitVec 5) (v : VIn) : Except Stop Cx :=
  if x.lanesWait w (v.cells.filter fun c => (v.got.get? c.1).isNone) then .error .stall
  else
    let old := x.c.prior d
    let r := ofLanes w ((List.range (1024 / w)).map fun j =>
      match v.cells.find? (·.1 == j) with
      | some c => x.laneValue w v c
      | none => lane old w j)
    (x.poisoned v.cells).writeV d r

/-- The bytes of a vector load, lane by lane: fixed, or served at a home later; a disabled lane keeps what it has (R344). -/
def Cx.laneBytes (x : Cx) (w : Nat) (old : Vec) (v : VIn) : List (Option Nat × Byte) :=
  (List.range (1024 / w)).flatMap fun j =>
    match v.cells.find? (·.1 == j) with
    | some (_, va, code) => (List.range (w / 8)).map fun i =>
        match v.got.get? j with
        | some g => (none, byteOf g i)
        | none => x.loadByte (x.recorded code) va code i j
    | none => (List.range (w / 8)).map fun i => (none, byteOf (lane old w j) i)

/-- A vector load becomes outstanding (R114, R160, R289): its place in the queue is taken, or its register waits.  One that no
home has to serve is complete at once. -/
def Cx.lanesDue (x : Cx) (w : Nat) (d : BitVec 5) (v : VIn) : Except Stop Cx := do
  let fixed := v.cells.filter fun c => (v.got.get? c.1).isNone && (decide (shareBase ≤ c.2.2) || x.recorded c.2.2)
  if x.lanesWait w fixed then .error .stall else
  let bytes := x.laneBytes w (x.c.prior d) v
  let x := x.poisoned v.cells
  if bytes.all (·.1.isNone) then
    x.writeV d (BitVec.ofNat 1024 (gatherBytes (fun i => (bytes.map (·.2)).getD i 0) 0 128))
  else
    let load : QLoad :=
      { id := v.id, vec := true, q := (vecQueue d).getD 0, cells := bytes, signed := false,
        reg := if (vecQueue d).isSome then none else some d.toNat, width := w / 8
        lines := (v.cells.map fun c => (lineOf c.2.2, lineOf c.2.1)).eraseDups
        stamps := x.s.stamp (v.cells.map fun c => lineOf c.2.2).eraseDups
        epoch := x.s.epoch }
    let x ← match vecQueue d with
      | some q => x.pushV q (.due v.id)
      | none => .ok { x with c := { x.c with regs := { x.c.regs with vdue := x.c.regs.vdue.insert d.toNat v.id } } }
    .ok { x with
      s := { x.s with nextId := Nat.max x.s.nextId (v.id + 1) }
      c := { x.c with loads := x.c.loads ++ [load] } }

/-- A vector load's effect at its place in the vector stream: a register is read at once, or, where the schedule says so,
later (R160). DEDUCED (21). -/
def Cx.vecLoad (x : Cx) (w : Nat) (d : BitVec 5) (v : VIn) : Except Stop Cx :=
  if (vecQueue d).isSome ∨ x.s.late then x.lanesDue w d v else x.loadLanes w d v

/-- A vector store's effect: room in the buffer, then the enabled elements in lane order (R366); `taken` where its data came with
its offsets, from one queue. -/
def Cx.vecStore (x : Cx) (w : Nat) (r : BitVec 5) (taken : Bool) (v : VIn) : Except Stop Cx := do
  let x := if taken then x else x.popRoom (vecQueue r).toList
  let x := x.makeRoom (v.cells.map (·.2.2))
  let (data, x) ← if taken then .ok (0, x) else x.readV r
  .ok (v.cells.foldl (fun x c =>
    x.buffer c.2.2 c.2.1 (w / 8) (if taken then v.got.get c.1 0 else lane data w c.1)) x)

/-- A vector memory access whose addresses the scalar stream has: its elements are checked, and it takes effect in the vector
stream's order, except that a load to a queue that no forwarded instruction fills, from words that none stores to, goes ahead
(R289, R345, R364). -/
def Cx.vecIssue (x : Cx) (i : Instr) (w : Nat) (store : Bool) (r : BitVec 5) (taken : Option Vec) (lanes : List (Nat × Nat))
    (offsets : Cx → Except Stop Cx) : Except Stop State := do
  let (cells, lines, x) ← x.checkLanes store (w / 8) lanes
  if !store ∧ x.lanesWait w (x.recordedLanes w cells) then .error .stall else
  let v : VIn :=
    { pc := x.c.pc, x := 0, y := 0, status := x.c.regs.status, cells := cells, id := x.s.nextId
      got := match taken with
        | some off => lanes.map fun l => (l.1, lane off w l.1)
        | none => if store then [] else x.servedLanes w cells }
  let ahead := !store && (vecQueue r).isSome && x.c.vstream.all (fun f => f.fills != vecQueue r) &&
    cells.all (fun c => !x.c.clash c.2.2 (w / 8))
  let x ← offsets (if store ∧ x.c.vstream = [] then x.makeRoom (cells.map (·.2.2)) else x)
  let d : Deferred :=
    { instr := i, pc := v.pc, x := 0, y := 0, status := v.status, fills := if store then none else vecQueue r,
      stores := store, cells := cells, got := v.got, claims := if store then lines else [], id := v.id }
  let forwarded := ({ x with
    s := { x.s with nextId := x.s.nextId + 1 }
    c := { x.c with vstream := x.c.vstream ++ [d] } }.next 4).put
  if (x.c.vstream ≠ [] ∧ !ahead) ∨ x.c.vwaits i then .ok forwarded
  else
    match if store then x.vecStore w r taken.isSome v else x.vecLoad w r v with
    | .ok y => .ok (y.next 4).put
    | .error .stall => if ahead then .error .stall else .ok forwarded
    | .error e => .error e

/-- The effect of a forwarded vector access. -/
def Cx.vecEffect (w : Nat) (store : Bool) (r : BitVec 5) (taken : Bool) (v : VIn) (x : Cx) : Except Stop Cx :=
  if store then x.vecStore w r taken v else x.vecLoad w r v

/-- A vector memory instruction (R364).  A mask register other than `m0` is read once the vector stream has written it
(R345). -/
def vecAccess (i : Instr) (t m : BitVec 3) (ops : List (BitVec 5)) (store : Bool) (r : BitVec 5)
    (addr : Cx → Nat → Word) (st : State) : Host.Outcome State Fault Refusal :=
  let w := laneWidth t.toNat
  if st.vecTurn then vectorTurn (Cx.vecEffect w store r false) st
  else issue { meets := .beside ops none } i (fun _ => true) (fun x =>
    if x.c.maskDue m then .error .stall else
    let lanes := ((List.range (laneCount t.toNat)).filter (enabled (x.c.mask m.toNat))).map fun j =>
      (j, (addr x j).toNat)
    x.vecIssue i w store r none lanes .ok) st

/-- A gather or scatter, whose offsets the scalar stream takes from the vector stream when that has written them, or has done with
their queue (R345, R364). -/
def vecIndexed (i : Instr) (t m : BitVec 3) (store : Bool) (r a b : BitVec 5) (st : State) :
    Host.Outcome State Fault Refusal :=
  let w := laneWidth t.toNat
  let taken := store && (vecQueue b).isSome && r == b
  if st.vecTurn then vectorTurn (Cx.vecEffect w store r taken) st
  else issue { meets := .beside [a] none } i (fun _ => true) (fun x => do
    if x.c.maskDue m ∨ x.c.fieldDue b then .error .stall else
    let x := x.popRoom ((vecQueue b).toList ++ (if store then (vecQueue r).toList else []))
    let base := x.c.sreg a
    let (off, _) ← x.readV b
    let lanes := ((List.range (laneCount t.toNat)).filter (enabled (x.c.mask m.toNat))).map fun j =>
      (j, (base + BitVec.ofInt 64 (signed w (lane off w j))).toNat)
    x.vecIssue i w store r (if taken then some off else none) lanes (fun y => (y.readV b).map (·.2))) st

/-- `VLD` with an immediate in elements (R364, R365). -/
def execVld (t m : BitVec 3) (i : BitVec 9) (a d : BitVec 5) (s : State) : Host.Outcome State Fault Refusal :=
  vecAccess (.vld t m i a d) t m [a] false d (fun x j =>
    x.c.sreg a + imm i * BitVec.ofNat 64 (laneWidth t.toNat / 8) + BitVec.ofNat 64 (j * (laneWidth t.toNat / 8))) s

/-- `VST` with an immediate in elements (R364, R366). -/
def execVst (t m : BitVec 3) (i : BitVec 9) (a c : BitVec 5) (s : State) : Host.Outcome State Fault Refusal :=
  vecAccess (.vst t m i a c) t m [a] true c (fun x j =>
    x.c.sreg a + imm i * BitVec.ofNat 64 (laneWidth t.toNat / 8) + BitVec.ofNat 64 (j * (laneWidth t.toNat / 8))) s

/-- `VLDS`: a stride in bytes (R364). -/
def execVlds (t m : BitVec 3) (b a d : BitVec 5) (s : State) : Host.Outcome State Fault Refusal :=
  vecAccess (.vlds t m b a d) t m [a, b] false d (fun x j => x.c.sreg a + BitVec.ofNat 64 j * x.c.sreg b) s

/-- `VSTS`: a stride in bytes (R364). -/
def execVsts (t m : BitVec 3) (b a c : BitVec 5) (s : State) : Host.Outcome State Fault Refusal :=
  vecAccess (.vsts t m b a c) t m [a, b] true c (fun x j => x.c.sreg a + BitVec.ofNat 64 j * x.c.sreg b) s

/-- `VGATH`: offsets from a vector (R364). -/
def execVgath (t m : BitVec 3) (b a d : BitVec 5) (s : State) : Host.Outcome State Fault Refusal :=
  vecIndexed (.vgath t m b a d) t m false d a b s

/-- `VSCAT`: offsets from a vector (R364, R366). -/
def execVscat (t m : BitVec 3) (b a c : BitVec 5) (s : State) : Host.Outcome State Fault Refusal :=
  vecIndexed (.vscat t m b a c) t m true c a b s

/-- `VLD` with a register index in bytes (R364). -/
def execVldIndexed (t m : BitVec 3) (b a d : BitVec 5) (s : State) : Host.Outcome State Fault Refusal :=
  vecAccess (.vldIndexed t m b a d) t m [a, b] false d (fun x j =>
    x.c.sreg a + x.c.sreg b + BitVec.ofNat 64 (j * (laneWidth t.toNat / 8))) s

/-- `VST` with a register index in bytes (R364). -/
def execVstIndexed (t m : BitVec 3) (b a c : BitVec 5) (s : State) : Host.Outcome State Fault Refusal :=
  vecAccess (.vstIndexed t m b a c) t m [a, b] true c (fun x j =>
    x.c.sreg a + x.c.sreg b + BitVec.ofNat 64 (j * (laneWidth t.toNat / 8))) s

end Sys2Proof.Machine
end

