-- ==== Sys2Proof/Machine/Sync.lean ====
section
/-! DEFINITION. Atomics and lock bits, acquires, releases and fences: majors 0x38 and 0x39 (R148 to R156, R399 to R406), and
what the race tags say of an access (R166 to R169). -/

namespace Sys2Proof.Machine

/-! ## Memory operands of synchronizing instructions (R399) -/

/-- The tiers that an operand may lie in. -/
inductive Tiers where
  /-- `AMO`, `CAS`. -/
  | atomic
  /-- `LDLK`, `STUL`. -/
  | locks
  /-- `ACQ`, `REL`, `SCLD`, `SCST`, `WAIT` words. -/
  | words
  /-- Barrier objects and continuation records. -/
  | objects
  /-- Blocks and records of `SEND`, `LAUNCH`, pipes and `WAIT` lists. -/
  | blocks

/-- A place is one that an operand may lie in (R399). -/
def Tiers.accepts (t : Tiers) : Place → Bool
  | .home pa _ =>
    match t with
    | .atomic => tierOf pa == some 1 || tierOf pa == some 3 || tierOf pa == some 4 || tierOf pa == some 5
    | .locks => tierOf pa == some 1 || tierOf pa == some 3
    | .words => (tierOf pa).isSome || regionOf pa == 4 || regionOf pa == 5
    | .objects => tierOf pa == some 1 || tierOf pa == some 3 || tierOf pa == some 4
    | .blocks => (tierOf pa).isSome
  | .share _ =>
    match t with
    | .words => true
    | .blocks => true
    | _ => false
  | .inbox _ => false
  | .zero => true
  | .poison => true

/-- The home of a place. -/
def Place.homeAddr : Place → Option Nat
  | .home pa _ => some pa
  | _ => none

/-- The leaf of a place. -/
def Place.leaf : Place → Word
  | .home _ leaf => leaf
  | _ => 0

/-- A memory operand of `n` bytes, aligned to `al` (R399): its place; an operand in another tier raises the permission
trap. -/
def Cx.operand (x : Cx) (t : Tiers) (u : Use) (va n al : Nat) : Except Stop (Place × Cx) :=
  if va % al ≠ 0 then .error (.raise (x.trap 3 u.access (BitVec.ofNat 64 va) (BitVec.ofNat 64 n)))
  else if x.c.ordering then .error .stall
  else do
    let (p, x) ← x.translate u false va n
    if t.accepts p then .ok (p, x)
    else .error (.raise (x.trap 2 u.access (BitVec.ofNat 64 va) p.leaf))

/-- A synchronizing or atomic access to a checked line is checked against the writer entry only, and is not recorded (R169).
DEDUCED (35). -/
def Cx.raceCheck (x : Cx) (p : Place) (access va : Nat) : Except Stop Unit :=
  match p.checkedLine.bind (x.s.writerConflict x.slot) with
  | some d => .error (.raise (x.trap 6 access (BitVec.ofNat 64 (lineOf va)) d))
  | none => .ok ()

/-- The interval of an access to a checked line is a checked one (R163). -/
def Cx.marked (x : Cx) (p : Place) : Cx := if p.checkedLine.isSome then { x with c := x.c.checked } else x

/-- Committed changes stand, and the instruction is still to be done. -/
def Cx.stay (x : Cx) : Stop := .stay x.put

/-- As `stay`, in a wait that R63 counts. -/
def Cx.stayWaiting (x : Cx) : Stop := .stay { x with c := { x.c with stalled := true } }.put

/-- A line that the firing committed to a place's line has not arrived there (R400, R404). -/
def Cx.lineOwed (x : Cx) (p : Place) : Bool :=
  match p with
  | .home pa _ => x.s.inFlight x.c.uid pa
  | .share off => x.s.inFlight x.c.uid (shareBase + off)
  | _ => false

/-- `n` bytes at a place, read at the home once the region has committed, or what a release of the firing is still to write
there (R158); what a return-zero or return-poison page gives (R399). -/
def Cx.homeRead (x : Cx) (p : Place) (va n : Nat) : Nat :=
  match p with
  | .home pa _ => gatherBytes (x.coreByte ·) pa n
  | .share off => gatherBytes (x.coreByte ·) (shareBase + off) n
  | .poison => gatherBytes poisonByte va n
  | _ => 0

/-- pz for a poison page (R399). -/
def Cx.poisonFlag (x : Cx) (p : Place) : Cx :=
  if p = .poison then { x with c := x.c.setStatus (x.c.regs.status ||| 0x2000) } else x

/-- An instruction that has committed its region is done: the next region begins after it (R397). -/
def Cx.done (x : Cx) : Cx := (x.next 4).begin

/-! ## Atomics (R400 to R402) -/

/-- The size of an atomic's word (R307). -/
def amoSize (z : BitVec 1) : Nat := if z = 1 then 8 else 4

/-- An operation of the issuer becomes outstanding, with its destination still to receive the result (R398). -/
def Cx.outstanding (x : Cx) (kind : LoadKind) (home va : Nat) (d : BitVec 5) : Cx :=
  let id := x.s.nextId
  { x with
    s := { x.s with nextId := id + 1 }
    c := { x.c with
      regs := if d = 0 then x.c.regs else { x.c.regs with due := x.c.regs.due.insert d.toNat id }
      loads := x.c.loads ++ [{ id := id, vec := false, q := 0, cells := [], signed := true, reg := some d.toNat,
                               kind := kind, lines := [(lineOf home, lineOf va)]
                               stamps := x.s.stamp [lineOf home], epoch := x.s.epoch }] } }

/-- An access that writes a word at its home at once must wait there: for the firing's own lines and earlier operations on the
word, for its outstanding loads (R159), for what its tile or the firing has sent there before (R127, R145), or for the lock bit
of the line (R122). -/
def Cx.mustWait (x : Cx) (p : Place) (n : Nat) : Bool :=
  x.lineOwed p || x.behind p.key || !x.c.loads.isEmpty || (x.s.lockAt (lockOf p.key)).owner.isSome ||
    (List.range n).any fun i => (x.c.owedByte (p.key + i)).isSome

/-- `AMO` and `CAS` (op 9): b is the operand and c the comparand.  A plain one that must wait at its home, or that the
schedule has served later, is outstanding from here on, and only what names its destination waits for it (R398). -/
def atomic (i : Instr) (op : Nat) (sc z : BitVec 1) (scope : BitVec 4) (b a d : BitVec 5) (s : State) :
    Host.Outcome State Fault Refusal :=
  issue {} i (fun _ => true) (fun x => do
    let n := amoSize z
    let va := (x.c.sreg a).toNat
    let (p, x) ← x.operand .atomic .syncBoth va n n
    x.raceCheck p 1 va
    let x := x.marked p
    if sc = 1 then
      .ok (x.synchronize.pendOn (.atomic p.key n op (x.c.sreg b) (x.c.sreg d) d.toNat) scope.toNat true va)
    else
      let x := x.commit
      if x.s.late || x.mustWait p n then
        .ok (x.outstanding (.atomic p.key n op (x.c.sreg b) (x.c.sreg d)) p.key va d).done.put
      else
        let (t, old) := x.s.atomicAt x.c.uid p.key n op (x.c.sreg b) (x.c.sreg d)
        .ok ({ x with s := t, c := x.c.setS d (sextWord n old) }.done).put) s

def execAmoAdd (c z : BitVec 1) (s : BitVec 4) (b a d : BitVec 5) (st : State) : Host.Outcome State Fault Refusal :=
  atomic (.amoAdd c z s b a d) 0 c z s b a d st

def execAmoAnd (c z : BitVec 1) (s : BitVec 4) (b a d : BitVec 5) (st : State) : Host.Outcome State Fault Refusal :=
  atomic (.amoAnd c z s b a d) 1 c z s b a d st

def execAmoOr (c z : BitVec 1) (s : BitVec 4) (b a d : BitVec 5) (st : State) : Host.Outcome State Fault Refusal :=
  atomic (.amoOr c z s b a d) 2 c z s b a d st

def execAmoXor (c z : BitVec 1) (s : BitVec 4) (b a d : BitVec 5) (st : State) : Host.Outcome State Fault Refusal :=
  atomic (.amoXor c z s b a d) 3 c z s b a d st

def execAmoMin (c z : BitVec 1) (s : BitVec 4) (b a d : BitVec 5) (st : State) : Host.Outcome State Fault Refusal :=
  atomic (.amoMin c z s b a d) 4 c z s b a d st

def execAmoMax (c z : BitVec 1) (s : BitVec 4) (b a d : BitVec 5) (st : State) : Host.Outcome State Fault Refusal :=
  atomic (.amoMax c z s b a d) 5 c z s b a d st

def execAmoMinn (c z : BitVec 1) (s : BitVec 4) (b a d : BitVec 5) (st : State) : Host.Outcome State Fault Refusal :=
  atomic (.amoMinn c z s b a d) 6 c z s b a d st

def execAmoMaxn (c z : BitVec 1) (s : BitVec 4) (b a d : BitVec 5) (st : State) : Host.Outcome State Fault Refusal :=
  atomic (.amoMaxn c z s b a d) 7 c z s b a d st

def execAmoSwap (c z : BitVec 1) (s : BitVec 4) (b a d : BitVec 5) (st : State) : Host.Outcome State Fault Refusal :=
  atomic (.amoSwap c z s b a d) 8 c z s b a d st

/-- `CAS` (R401): the old value of F1 is the comparand. -/
def execCas (c z : BitVec 1) (s : BitVec 4) (b a d : BitVec 5) (st : State) : Host.Outcome State Fault Refusal :=
  atomic (.cas c z s b a d) 9 c z s b a d st

/-! ## Lock bits (R120, R121, R403) -/

/-- A misuse of a lock bit: the permission trap (R403). -/
def Cx.lockTrap (x : Cx) (access va : Nat) (leaf : Word) : Stop :=
  .raise (x.trap 2 access (BitVec.ofNat 64 va) leaf)

/-- The leaf by which the core or its tile translates an address. -/
def Cx.leafAt (x : Cx) (va : Nat) : Word :=
  let big := (x.s.coreAt x.core).pageBit va
  match tlbFind (x.s.coreAt x.core).tlb x.c.asn va big with
  | some e => e.leaf
  | none => ((tlbFind (x.s.tileAt (tileOf x.core)).tlb x.c.asn va big).map (·.leaf)).getD 0

/-- The operand of a lock instruction: a misuse is found after its translation and permission, and before what a page that is not
present does (R469). -/
def Cx.lockOperand (x : Cx) (u : Use) (va n : Nat) (misuse : Option Place → Bool) : Except Stop (Place × Cx) :=
  match x.operand .locks u va n n with
  | .error (.pageWait v a) => .error (if misuse none then x.lockTrap u.access va (x.leafAt va) else .pageWait v a)
  | .error (.raise t) =>
    .error (if t.cls = 11 ∧ misuse none then x.lockTrap u.access va (x.leafAt va) else .raise t)
  | .error e => .error e
  | .ok (p, y) =>
    match p with
    | .home .. => if misuse (some p) then .error (x.lockTrap u.access va p.leaf) else .ok (p, y)
    | _ => if misuse none then .error (x.lockTrap u.access va (x.leafAt va)) else .ok (p, y)

/-- The lock bit of a home is granted to a slot (R403). -/
def State.takeLock (s : State) (home slot inc : Nat) : State :=
  s.setLock (lockOf home) { s.lockAt (lockOf home) with owner := some (slot, inc) }

/-- The firing's `LDLK` has not been granted its lock bit. -/
def Ctx.locking (c : Ctx) : Bool := c.loads.any fun l => match l.kind with
  | .lock .. => true
  | _ => false

/-- `LDLK` (R121, R403): the lock bit is granted at once where it is clear and nothing waits before it; otherwise the request
waits at the bank, and only what names the destination waits for it (R398).  The access is one of an atomic for the race tags
(R169).  One behind an earlier `LDLK` that is not yet granted waits for it. DEDUCED (31). DEDUCED (73). DEDUCED (141).
DESIGN CHOICE (177). -/
def execLdlk (z : BitVec 1) (a d : BitVec 5) (s : State) : Host.Outcome State Fault Refusal :=
  issue {} (.ldlk z a d) (fun _ => true) (fun x => do
    let n := amoSize z
    let va := (x.c.sreg a).toNat
    if x.c.locking ∧ va % n = 0 then .error .waiting else
    let (p, x) ← x.lockOperand .syncRead va n (fun _ => x.c.lock.isSome)
    x.raceCheck p 0 va
    let x := (x.marked p).commit
    match p with
    | .home pa _ =>
      let k := x.s.lockAt (lockOf pa)
      if k.owner.isNone ∧ k.queue = [] ∧ (x.lineOwed p || x.c.awaits pa n || x.behind pa) = false then
        .ok ({ x with
          s := x.s.takeLock pa x.slot x.slotInc
          c := { x.c.setS d (sextWord n (x.homeRead p va n)) with lock := some (lockOf pa, va) } } : Cx).done.put
      else
        let x := x.outstanding (.lock (lockOf pa) pa va n) pa va d
        .ok { x with s := x.s.setLock (lockOf pa) { k with queue := k.queue ++ [x.c.uid] } }.done.put
    | _ =>
      let x := x.poisonFlag p
      .ok { x with c := x.c.setS d (sextWord n (x.homeRead p va n)) }.done.put) s

/-- `STUL` (R121, R403): it waits for the firing's lines and for its earlier accesses, but for those that wait for the very bit.
The access is one of an atomic for the race tags (R169). DEDUCED (141). DESIGN CHOICE (177). DESIGN CHOICE (178). -/
def execStul (z : BitVec 1) (b a : BitVec 5) (s : State) : Host.Outcome State Fault Refusal :=
  issue {} (.stul z b a) (fun _ => true) (fun x => do
    let n := amoSize z
    let va := (x.c.sreg a).toNat
    if x.c.locking ∧ va % n = 0 then .error .waiting else
    let held (p : Option Place) : Bool :=
      match p with
      | some p => x.c.lock.any (·.1 == lockOf p.key)
      | none => x.c.lock.any fun l => lineOf l.2 == lineOf va
    let (p, x) ← x.lockOperand .syncWrite va n (fun p => !held p)
    x.raceCheck p 1 va
    let l := lockOf p.key
    let x := x.commit
    if (x.s.flights.any fun f => f.origin.uid == x.c.uid) || x.c.loads.any (fun q => !x.c.stuck.contains q) ||
        x.behind p.key || (List.range n).any (fun i => (x.c.owedByte (p.key + i)).isSome) then .error x.stay
    else
      let x := x.marked p
      let s := x.s.writeMem 0 x.c.uid p.key n (x.c.sreg b).toNat
      let s := s.setLock l { s.lockAt l with owner := none }
      .ok { x with s := s, c := { x.c with lock := none } }.done.put) s

/-! ## Acquires, releases and fences (R404, R405) -/

/-- `ACQ`: a load at the home once the firing's own lines to that line have arrived (R404); the scalar stream waits with it.
DESIGN CHOICE (178). -/
def execAcq (z : BitVec 1) (s : BitVec 4) (a d : BitVec 5) (st : State) : Host.Outcome State Fault Refusal :=
  issue {} (.acq z s a d) (fun _ => true) (fun x => do
    let n := amoSize z
    let va := (x.c.sreg a).toNat
    let (p, x) ← x.operand .words .syncRead va n n
    x.raceCheck p 0 va
    let x := x.commit
    if x.lineOwed p || x.c.awaits p.code n || (p.homeAddr.any x.behind) then .error x.stay
    else
      let x := ((x.marked p).closeInterval).poisonFlag p
      .ok ({ x with c := x.c.setS d (sextWord n (x.homeRead p va n)) }.done.put.settle x.slot)) st

/-- `SCLD`: as `ACQ`, at its place in the order S (R156, R404). DEDUCED (27). -/
def execScld (z : BitVec 1) (s : BitVec 4) (a d : BitVec 5) (st : State) : Host.Outcome State Fault Refusal :=
  issue {} (.scld z s a d) (fun _ => true) (fun x => do
    let n := amoSize z
    let va := (x.c.sreg a).toNat
    let (p, x) ← x.operand .words .syncRead va n n
    x.raceCheck p 0 va
    let x := (x.marked p).synchronize
    match p with
    | .home pa _ => .ok (x.pendOn (.load pa n d.toNat) s.toNat true va)
    | .share off => .ok (x.pendOn (.load (shareBase + off) n d.toNat) s.toNat true va)
    | _ => .ok ((x.poisonFlag p).pendOn (.fixed (sextWord n (x.homeRead p va n)) d.toNat) s.toNat true)) st

/-- A release store: its write is performed when the release completes (R154, R404). -/
def releaseStore (i : Instr) (sc : Bool) (z : BitVec 1) (s : BitVec 4) (b a : BitVec 5) (st : State) :
    Host.Outcome State Fault Refusal :=
  issue {} i (fun _ => true) (fun x => do
    let n := amoSize z
    let va := (x.c.sreg a).toNat
    let (p, x) ← x.operand .words .syncWrite va n n
    x.raceCheck p 1 va
    let v := x.c.sreg b
    .ok (((x.marked p).synchronize.done).pendOn (.write p.key n v) s.toNat sc)) st

/-- `REL` (R404). -/
def execRel (z : BitVec 1) (s : BitVec 4) (b a : BitVec 5) (st : State) : Host.Outcome State Fault Refusal :=
  releaseStore (.rel z s b a) false z s b a st

/-- `SCST` (R404): its announcement, or the tile's ordering point, gives it its place in S. -/
def execScst (z : BitVec 1) (s : BitVec 4) (b a : BitVec 5) (st : State) : Host.Outcome State Fault Refusal :=
  releaseStore (.scst z s b a) true z s b a st

/-- A fence: a marker enters the injection queue (R133), and nothing later issues before it completes (R405).
DEDUCED (20). -/
def fenceOn (i : Instr) (s : BitVec 4) (p q : Nat) (st : State) : Host.Outcome State Fault Refusal :=
  issue {} i (fun _ => true) (fun x =>
    if !x.s.injRoom (tileOf x.core) then .error .stall
    else
      let x := x.synchronize
      .ok ({ x with s := x.s.injectFence (tileOf x.core) }.pendOn (.fence p q) s.toNat true)) st

/-- `FENCE` (R405). -/
def execFence (s : BitVec 4) (st : State) : Host.Outcome State Fault Refusal := fenceOn (.fence s) s 0 0 st

/-- `FENCE.P` (R175, R405). -/
def execFenceP (s : BitVec 4) (q p : BitVec 5) (st : State) : Host.Outcome State Fault Refusal :=
  fenceOn (.fenceP s q p) s p.toNat q.toNat st

/-- `CMT` (R406): it ends the region and does nothing else. -/
def execCmt (st : State) : Host.Outcome State Fault Refusal :=
  issueOn {} .cmt (fun x => .ok x.commit.done) st

/-- `TRIG` (R55, R406): a release at package scope. -/
def execTrig (st : State) : Host.Outcome State Fault Refusal :=
  issue {} .trig (fun _ => true) (fun x => .ok (x.synchronize.done.pendOn .trig 6)) st

end Sys2Proof.Machine
end

