-- ==== Sys2Proof/Machine/Wait.lean ====
section
/-! DEFINITION. `WAIT`: its conditions, their evaluation, and its completion: major 0x3A (R56, R57, R407 to R409). -/

namespace Sys2Proof.Machine

/-! ## Pipes as a condition sees them (R43, R44) -/

/-- The key of a firing's pipe: in a gang launch, each instance has its own copies (R43). -/
def Launch.pipeKey (l : Launch) (c : Ctx) (p : Nat) : Nat := if l.gang then c.wid.toNat * 32 + p else p

/-- The records that a pipe holds, reserved ones included (R407). -/
def Launch.level (l : Launch) (key : Nat) : Nat := (l.records.get key []).length + l.reservedCount.get key 0

/-- A pipe number at or above pipe_count (R419). -/
def Cx.pipeTrap (x : Cx) (p : Nat) : Stop := .raise (x.trap 2 3 x.c.pc (BitVec.ofNat 64 p))

/-! ## Evaluation -/

/-- A comparison of an n-byte word with a value (R407, R408): 0 eq, 1 ne, 2 lt, 3 ge, 4 ltn, 5 gen. -/
def memHolds (op n v b : Nat) : Bool :=
  let v := v % 256 ^ n
  let b := b % 256 ^ n
  match op with
  | 0 => v == b
  | 1 => v != b
  | 2 => decide (signed (8 * n) v < signed (8 * n) b)
  | 3 => decide (signed (8 * n) b ≤ signed (8 * n) v)
  | 4 => decide (v < b)
  | _ => decide (b ≤ v)

/-- Every handle of the launch's producer list names a launch that has completed, or that has created all of its work
firings, each of which has executed `TRIG` or `FIN` (R54).  The list holds none that has completed. -/
def State.producersDone (s : State) (l : Launch) : Bool :=
  !l.dependent || l.producers.all fun h =>
    match s.launchOf (h % 2 ^ 13) (h / 2 ^ 13) with
    | some p => p.admitted && p.made == p.work && p.triggered == p.work
    | none => true

/-- The word that a memory condition reads: what the firing has committed and is still on its way to its home (R158, R409), and
otherwise the home's; `bank` for a counter, which its bank holds (R173). -/
def State.condWord (s : State) (k : Nat) (c : Ctx) (bank : Bool) (home n : Nat) : Nat :=
  let x : Cx := { s := s, who := .slot k, c := c }
  gatherBytes (fun a => (x.onWay a).getD (if bank then s.byteAt a else x.coreByte a)) home n

/-- A condition holds for the firing in a slot (R56, R407 to R409). -/
def State.condHolds (s : State) (k : Nat) (c : Ctx) (w : WaitCond) : Bool :=
  let l := s.launchOf c.launch c.gen
  match w.kind with
  | 1 =>
    let n := if w.size = 0 then 4 else 8
    memHolds w.op n ((w.fixed.map fun f => f.toNat / 256 ^ (w.va % 8)).getD (s.condWord k c false w.home n)) w.value
  | 2 => w.fixed.isSome || decide (s.condWord k c true w.home 8 ≤ s.condWord k c true (w.home + 8) 8)
  | 3 => (l.map fun l => decide (w.value ≤ l.level (l.pipeKey c w.va))).getD false
  | 4 => ((w.fixed.map (·.toNat)).getD (s.condWord k c true (w.home + 0x10) 4)) == 0
  | 5 => (s.coreAt (coreOf k)).evq.any (·.uid == c.uid)
  | 6 => c.notice != 0
  | _ => (l.map s.producersDone).getD true

/-- The operand of a memory condition: its tiers, size and alignment (R399, R408). -/
def WaitCond.operand (w : WaitCond) : Tiers × Nat × Nat :=
  match w.kind with
  | 1 => (.words, if w.size = 0 then 4 else 8, if w.size = 0 then 4 else 8)
  | 2 => (.objects, 16, 16)
  | _ => (.objects, 32, 32)

/-- A condition names memory. -/
def WaitCond.isMemory (w : WaitCond) : Bool := w.kind == 1 || w.kind == 2 || w.kind == 4

/-- A condition with the place of its operand. DEDUCED (40). -/
def WaitCond.placed (w : WaitCond) (p : Place) : WaitCond :=
  match p with
  | .home pa leaf => { w with home := pa, checked := bit leaf 8, parked := false }
  | .share off => { w with home := shareBase + off, parked := false }
  | .poison => { w with fixed := some 0xDEADBEEFDEADBEEF, parked := false }
  | _ => { w with fixed := some 0, parked := false }

/-- A parked condition once its page is resident; as it was, while it is not. DEDUCED (40). -/
def Cx.unparked (x : Cx) (w : WaitCond) : WaitCond :=
  if !w.parked then w
  else
    let (t, n, al) := w.operand
    match x.operand t .syncRead w.va n al with
    | .ok (p, _) => w.placed p
    | .error _ => w

/-- The bytes that a memory condition reads from its operand's home on. -/
def WaitCond.span (w : WaitCond) : Nat := w.operand.2.1

/-- The word of a condition can be read at its home: the firing's outstanding accesses to the same bytes are performed (R160), what
its tile or it has sent there before has arrived (R127, R145), and a port leads there (R29).  Until then the condition is not seen
to hold, and the others are evaluated. DEDUCED (156). -/
def State.condReady (s : State) (k : Nat) (c : Ctx) (w : WaitCond) : Bool :=
  !w.isMemory || w.fixed.isSome || (!c.awaits w.home w.span && (decide (shareBase ≤ w.home) ||
    (!s.cutOff w.home && !s.sentBefore (tileOf (coreOf k)) (s.homeNode w.home) && !s.peerBefore c w.home s.nextId)))

/-- The result bits of an evaluation (R409), or the trap of a conflicting checked word (R169) or of an uncorrectable line (R484). -/
def State.waitBits (s : State) (k : Nat) (c : Ctx) (w : WaitState) : Except Trap Nat :=
  let x : Cx := { s := s, who := .slot k, c := c }
  let conds := w.conds.map x.unparked
  let ready (d : WaitCond) : Bool := !d.parked && s.condReady k c d
  let race (d : WaitCond) : Option Trap :=
    if d.kind = 1 ∧ d.checked then
      (s.writerConflict k (lineOf d.home)).map fun e => x.trap 6 0 (BitVec.ofNat 64 (lineOf d.va)) e
    else none
  let struck (d : WaitCond) : Option Trap :=
    if d.isMemory ∧ d.fixed.isNone ∧ s.badLines.contains (wordLine k d.home) then
      some (x.trap 9 0 (BitVec.ofNat 64 (lineOf d.va)) (BitVec.ofNat 64 (wordLine k d.home + (tierOf d.home).getD 0)))
    else none
  let conflict := (conds.filter ready).findSome? fun d => (race d).orElse fun _ => struck d
  match conflict with
  | some t => .error t
  | none =>
    .ok (((List.range conds.length).map fun i =>
      match conds[i]? with
      | some d => if ready d && s.condHolds k c d then 2 ^ i else 0
      | none => 0).sum)

/-- The combination holds (R409). -/
def WaitState.met (w : WaitState) (bits : Nat) : Bool :=
  if w.any then bits != 0 else bits == 2 ^ w.conds.length - 1

/-- A wait completes with its result (R409). -/
def Ctx.waited (c : Ctx) (w : WaitState) (v time : Nat) : Ctx :=
  (c.setS (BitVec.ofNat 5 w.rd) (BitVec.ofNat 64 v)).resume time

/-- What becomes of a wait whose result bits are known, if anything: it completes if the combination holds, and otherwise, at its
timeout, with bit 8 or by the timeout trap with the bits it would have returned (R57, R409).  Then the context is stopped by the
trap. DEDUCED (89). -/
def Ctx.waitWith (c : Ctx) (w : WaitState) (bits time : Nat) : Option (Ctx × Option Trap) :=
  if w.met bits then some (c.waited w bits time, none)
  else if w.deadline.any fun t => decide (t ≤ time) then
    if w.trap then
      some ({ c.resume time with pc := c.pc }, some
        { cls := 12, async := false, access := 3, subcode := 0, addr := c.pc, detail := BitVec.ofNat 64 (bits + 256),
          resume := c.pc + 4, disposition := 0 })
    else some (c.waited w (bits + 256) time, none)
  else none

/-- An evaluation of a wait (R57, R409). -/
def State.waitOutcome (s : State) (k : Nat) (c : Ctx) (w : WaitState) : Option (Ctx × Option Trap) :=
  match s.waitBits k c w with
  | .error t => some (c, some t)
  | .ok bits => c.waitWith w bits s.time

/-- An evaluation of the wait of a slot. -/
def State.evaluate (s : State) (k : Nat) : State :=
  match (s.slotAt k).ctx with
  | none => s
  | some c =>
    match c.st with
    | .waiting w =>
      match s.waitOutcome k c w with
      | none => s
      | some (d, none) => s.putCtx (.slot k) d
      | some (d, some t) => s.takeTrap (.slot k) d t
    | _ => s

/-- An evaluation of the wait of a firing that holds no slot: its trap joins the queue once it has one (R57, R451). -/
def State.evaluateParked (s : State) (c : Ctx) : Ctx :=
  match c.st with
  | .waiting w =>
    match s.waitOutcome 65536 c w with
    | none => c
    | some (d, none) => d
    | some (d, some t) =>
      let inside := match d.st with
        | .waiting v => some v
        | _ => none
      { d with st := .trapped t inside }
  | _ => c

/-- Every wait is evaluated: after each step, since the step may have changed what a wait watches, and before it, since a
timeout may have expired meanwhile (R57).  In a freeze no wait goes on (R69). -/
def State.wake (s : State) : State :=
  if s.halted then s
  else
    let s := s.slots.foldl (fun s e =>
      match e.2.ctx with
      | some c => match c.st with
        | .waiting _ => s.evaluate e.1
        | _ => s
      | none => s) s
    { s with ready := s.ready.map fun r => { r with ctx := r.ctx.map s.evaluateParked } }

/-- A wait begins, with its first evaluation (R408, R409); its firing is no peer of a realign wait (R339).  A word of a checked
page makes the interval that it closes a checked one (R163). -/
def Cx.wait (x : Cx) (w : WaitState) : State :=
  let x := if w.conds.any fun d => d.isMemory && d.checked then { x with c := x.c.checked } else x
  let x := x.synchronize
  ((({ x with c := { x.c with st := .waiting w } }.put).evaluate x.slot).settle x.slot).realignTest (tileOf x.core)

/-! ## The instructions -/

/-- A wait on one inline condition (R407). -/
def waitInline (i : Instr) (any : BitVec 1) (scope : BitVec 4) (d : BitVec 5) (cond : Cx → Except Stop (WaitCond × Cx))
    (s : State) : Host.Outcome State Fault Refusal :=
  issue {} i (fun _ => true) (fun x => do
    let (c, x) ← cond x
    .ok (x.wait { conds := [c], any := any == 1, scope := scope.toNat, deadline := none, trap := false, rd := d.toNat })) s

/-- A memory condition written inline (R399, R407). -/
def Cx.inlineCond (x : Cx) (w : WaitCond) : Except Stop (WaitCond × Cx) := do
  let (t, n, al) := w.operand
  let (p, x) ← x.operand t .syncRead w.va n al
  x.raceCheck p 0 w.va
  .ok (w.placed p, x.poisonFlag p)

/-- Where a stop stands in the order in which one instruction reports its conditions: alignment, translation, permission, then what
comes after them (R469).  An answer that is still awaited may be that no translation exists. -/
def Stop.rank : Stop → Nat
  | .raise t => if t.cls = 3 then 0 else if t.cls ≤ 2 then t.cls else 3
  | .miss .. => 1
  | _ => 3

/-- The places of pieces of `size` bytes, aligned to it, at addresses, each with its address, in order. -/
def Cx.pieces (x : Cx) (u : Use) (size : Nat) : List Nat → Except Stop (List (Place × Nat) × Cx)
  | [] => .ok ([], x)
  | va :: vas => do
    let (p, x) ← x.operand .blocks u va size size
    let (l, x) ← x.pieces u size vas
    .ok ((p, va) :: l, x)

/-- Of the stops that pieces meet, the first of lowest rank (R469). -/
def Cx.firstStop (x : Cx) (u : Use) (size : Nat) (vas : List Nat) (e : Stop) : Stop :=
  vas.foldl (fun e va =>
    match x.operand .blocks u va size size with
    | .error e' => if e'.rank < e.rank then e' else e
    | .ok _ => e) e

/-- The places of the pieces of a block, which are translated before anything of the block is checked for a race (R399, R469): what
one piece meets is reported before what another meets that stands later in the order of R469. -/
def Cx.placesAt (x : Cx) (u : Use) (size : Nat) (vas : List Nat) : Except Stop (List (Place × Nat) × Cx) :=
  match x.pieces u size vas with
  | .ok r => .ok r
  | .error e => .error (x.firstStop u size vas e)

/-- The places of `n` pieces that follow each other. -/
def Cx.places (x : Cx) (u : Use) (size va n : Nat) : Except Stop (List (Place × Nat) × Cx) :=
  x.placesAt u size ((List.range n).map fun i => va + size * i)

/-- A block waits to be read: for the firing's own lines, and for what is sent before to its home (R127, R145, R158). -/
def Cx.blockWaits (x : Cx) (ps : List (Place × Nat)) : Bool := ps.any fun q => x.lineOwed q.1 || q.1.homeAddr.any x.behind

/-- The bytes of a block at places, the firing's own buffered stores included (R158, R408, R410). -/
def Cx.placeBytes (x : Cx) (size : Nat) (ps : List (Place × Nat)) : List Byte :=
  ps.flatMap fun q => (List.range size).map fun i =>
    match q.1 with
    | .home pa _ => x.coreByte (pa + i)
    | .share off => x.coreByte (shareBase + off + i)
    | .poison => poisonByte (q.2 + i)
    | _ => 0

/-- The race checks of a block that is read at issue, and what reading it leaves: pz and a checked interval (R163, R169, R399). -/
def Cx.readPlaces (x : Cx) (ps : List (Place × Nat)) : Except Stop Cx := do
  let _ ← ps.mapM fun q => x.raceCheck q.1 0 q.2
  .ok (ps.foldl (fun x q => (x.marked q.1).poisonFlag q.1) x)

/-- Condition `i` of a block is within its ranges (R408). -/
def condOk (b : List Byte) (pipes : Nat) : Bool :=
  let f := listNat b
  let kind := f 0 1
  let mem := kind == 1
  decide (1 ≤ kind) && decide (kind ≤ 7) && (if mem then decide (f 1 1 ≤ 5) && decide (f 2 1 ≤ 1) else f 1 2 == 0) &&
    f 3 5 == 0 && f 0x18 8 == 0 &&
    (if kind = 3 then decide (f 8 8 < pipes) && decide (f 8 8 < 32) && decide (1 ≤ f 0x10 8) && decide (f 0x10 8 ≤ 4096)
      else if mem then true
      else f 0x10 8 == 0 && (kind == 2 || kind == 4 || f 8 8 == 0))

/-- A condition of a block, as written. -/
def condOf (b : List Byte) : WaitCond :=
  { kind := listNat b 0 1, op := listNat b 1 1, size := listNat b 2 1, va := listNat b 8 8, home := 2 ^ 60,
    value := listNat b 0x10 8 }

/-- The operand of a block's condition: none where the block is refused (R408). -/
def Cx.blockCond (x : Cx) (w : WaitCond) : Except Stop (Option WaitCond × Cx) :=
  if !w.isMemory then .ok (some w, x)
  else
    let (t, n, al) := w.operand
    match x.operand t .syncRead w.va n al with
    | .ok (p, x) => .ok (some (w.placed p), x.poisonFlag p)
    | .error (.pageWait ..) => .ok (some { w with parked := true }, x)
    | .error (.raise t) => if t.cls ≤ 3 then .ok (none, x) else .error (.raise t)
    | .error e => .error e

/-- The conditions of a block, each of 32 bytes, none where it is refused. -/
def Cx.blockConds (x : Cx) (pipes : Nat) (b : List Byte) : Nat → Except Stop (Option (List WaitCond) × Cx)
  | 0 => .ok (some [], x)
  | n + 1 => do
    let h := b.take 32
    if !condOk h pipes then .ok (none, x) else
    let (w, x) ← x.blockCond (condOf h)
    match w with
    | none => .ok (none, x)
    | some w =>
      let (ws, x) ← x.blockConds pipes (b.drop 32) n
      .ok (ws.map (w :: ·), x)

/-- A refused block completes at once, and is no acquire (R408). -/
def Cx.refuseWait (x : Cx) (d : BitVec 5) : State :=
  let x := x.commit
  { x with c := x.c.setS d 0x200 }.done.put

/-- `WAIT` on a condition block (R408). -/
def execWaitList (c : BitVec 1) (s : BitVec 4) (a d : BitVec 5) (st : State) : Host.Outcome State Fault Refusal :=
  issue {} (.waitList c s a d) (fun _ => true) (fun x => do
    let va := (x.c.sreg a).toNat
    let (hp, x) ← x.places .syncRead 32 va 1
    if x.blockWaits hp then .error .stall else
    let h := x.placeBytes 32 hp
    let count := listNat h 8 1
    let ok := decide (1 ≤ count) && decide (count ≤ 4) && decide (listNat h 9 1 ≤ 1) && listNat h 0x0A 22 == 0
    let (cp, x) ← x.places .syncRead 32 (va + 32) (if ok then count else 0)
    if x.blockWaits cp then .error .stall else
    let x ← x.readPlaces (hp ++ cp)
    if !ok then .ok (x.refuseWait d) else
    let pipes := ((x.s.launchOf x.c.launch x.c.gen).map (·.pipes.length)).getD 0
    let (ws, x) ← x.blockConds pipes (x.placeBytes 32 cp) count
    match ws with
    | none => .ok (x.refuseWait d)
    | some ws =>
      let t := listNat h 0 8
      .ok (x.wait { conds := ws, any := c == 1, scope := s.toNat, deadline := if t = 0 then none else some (x.s.time + t),
                    trap := listNat h 9 1 == 1, rd := d.toNat })) st

/-- `WAIT` on a barrier object (R407). -/
def execWaitBar (c : BitVec 1) (s : BitVec 4) (a d : BitVec 5) (st : State) : Host.Outcome State Fault Refusal :=
  waitInline (.waitBar c s a d) c s d (fun x =>
    x.inlineCond { kind := 2, op := 0, size := 0, va := (x.c.sreg a).toNat, home := 2 ^ 60, value := 0 }) st

/-- `WAIT` on a pipe's level (R407, R419). -/
def execWaitPipe (c : BitVec 1) (s : BitVec 4) (b a d : BitVec 5) (st : State) : Host.Outcome State Fault Refusal :=
  waitInline (.waitPipe c s b a d) c s d (fun x =>
    let p := (x.c.sreg a).toNat
    match x.s.launchOf x.c.launch x.c.gen with
    | some l =>
      if l.pipes.length ≤ p then .error (x.pipeTrap p)
      else .ok ({ kind := 3, op := 0, size := 0, va := p, home := 2 ^ 60, value := (x.c.sreg b).toNat }, x)
    | none => .error (x.pipeTrap p)) st

/-- `WAIT` on a join counter (R407). -/
def execWaitJoin (c : BitVec 1) (s : BitVec 4) (a d : BitVec 5) (st : State) : Host.Outcome State Fault Refusal :=
  waitInline (.waitJoin c s a d) c s d (fun x =>
    x.inlineCond { kind := 4, op := 0, size := 0, va := (x.c.sreg a).toNat, home := 2 ^ 60, value := 0 }) st

/-- A condition without operands. -/
def plainCond (kind : Nat) (x : Cx) : Except Stop (WaitCond × Cx) :=
  .ok ({ kind := kind, op := 0, size := 0, va := 0, home := 2 ^ 60, value := 0 }, x)

/-- `WAIT` on the event queue (R407). -/
def execWaitEvq (c : BitVec 1) (s : BitVec 4) (d : BitVec 5) (st : State) : Host.Outcome State Fault Refusal :=
  waitInline (.waitEvq c s d) c s d (plainCond 5) st

/-- `WAIT` on a notice (R407). -/
def execWaitNotice (c : BitVec 1) (s : BitVec 4) (d : BitVec 5) (st : State) : Host.Outcome State Fault Refusal :=
  waitInline (.waitNotice c s d) c s d (plainCond 6) st

/-- `WAIT` on the producers (R54, R407). -/
def execWaitProd (c : BitVec 1) (s : BitVec 4) (d : BitVec 5) (st : State) : Host.Outcome State Fault Refusal :=
  waitInline (.waitProd c s d) c s d (plainCond 7) st

/-- `WAIT` on a memory word (R407): `z` set compares 8 bytes. -/
def execWaitMem (z : BitVec 1) (o : BitVec 3) (c : BitVec 1) (s : BitVec 4) (b a d : BitVec 5) (st : State) :
    Host.Outcome State Fault Refusal :=
  waitInline (.waitMem z o c s b a d) c s d (fun x =>
    x.inlineCond { kind := 1, op := o.toNat, size := z.toNat, va := (x.c.sreg a).toNat, home := 2 ^ 60,
                   value := (x.c.sreg b).toNat }) st

end Sys2Proof.Machine
end

