-- ==== Sys2Proof/Machine/Tasks.lean ====
section
/-! DEFINITION. Messages, continuations, launches, pipes, migration, leases, roles and boost leases: major 0x3B (R410 to
R424). -/

namespace Sys2Proof.Machine

/-! ## Messages -/

/-- A header as a packet of the firing (R130, R410). -/
def Cx.packetOf (x : Cx) (h payload : List Byte) (scope : Nat) : Packet :=
  let f := listNat h
  { opcode := f 0 1, flags := f 1 1, len := f 2 2, node := f 4 2 % 2048, agent := f 4 2 / 2048, tslot := f 6 2,
    tinc := f 8 1, sslot := x.slot % 65536, sinc := x.slotInc, stamp := 0, reply := f 0x10 8, op0 := f 0x18 8,
    op1 := f 0x20 8, aux := f 0x28 8, payload := payload, origin := x.origin, scope := scope }

/-- The local status of a `SEND` (R410): 0 SENT, 1 BADDEST, 2 BADLEN, which goes first. -/
def sendStatus (h : List Byte) : Nat :=
  let f := listNat h
  let node := f 4 2 % 2048
  let agent := f 4 2 / 2048
  if 256 < f 2 2 ∨ 128 ≤ f 1 1 ∨ f 9 1 ≠ 0 then 2
  else if 1358 ≤ node ∨ 15 ≤ agent ∨ agent = 13 then 1
  else if agent ≤ 7 ∧ f 6 2 ≠ 0 ∧ (1024 ≤ node ∨ coreOf (f 6 2) ≠ coreBase node + agent) then 1
  else if agent = 14 ∧ f 0 1 ≠ 0x11 ∧ f 0 1 ≠ 0x12 then 1
  else 0

/-- `SEND` (R410): the message enters the injection queue when the release completes. -/
def execSend (s : BitVec 4) (a d : BitVec 5) (st : State) : Host.Outcome State Fault Refusal :=
  issue {} (.send s a d) (fun _ => true) (fun x => do
    let va := (x.c.sreg a).toNat
    let (hp, x) ← x.places .syncRead 16 va 3
    if x.blockWaits hp then .error .stall else
    let h := x.placeBytes 16 hp
    let len := listNat h 2 2
    let (pp, x) ← x.places .syncRead 16 (va + 48) (if len ≤ 256 then (len + 15) / 16 else 0)
    if x.blockWaits pp then .error .stall else
    let x ← x.readPlaces (hp ++ pp)
    let status := sendStatus h
    let m := x.packetOf h ((x.placeBytes 16 pp).take len) s.toNat
    let x := ({ x with s := { x.s with nextId := x.s.nextId + 1 } } : Cx).synchronize
    let x := { x with c := x.c.setS d (BitVec.ofNat 64 status) }.done
    .ok (if status = 0 then x.pendOn (.send m) s.toNat else x.put.settle x.slot)) st

/-- `HTAG` (R411). -/
def execHtag (a : BitVec 5) (t : BitVec 4) (st : State) : Host.Outcome State Fault Refusal :=
  issueOn { meets := .beside [a] none } (.htag a t) (fun x =>
    let w := x.c.sreg a
    let k := x.s.coreAt x.core
    let kind := ((x.s.launchOf x.c.launch x.c.gen).bind (·.actors[field w 0 4]?)).map (·.kind)
    let valid := bit w 7 && field w 8 56 == 0 && kind == some 2
    let routes :=
      if t = 0 then k.routes
      else if valid then k.routes.insert t.toNat
        { launch := x.c.launch, gen := x.c.gen, actor := field w 0 4, hprio := field w 4 3 }
      else k.routes.erase t.toNat
    .ok ({ x with s := x.s.setCore x.core { k with routes := routes } }.next 4)) st

/-! ## Continuations and launches -/

/-- `SPAWN` (R48, R412): a record whose counter is zero or below is ready at once, as a release at district scope.
DESIGN CHOICE (178). -/
def execSpawn (a : BitVec 5) (st : State) : Host.Outcome State Fault Refusal :=
  issue {} (.spawn a) (fun _ => true) (fun x => do
    let va := (x.c.sreg a).toNat
    let (p, x) ← x.operand .objects .syncRead va 32 32
    x.raceCheck p 0 va
    let x := ((x.poisonFlag p).marked p).commit
    if x.lineOwed p || x.c.awaits p.key 32 || p.homeAddr.any x.behind then .error x.stay
    else
      let counter := signed 32 (match p with
        | .home pa _ => gatherBytes (fun a => (x.onWay a).getD (x.s.byteAt a)) (pa + 0x10) 4
        | _ => listNat ((List.range 32).map fun i => BitVec.ofNat 8 (x.homeRead p (va + i) 1)) 0x10 4)
      let id := x.s.nextId
      let r : Cont :=
        { id := id, district := districtOf x.core, home := p.key, va := va, launch := x.c.launch, gen := x.c.gen,
          fixed := match p with
            | .zero => some 0
            | .poison => some 0xDEADBEEFDEADBEEF
            | _ => none }
      let x := { x with s := { x.s with conts := x.s.conts ++ [r], nextId := id + 1 } }
      if counter ≤ 0 then .ok (x.closeInterval.done.pendOn (.spawn id) 4) else .ok x.done.put) st

/-- `JOIN` (R413). -/
def execJoin (s : BitVec 4) (a : BitVec 5) (st : State) : Host.Outcome State Fault Refusal :=
  issue {} (.join s a) (fun _ => true) (fun x => do
    let va := (x.c.sreg a).toNat
    let (p, x) ← x.operand .objects .syncBoth va 32 32
    x.raceCheck p 1 va
    .ok ((x.marked p).synchronize.done.pendOn (.join p.key va) s.toNat)) st

/-- `LAUNCH` (R51, R414, R505): the header is checked at issue and read when the release conditions hold; only what names the
pair of destinations waits for the result (R398). -/
def execLaunch (s : BitVec 4) (a d : BitVec 5) (st : State) : Host.Outcome State Fault Refusal :=
  issue {} (.launch s a d) (fun _ => true) (fun x => do
    let va := (x.c.sreg a).toNat
    let (ps, x) ← x.placesAt .syncRead 8 [va, va + 64, va + 120]
    let x ← x.readPlaces ps
    let x := x.synchronize
    let id := x.s.nextId
    let pair := if d = 0 then [] else if d = 31 then [31] else [d.toNat, d.toNat + 1]
    let due := pair.foldl (fun m r => m.insert r id) x.c.regs.due
    let x : Cx := { x with
      s := { x.s with nextId := id + 1 }
      c := { x.c with regs := { x.c.regs with due := due } } }
    .ok (x.done.pendOn (.launch va d.toNat id) s.toNat)) st

/-- `WID` (R39, R415). -/
def execWid (i d : BitVec 5) (st : State) : Host.Outcome State Fault Refusal :=
  issueOn { meets := .beside [d] none } (.wid i d) (fun x =>
    let v := match x.s.launchOf x.c.launch x.c.gen with
      | some l => if i.toNat < l.fields then widField l.widths x.c.wid.toNat i.toNat else 0
      | none => 0
    .ok ({ x with c := x.c.setS d (BitVec.ofNat 64 v) }.next 4)) st

/-! ## Pipes (R416 to R419) -/

/-- A pipe number out of range traps (R419), after what the translation of the instruction's record finds (R469). -/
def Cx.noPipe (x : Cx) (p : Nat) (use : Option Use) (va : Nat) : Stop :=
  match use.map fun u => x.operand .blocks u va 16 16 with
  | some (.error (.miss v a)) => .miss v a
  | some (.error (.raise t)) => if t.cls = 1 then .raise t else x.pipeTrap p
  | _ => x.pipeTrap p

/-- Where a pipe of a launch lies (R43, R76): a home-0 pipe in quad store p mod 2 of its home tile, which for a gang instance is the
instance's tile, and a home-1 pipe in the storage window at its offset; none for one that a recast has taken to tier 4 (R90).  How
its records lie there the manual does not say. DESIGN CHOICE (137). DESIGN CHOICE (159). -/
def State.pipePlace (s : State) (l : Launch) (c : Ctx) (p : Nat) (e : Pipe) : Option Nat :=
  if e.home = 1 then (s.windows.find? (·.asn == l.asn)).map fun w => 0x6000000000000 + w.id * 2 ^ 33 + e.offset
  else if l.away.contains (l.pipeKey c p) then none
  else (l.binds.get? (if l.gang then c.place else p % Nat.max l.tiles 1)).map fun t => quadBase t (p % 2)

/-- The home of a pipe is a page that is being migrated: accesses to it wait (R179). -/
def State.pipeHeld (s : State) (l : Launch) (c : Ctx) (p : Nat) (e : Pipe) : Bool :=
  (s.pipePlace l c p e).any fun a => (List.range (e.recSize * e.depth / 1024 + 1)).any fun i => s.migrating (a + 1024 * i)

/-- The pipe that a pipe instruction names: its launch, entry and key; `use` is how it uses a record at `va`, which is
aligned. -/
def Cx.pipe (x : Cx) (p : BitVec 5) (use : Option Use) (va : Nat) : Except Stop (Launch × Pipe × Nat) :=
  if va % 16 ≠ 0 then .error (.raise (x.trap 3 ((use.map (·.access)).getD 3) (BitVec.ofNat 64 va) 16))
  else
    match x.s.launchOf x.c.launch x.c.gen with
    | none => .error (x.noPipe p.toNat use va)
    | some l =>
      match l.pipes[p.toNat]? with
      | some e => if x.s.pipeHeld l x.c p.toNat e then .error .stall else .ok (l, e, l.pipeKey x.c p.toNat)
      | none => .error (x.noPipe p.toNat use va)

/-- A record to be pushed, read at issue in pieces of 16 bytes: plain loads, whose checked lines are recorded (R148, R167). -/
def Cx.readRecord (x : Cx) (va n : Nat) : Except Stop (Rec × Cx) := do
  let (ps, x) ← x.places .syncRead 16 va n
  if x.blockWaits ps then .error .stall else
  let x ← x.checkLines (ps.flatMap fun q => q.1.checkedLine.toList.map (·, lineOf q.2)) false
  .ok (x.placeBytes 16 ps, ps.foldl (fun x q => x.poisonFlag q.1) x)

/-- `PPUSH` (R44, R416). -/
def execPpush (a p : BitVec 5) (st : State) : Host.Outcome State Fault Refusal :=
  issue {} (.ppush a p) (fun _ => true) (fun x => do
    let va := (x.c.sreg a).toNat
    let (l, e, key) ← x.pipe p (some .syncRead) va
    let (rec, x) ← x.readRecord va (e.recSize / 16)
    let x := x.commit
    if e.depth ≤ l.level key then .error x.stayWaiting
    else
      let s := x.s.setLaunch x.c.launch { l with records := l.records.set key (l.records.get key [] ++ [rec]) [] }
      .ok { x with s := s }.done.put) st

/-- The trap for a record with an uncorrectable error (R449, R483, R484), at the tier in which the pipe lies. DEDUCED (65). -/
def Cx.recordTrap (x : Cx) (e : Pipe) (away : Bool) : Trap :=
  let line := 64 * x.s.pick (2 ^ 46)
  x.trap 9 0 (BitVec.ofNat 64 line) (BitVec.ofNat 64 (line + if e.home ≠ 0 then 3 else if away then 4 else 1))

/-- `PPOP` (R44, R417): the firing's oldest reserved record, or the pipe's oldest unreserved one, stored and committed.
DEDUCED (65). -/
def execPpop (a p : BitVec 5) (st : State) : Host.Outcome State Fault Refusal :=
  issue {} (.ppop a p) (fun _ => true) (fun x => do
    let va := (x.c.sreg a).toNat
    let (l, e, key) ← x.pipe p (some .syncWrite) va
    let (ps, x) ← x.places .syncWrite 16 va (e.recSize / 16)
    let x ← x.checkLines (ps.filterMap fun q => q.1.checkedLine.map (·, lineOf q.2)) true
    if (x.c.reserved.get key [] ++ l.records.get key []).head? = some [] then .error (.raise (x.recordTrap e (l.away.contains key)))
    let x := x.commit
    let store (x : Cx) (rec : Rec) : Cx :=
      (ps.foldl (fun x q => x.buffer q.1.key q.2 16 (listNat rec (q.2 - va) 16)) x).commit.done
    match x.c.reserved.get key [] with
    | rec :: rest =>
      let l := { l with reservedCount := l.reservedCount.set key (l.reservedCount.get key 0 - 1) 0 }
      let x := { x with
        s := x.s.setLaunch x.c.launch l
        c := { x.c with reserved := x.c.reserved.set key rest [] } }
      .ok (store x rec).put
    | [] =>
      match l.records.get key [] with
      | rec :: rest =>
        let x := { x with s := x.s.setLaunch x.c.launch { l with records := l.records.set key rest [] } }
        .ok (store x rec).put
      | [] => .error x.stayWaiting) st

/-- `PPEEK` (R418). -/
def execPpeek (p d : BitVec 5) (st : State) : Host.Outcome State Fault Refusal :=
  issueOn { meets := .beside [d] none } (.ppeek p d) (fun x => do
    let (l, _, key) ← x.pipe p none 0
    let n := (x.c.reserved.get key []).length + (l.records.get key []).length
    .ok ({ x with c := x.c.setS d (BitVec.ofNat 64 n) }.next 4)) st

/-! ## Placement (R67, R420, R467) -/

/-- Mesh hops between two tiles of one district or die (R16, R127). -/
def hops (a b : Nat) : Nat :=
  let dist (m n : Nat) : Nat := if m ≤ n then n - m else m - n
  let col := dist (a % 32) (b % 32)
  let ra := a % 512 / 32
  let rb := b % 512 / 32
  if a / 512 = b / 512 then col + dist ra rb else col + ra + rb + 1

/-- The compute tile of a district nearest to a tile, ties to the lower die tile index (R67). -/
def State.nearestCompute (s : State) (tile : Nat) : Option Nat :=
  leastBy (hops tile) (s.computeTiles.filter fun t => districtOfTile t == districtOfTile tile)

/-- The tile that owns an address (R67).  Channel c of tier 4 attaches to column (c mod 128) div 4 of row 15 of die c div 128.
DESIGN CHOICE (123). -/
def State.owningTile (s : State) (pa : Nat) : Option Nat :=
  match tierOf pa with
  | some 1 => some (tileOfPa pa)
  | some 2 => some (tileOfPa pa)
  | some 3 => (s.storageTile pa).bind s.nearestCompute
  | some 4 =>
    let c := pa / 256 % 256
    some (c / 128 * 512 + 15 * 32 + c % 128 / 4)
  | _ => none

/-- Ready work of a gang instance that has not begun. -/
def State.gangWork (s : State) (r : Ready) : Bool :=
  r.ctx.isNone && r.kind == 0 && ((s.launchOf r.launch r.gen).map (·.gang)).getD false

/-- The ready work for which a slot is reserved (R46): none once that has begun, or its launch has been killed. -/
def State.reservation (s : State) (k : Nat) : Option Ready :=
  match (s.slotAt k).reservedFor with
  | some (i, g, w) => s.ready.find? fun r => r.launch == i && r.gen == g && r.wid.toNat == w && s.gangWork r
  | none => none

/-- A slot holds nobody, is promised to nobody, and has an incarnation to give (R46, R66). -/
def State.slotFree (s : State) (k : Nat) : Bool :=
  let sl := s.slotAt k
  sl.ctx.isNone && (s.reservation k).isNone && (sl.nextInc s.time).isSome && s.moves.all fun m => m.dst != k

/-- The sub-tile numbers that a firing owns on a core. -/
def State.ownSubs (s : State) (uid core : Nat) : List Nat :=
  (List.range 4).filter fun j => (s.subAt core j).owner == some uid

/-- A slot may take a firing that brings sub-tiles of some numbers (R214). -/
def State.slotQualifies (s : State) (subs : List Nat) (k : Nat) : Bool :=
  s.slotFree k && subs.all fun j => (s.subAt (coreOf k) j).owner.isNone

/-- A slot of a compute tile that may take a firing. -/
def State.slotOn (s : State) (subs : List Nat) (tile : Nat) : Option Nat :=
  if s.compute tile && !s.leaving tile then
    ((List.range 64).map (coreBase tile * 8 + ·)).find? (s.slotQualifies subs)
  else none

/-- `MIGR` (R67, R420, R467): the move takes the context away until it arrives. DEDUCED (32). -/
def execMigr (a d : BitVec 5) (st : State) : Host.Outcome State Fault Refusal :=
  issue {} (.migr a d) (fun _ => true) (fun x => do
    let va := (x.c.sreg a).toNat
    let place ← match x.translate .syncRead false va 1 with
      | .ok (.home pa _, _) => .ok (some pa)
      | .ok _ => .ok none
      | .error (.miss v k) => .error (.miss v k)
      | .error .stall => .error .stall
      | .error _ => .ok none
    let gang := ((x.s.launchOf x.c.launch x.c.gen).map (·.gang)).getD false
    let dst := if x.c.kind = 2 ∨ gang then none
      else (place.bind x.s.owningTile).bind (x.s.slotOn (x.s.ownSubs x.c.uid x.core))
    match dst with
    | none =>
      let y := x.commit
      .ok ({ y with c := y.c.setS d 1 } : Cx).done.put
    | some k =>
      let x := x.synchronize
      let s := { x.s with moves := x.s.moves ++ [{ src := x.slot, dst := k, rd := some d.toNat }] }
      .ok (({ x with s := s, c := { x.c with st := .moving } } : Cx).put.settle x.slot)) st

/-! ## Leases and roles (R421, R422) -/

/-- The storage tile of a logical block of an address space's window (R76, R78). -/
def State.blockTile (s : State) (asn b : Nat) : Option Nat :=
  if 1024 ≤ b then none
  else (s.windows.find? (·.asn == asn)).bind fun w => s.storageTile (0x6000000000000 + w.id * 2 ^ 33 + b * 2 ^ 23)

/-- The physical tile of a logical tile of a launch, or of a logical block of its window. -/
def State.indexTile (s : State) (c : Ctx) (blk : Bool) (i : Nat) : Option Nat :=
  if blk then s.blockTile c.asn i
  else (s.launchOf c.launch c.gen).bind fun l => if i < l.tiles then l.binds.get? i else none

/-- The launch holds a lease on an index now (R83). -/
def State.leased (s : State) (launch gen : Nat) (blk : Bool) (i : Nat) : Bool :=
  s.leases.any fun e => e.launch == launch && e.gen == gen && e.blk == blk && e.index == i && decide (s.time < e.expiry)

/-- Without a launch's lease on an index. -/
def State.unlease (s : State) (launch gen : Nat) (blk : Bool) (i : Nat) : State :=
  { s with leases := s.leases.filter fun e => !(e.launch == launch && e.gen == gen && e.blk == blk && e.index == i) }

/-- The status of a `LEASE` (R421), first of BADINDEX, BADTIME, NOTICED, ALLOW. DEDUCED (93). -/
def State.leaseStatus (s : State) (c : Ctx) (blk : Bool) (i ticks : Nat) : Nat :=
  match s.indexTile c blk i with
  | none => 3
  | some t =>
    let held := (s.leases.filter fun e => e.launch == c.launch && e.gen == c.gen && decide (s.time < e.expiry)).length
    if ticks = 0 ∨ 10000000 < ticks then 4
    else if field (s.roleOf t) 2 3 ≠ 0 ∨ s.recasts.any (·.tile == t) then 1
    else if s.leased c.launch c.gen blk i then 0
    else if ((s.launchOf c.launch c.gen).map (·.leaseAllow)).getD 0 ≤ held then 2
    else 0

/-- `LEASE` (R83, R84, R421). -/
def execLease (b : BitVec 1) (c a d : BitVec 5) (st : State) : Host.Outcome State Fault Refusal :=
  issueOn {} (.lease b c a d) (fun x =>
    let i := (x.c.sreg a).toNat
    let ticks := (x.c.sreg c).toNat
    let x := x.commit
    let status := x.s.leaseStatus x.c (b == 1) i ticks
    let e : Lease := { launch := x.c.launch, gen := x.c.gen, blk := b == 1, index := i, expiry := x.s.time + ticks }
    let s := if status = 0 then
        { x.s.unlease x.c.launch x.c.gen (b == 1) i with
          leases := (x.s.unlease x.c.launch x.c.gen (b == 1) i).leases ++ [e] }
      else x.s
    .ok { x with s := s, c := x.c.setS d (BitVec.ofNat 64 status) }.done) st

/-- `UNLEASE` (R83, R421). -/
def execUnlease (b : BitVec 1) (a d : BitVec 5) (st : State) : Host.Outcome State Fault Refusal :=
  issueOn { meets := .beside [a, d] none } (.unlease b a d) (fun x =>
    let i := (x.c.sreg a).toNat
    .ok (match x.s.indexTile x.c (b == 1) i with
      | none => { x with c := x.c.setS d 3 }.next 4
      | some _ => { x with s := x.s.unlease x.c.launch x.c.gen (b == 1) i, c := x.c.setS d 0 }.next 4)) st

/-- The answer of `ROLE` (R422). -/
def State.roleAnswer (s : State) (c : Ctx) (form : Nat) (q : Word) : Word :=
  let i := q.toNat
  let lease (blk : Bool) : Nat := if s.leased c.launch c.gen blk i then 2 ^ 15 else 0
  if form = 2 then if 1024 ≤ i then BitVec.allOnes 64 else s.roleOf i
  else
    match s.indexTile c (form == 1) i with
    | none => BitVec.ofNat 64 (2 ^ 63)
    | some t =>
      let state := field (s.roleOf t) 2 3 * 2 ^ 10
      if form = 1 then BitVec.ofNat 64 (t + state + 2 ^ 13 + lease true)
      else BitVec.ofNat 64 (t + state + lease false +
        ((s.launchOf c.launch c.gen).map (·.tiles)).getD 0 % 2 ^ 16 * 2 ^ 16)

/-- `ROLE` (R422). -/
def execRole (f : BitVec 2) (a d : BitVec 5) (st : State) : Host.Outcome State Fault Refusal :=
  issueOn { meets := .beside [a, d] none } (.role f a d)
    (fun x => .ok ({ x with c := x.c.setS d (x.s.roleAnswer x.c f.toNat (x.c.sreg a)) }.next 4)) st

/-- A launch acknowledges a notice (R85, R87, R423): acked in its firings that hold it, and in the recast. -/
def State.acknowledge (s : State) (launch gen serial : Nat) : State :=
  let mark (w : Word) : Word := if w ≠ 0 ∧ field w 24 8 = serial then w ||| 0x40000 else w
  let hold (c : Ctx) : Ctx := if c.launch = launch ∧ c.gen = gen then { c with notice := mark c.notice } else c
  let ack (r : Recast) : Recast :=
    if r.serial = serial ∧ r.affected.contains (launch, gen) ∧ !r.acked.contains (launch, gen) then
      { r with acked := r.acked ++ [(launch, gen)] }
    else r
  let inSlot (e : Nat × Slot) : Nat × Slot := (e.1, { e.2 with ctx := e.2.ctx.map hold })
  let parked (r : Ready) : Ready := { r with ctx := r.ctx.map hold }
  let s := { s with recasts := s.recasts.map ack, slots := s.slots.map inSlot, ready := s.ready.map parked }
  match s.launchOf launch gen with
  | some l => s.setLaunch launch { l with notice := mark l.notice }
  | none => s

/-- `NACK` (R423). -/
def execNack (a d : BitVec 5) (st : State) : Host.Outcome State Fault Refusal :=
  issueOn { meets := .beside [a, d] none } (.nack a d) (fun x =>
    let serial := (x.c.sreg a).toNat % 256
    let pending := x.s.recasts.any fun r => r.serial == serial && r.affected.contains (x.c.launch, x.c.gen)
    let x := { x with c := x.c.setS d (if pending then 0 else 1) }.next 4
    if pending then
      let s := x.put.acknowledge x.c.launch x.c.gen serial
      match s.ctxOf x.who with
      | some c => .ok { x with s := s, c := c }
      | none => .ok x
    else .ok x) st

/-! ## Boost leases (R258, R424) -/

/-- The cost of an energy class at point 4, in mW (R247). -/
def classCost (c : Nat) : Nat := 40 * 2 ^ c

/-- The charge of a boost lease (R258). -/
def boostCharge (c : Nat) : Nat := (classCost c * 13 + 15) / 16

/-- A slot's effective request (R254, R259). -/
def Ctx.effectiveReq (c : Ctx) (time : Nat) : Nat :=
  match c.boost with
  | some b => if !b.suspended && decide (time < b.expiry) then c.req.toNat else Nat.min c.req.toNat 4
  | none => Nat.min c.req.toNat 4

/-- A firing counts as waiting (R63): in a `WAIT`, or stopped in one by a trap (R449), in a realign wait, waiting at a bank for a
lock bit, or stalled in `PPUSH` or `PPOP` or on a matrix command for a sub-tile that another firing owns. -/
def State.waits (s : State) (c : Ctx) : Bool :=
  c.stalled ||
    (match c.st with
    | .waiting _ => true
    | .realign .. => true
    | .trapped _ (some _) => true
    | _ => false) ||
    (c.loads.any fun l => match l.kind with
      | .lock .. => true
      | .atomic h .. => (s.lockAt (lockOf h)).owner.isSome
      | .plain => false) ||
    c.pend.any fun p => match p.kind with
      | .atomic h .. =>
        (p.delivered || (decide (p.scope < 4) && (s.slotOfUid c.uid).any (s.releasable · c p))) &&
          (s.lockAt (lockOf h)).owner.isSome
      | _ => false

/-- The target of a quad: the highest request of its resident firings that are not waiting (R254); a quad that the
regulator monitor has capped stays at 4 or below (R492). DEDUCED (98). -/
def State.targetOf (s : State) (quad : Nat) : Nat :=
  let first := (coreBase (quad / 2) + quad % 2 * 4) * 8
  let t := ((List.range 32).map fun i =>
    match (s.slotAt (first + i)).ctx with
    | some c =>
      match c.st with
      | .ended _ => 0
      | _ => if s.waits c then 0 else c.effectiveReq s.time
    | none => 0).foldl Nat.max 0
  if (s.quadAt quad).capped then Nat.min t 4 else t

/-- One microsecond's step of a quad towards its target. -/
def Quad.ramp (q : Quad) : Quad :=
  let goal := pointMv q.target
  let mv := if q.mv < goal then q.mv + 10 else if goal < q.mv then q.mv - 10 else q.mv
  { q with mv := mv, point := if goal ≤ mv ∧ q.point < q.target then q.target else q.point }

/-- The step that is due at a multiple of 100 ticks, once. -/
def Quad.stepDue (q : Quad) (time : Nat) : Quad :=
  if time / 100 ≤ q.stepped ∨ time % 100 ≠ 0 then q else { q.ramp with stepped := time / 100 }

/-- The array clocks that a realign wait still has to count once its quad's clock changes (R338). -/
def Ctx.recount (c : Ctx) (point time : Nat) : Ctx :=
  match c.st with
  | .realign left since => { c with st := .realign (left - (time - since) * pointMHz point) time }
  | _ => c

/-- A quad with a new operating point: its realign waits go on at the new clock (R338). -/
def State.repoint (s : State) (quad : Nat) (q : Quad) : State :=
  let old := (s.quadAt quad).point
  let s := s.setQuad quad q
  if q.point = old then s
  else
    let first := (coreBase (quad / 2) + quad % 2 * 4) * 8
    { s with slots := s.slots.map fun e =>
        if first ≤ e.1 ∧ e.1 < first + 32 then (e.1, { e.2 with ctx := e.2.ctx.map (·.recount old s.time) }) else e }

/-- A quad takes its target; a lower clock at once (R255).  A voltage step that falls on the same tick goes first, towards the
target that it replaces. DEDUCED (98). -/
def State.retarget (s : State) (quad : Nat) : State :=
  let t := s.targetOf quad
  let q := s.quadAt quad
  if q.target = t then s.repoint quad { q with point := Nat.min q.point t }
  else
    let q := q.stepDue s.time
    s.repoint quad { q with target := t, point := Nat.min q.point t, stepAt := s.time }

/-- Quads that hold a firing, or whose operating point has changed, take their targets (R255). -/
def State.retargetAll (s : State) : State :=
  ((s.slots.filterMap fun e => if e.2.ctx.isSome then some (quadOf (coreOf e.1)) else none) ++
    s.quads.map (·.1)).eraseDups.foldl State.retarget s

/-- A suspended boost lease is tried when its firing next issues (R259). -/
def State.reboost (s : State) : State :=
  match s.cur, s.ctxOf s.cur with
  | .slot k, some c =>
    if c.boost.any (fun b => b.suspended && b.due) ∧ c.st = .running ∧ !s.halted then
      let (t, c) := s.unsuspend (coreOf k) c
      (t.putCtx (.slot k) { c with boost := c.boost.map fun b => { b with due := false } }).retarget (quadOf (coreOf k))
    else s
  | _, _ => s

/-- `BOOST` (R258, R259, R424). -/
def execBoost (a d : BitVec 5) (st : State) : Host.Outcome State Fault Refusal :=
  issue { meets := .beside [a, d] none } (.boost a d) (fun _ => true) (fun x =>
    let n := (x.c.sreg a).toNat
    let dist := districtOf x.core
    let charge := boostCharge x.c.cls
    let lease : Boost := { expiry := x.s.time + n, left := n, suspended := false, charge := charge }
    let running := match x.c.boost with
      | some b => !b.suspended && decide (x.s.time < b.expiry)
      | none => false
    let expired := match x.c.boost with
      | some b => !b.suspended && decide (b.expiry ≤ x.s.time)
      | none => false
    let ended : Ctx := { x.c with boost := none }
    let x := if expired then { x with s := (x.s.endBoost x.core x.c).putCtx x.who ended, c := ended } else x
    let answer (x : Cx) (v : Word) : Cx := { x with c := x.c.setS d v }.next 4
    if n = 0 ∨ 100000 < n then .ok (answer x 2).put
    else if running then
      .ok ((answer { x with c := { x.c with boost := some lease } } 0).put.retarget (quadOf x.core))
    else if x.s.covers dist charge then
      .ok ((answer { x with s := x.s.reserve dist charge, c := { x.c with boost := some lease } } 0).put.retarget
        (quadOf x.core))
    else .ok (answer x 1).put) st

end Sys2Proof.Machine
end

