-- ==== Sys2Proof/Machine/System.lean ====
section
/-! DEFINITION. Control registers and the system majors 0x3C to 0x3E (R425 to R429), and the return from a trap (R455). -/

namespace Sys2Proof.Machine

/-! ## Control registers (R312, R425) -/

/-- The core record whose registers an issuer reads: a system or hub core has one of its own. DEDUCED (44). -/
def Cx.regCore (x : Cx) : Nat :=
  match x.who with
  | .slot k => coreOf k
  | .sys n => 16384 + n

/-- The fetch duty of a core with a resident firing: at least 1 (R251), and 1 while a unit that it belongs to is at its
peak cap (R253). -/
def State.fetchDuty (s : State) (core : Nat) : Nat :=
  if s.power.throttled.any fun u => u == 0 || u == 1 + core / 4096 then 1 else Nat.max 1 (s.coreAt core).duty.toNat

/-- The value of a control register (R312), other than `cr.evq`. DEDUCED (44). -/
def Cx.controlReg (x : Cx) (r : Nat) : Word :=
  let k := x.s.coreAt x.regCore
  match r with
  | 0x000 => x.c.regs.status
  | 0x001 => x.c.regs.pfx
  | 0x002 => x.c.wid
  | 0x003 => slotWord x.slot x.slotInc
  | 0x004 => x.c.notice
  | 0x005 => x.s.perfWord x.regCore x.c
  | 0x010 => k.htag
  | 0x011 => k.mxw.setWidth 64
  | 0x012 =>
    if x.isFiring then BitVec.ofNat 64 (x.s.fetchDuty x.regCore) else k.duty.setWidth 64
  | 0x014 => BitVec.ofNat 64 x.s.time
  | _ => k.span.get (r - 0x20) 0

/-- `CRR` (R425); that of `cr.status` waits for the flags of every forwarded vector instruction. -/
def execCrr (r : BitVec 12) (d : BitVec 5) (st : State) : Host.Outcome State Fault Refusal :=
  issueOn { system := true, meets := if r = 0 then .alone else .beside [d] none } (.crr r d)
    (fun x => .ok ({ x with c := x.c.setS d (x.controlReg r.toNat) }.next 4)) st

/-- `CRR` of `cr.evq` (R124, R397): the oldest entry of the reading firing leaves the queue, and a place becomes free. -/
def execCrrEvq (d : BitVec 5) (st : State) : Host.Outcome State Fault Refusal :=
  issue { system := true, meets := .beside [d] none } (.crrEvq d) (fun _ => true) (fun x =>
    let k := x.s.coreAt x.regCore
    match k.evq.find? fun e => x.isFiring && e.uid == x.c.uid with
    | none => .ok ({ x with c := x.c.setS d 0 }.next 4).put
    | some e =>
      let rest := k.evq.eraseIdx (k.evq.findIdx fun f => f.uid == x.c.uid)
      let c := (x.c.setS d e.word)
      let c := { c with region := { c.region with evqRead := c.region.evqRead ++ [e] } }
      .ok ((({ x with s := x.s.setCore x.regCore { k with evq := rest }, c := c } : Cx).next 4).put.evFill x.regCore)) st

/-- A register whose write by a firing raises the privilege trap (R312). -/
def trapsOnWrite (r : Nat) : Bool := r == 0x011 || r == 0x012 || (decide (0x020 ≤ r) && decide (r ≤ 0x023))

/-- `CRW` (R10, R312, R425); that of `cr.status` comes behind every forwarded vector instruction. -/
def execCrw (r : BitVec 12) (a : BitVec 5) (st : State) : Host.Outcome State Fault Refusal :=
  let how : How :=
    { system := true, privileged := trapsOnWrite r.toNat, meets := if r = 0 then .alone else .beside [a] none }
  issue how (.crw r a) (fun _ => true) (fun x =>
    let v := x.c.sreg a
    let x := x.next 4
    match r.toNat with
    | 0x000 => .ok { x with c := x.c.setStatus (statusWrite x.c.regs.status v) }.put
    | 0x005 =>
      let s := ({ x with c := { x.c with req := v.setWidth 3 } } : Cx).put
      .ok (if x.isFiring then s.retarget (quadOf x.core) else s)
    | n => .ok { x with s := x.s.setCore x.regCore ((x.s.coreAt x.regCore).writeReg n v) }.put) st

/-! ## Requested traps (R426) -/

/-- A requested trap: its subcode, n and resume address. -/
def requested (i : Instr) (sub : Nat) (n : BitVec 12) (resume : Word → Word) (st : State) :
    Host.Outcome State Fault Refusal :=
  issue { system := true } i (fun _ => true) (fun x =>
    .error (.raise { x.trap 13 3 x.c.pc (n.setWidth 64) with subcode := sub, resume := resume x.c.pc })) st

/-- `TRAP` (R426). -/
def execTrap (n : BitVec 12) (st : State) : Host.Outcome State Fault Refusal := requested (.trap n) 0 n (· + 4) st

/-- `SYSC` (R426). -/
def execSysc (n : BitVec 12) (st : State) : Host.Outcome State Fault Refusal := requested (.sysc n) 1 n (· + 4) st

/-- `BKPT` (R426). -/
def execBkpt (n : BitVec 12) (st : State) : Host.Outcome State Fault Refusal := requested (.bkpt n) 2 n (fun pc => pc) st

/-! ## Return from a trap (R427, R455, R456) -/

/-- The oldest asynchronous trap that waits at a context stops it again before it issues anything (R456).
DEDUCED (91). -/
def State.stopAgain (s : State) (who : Issuer) (c : Ctx) : State :=
  match c.asyncs with
  | [] => s.putCtx who c
  | a :: rest => s.takeTrap who { c with asyncs := rest } { a with resume := c.pc }

/-- The trapped issuer goes on (disposition 0): at the resume address, or, where it was stopped in a `WAIT` and the
address is still that, in its wait. DEDUCED (89). -/
def State.resumeTrap (s : State) (who : Issuer) (c : Ctx) (t : Trap) (inside : Option WaitState) : State :=
  let st : RunState := match inside with
    | some w => if t.resume = c.pc then .waiting w else .running
    | none => .running
  s.stopAgain who { c with pc := t.resume, st := st }

/-- The trap that a number names is returned from, by disposition (R455, R461, R463). -/
def State.returnFrom (s : State) (n : Nat) : State :=
  let who := Issuer.ofNumber n
  match s.ctxOf who with
  | none => s
  | some c =>
    match c.st with
    | .trapped t inside =>
      match who with
      | .sys _ => s.resumeTrap who c t inside
      | .slot k =>
        let dead := ((s.launchOf c.launch c.gen).map (·.killed)).getD false
        if t.disposition = 0 ∧ !dead then s.resumeTrap who c t inside
        else
          let killed := dead || t.disposition == 2
          let s := ({ s := s, who := .slot k, c := c } : Cx).finish true killed
          if t.disposition = 2 ∧ (s.launchOf c.launch c.gen).isSome then s.killLaunch c.launch else s
    | _ => s

/-- A system core without a latch, and without the trap that it served last. -/
def SysCore.free (k : SysCore) : SysCore := { k with latch := none, serving := k.serving.tail }

/-- `ERET` (R427, R452, R455); on a core that serves no trap it has no effect (R477). -/
def execEret (st : State) : Host.Outcome State Fault Refusal :=
  issue { system := true, privileged := true } .eret (fun _ => true) (fun x =>
    let s := (x.next 4).put
    match x.who with
    | .slot _ => .ok s
    | .sys n =>
      match (s.sysAt n).serving with
      | [] => .ok s
      | k :: _ => .ok ((s.setSys n (s.sysAt n).free).returnFrom k)) st

/-- `TACK` (R427, R452). -/
def execTack (st : State) : Host.Outcome State Fault Refusal :=
  issue { system := true, privileged := true } .tack (fun _ => true) (fun x =>
    let s := (x.next 4).put
    match x.who with
    | .slot _ => .ok s
    | .sys n => .ok (s.setSys n { s.sysAt n with latch := none })) st

/-! ## TLB maintenance (R428, R429) -/

/-- The leaf's tier field agrees with its frame (R110, R428, R470); host and peer frames lie in no tier.
DEDUCED (23). -/
def tierAgrees (leaf : Word) : Bool :=
  let pa := leafFrame leaf
  populated pa &&
    match tierOf pa with
    | some t => field leaf 5 3 == t
    | none => regionOf pa == 4 || regionOf pa == 5

def State.kernelWhole (s : State) (pa n : Nat) : Bool :=
  s.kernelPart pa n && (List.range (n / 1024)).all fun i => s.kernelFrame (pa + 1024 * i)

/-- The status of a `TLBW` (R99, R108, R112, R428, R470): the lowest code that applies.  The kreserved
bit of a frame only part of which is kernel-reserved may be either. DEDUCED (121). DEDUCED (23). DEDUCED (34). -/
def State.tlbwStatus (s : State) (leaf : Word) (va tile core reserved : Nat) : Nat :=
  let big := bit leaf 12
  let present := bit leaf 0
  let frame := leafFrame leaf
  let named := decide (core < 8)
  let sizeOk := !named || (s.coreAt (coreBase tile + core)).pageBit va == big
  let n := pageBytes big
  if present ∧ ((bit leaf 11 = false ∧ s.kernelWhole frame n) ∨ (bit leaf 11 = true ∧ !s.kernelPart frame n)) then 1
  else if present ∧ bit leaf 8 ∧ !(tierOf frame == some 1 || tierOf frame == some 2 || tierOf frame == some 3) then 2
  else if present ∧ tierOf frame = some 0 then 3
  else if present ∧ (!tierAgrees leaf || !sizeOk || (big && frame % 2 ^ 21 != 0)) then 4
  else if va % pageBytes big ≠ 0 ∨ 2 ^ 56 ≤ va ∨ 1024 ≤ tile ∨ (8 ≤ core ∧ core ≠ 0xFF) ∨ reserved ≠ 0 then 5
  else 0

/-- A page's entry written into a tile's TLB, and into a core's where one is named (R428). -/
def State.install (s : State) (tile : Nat) (core : Option Nat) (e : TlbEntry) : State :=
  let t := s.tileAt tile
  let s := s.setTile tile { t with tlb := s.tlbTake 1024 t.tlb e }
  match core with
  | none => s
  | some c =>
    let k := s.coreAt c
    s.setCore c { k with tlb := s.tlbTake 64 k.tlb e }

/-- Contexts of a core that wait for a translation in a page of an address space replay their access (R109, R428). -/
def State.replay (s : State) (core asn : Nat) (inPage : Nat → Bool) : State :=
  (List.range 8).foldl (fun s i =>
    match (s.slotAt (core * 8 + i)).ctx with
    | some c =>
      match c.st with
      | .missing va _ =>
        if c.asn = asn ∧ inPage va then
          s.putCtx (.slot (core * 8 + i)) { c with st := .running, verdicts := c.verdicts.filter fun w => !inPage w.1 }
        else s
      | _ => s
    | none => s) s

/-- A virtual address lies in the page of an entry. -/
def TlbEntry.holds (e : TlbEntry) (va : Nat) : Bool := va - va % pageBytes (bit e.leaf 12) == e.page

/-- `TLBW` (R428): the request's status is written when it is done, as a store is (R490). DEDUCED (34). -/
def execTlbw (b a : BitVec 5) (st : State) : Host.Outcome State Fault Refusal :=
  issueOn { system := true, privileged := true } (.tlbw b a) (fun x => do
    let req := (x.c.sreg b).toNat
    let leaf := x.c.sreg a &&& 0x7FFFFFFFFFFFFF
    let (p, x) ← x.reach .load true req 16
    let lo ← x.s.sysRead x.sysNumber p.key 8
    let hi ← x.s.sysRead x.sysNumber (p.key + 8) 8
    let (_, x) ← x.reach .store true (req + 0x0D) 1
    let tile := hi / 2 ^ 16 % 2 ^ 16
    let core := hi / 2 ^ 32 % 2 ^ 8
    let status := x.s.tlbwStatus leaf lo tile core (hi / 2 ^ 48)
    let e : TlbEntry := { asn := hi % 2 ^ 16, page := lo, leaf := leaf }
    let s := if status ≠ 0 then x.s
      else if core = 0xFF then x.s.install tile none e
      else
        (x.s.install tile (some (coreBase tile + core)) e).replay (coreBase tile + core) e.asn e.holds
    let s ← ({ x with s := s } : Cx).put.sysWrite x.sysNumber [] (p.key + 0x0D) 1 status
    .ok ({ x with s := s }.next 4)) st

/-- The cores and tiles of a scope around a hub core, or of the package: by tile (R429). -/
def tlbiReaches (scope n tile : Nat) : Bool :=
  if scope = 4 then districtOfTile tile == n - 16
  else if scope = 5 then districtOfTile tile / 32 == (n - 16) / 32
  else true

/-- `TLBI` removes an entry (R429). -/
def tlbiMatches (sel : Word) (e : TlbEntry) : Bool :=
  match field sel 16 2 with
  | 0 => e.asn == field sel 0 16 && e.holds (field sel 18 46 * 2 ^ 10)
  | 1 => e.asn == field sel 0 16
  | 2 => true
  | _ => false

/-- `TLBI` (R113, R429). -/
def execTlbi (sc : BitVec 4) (a : BitVec 5) (st : State) : Host.Outcome State Fault Refusal :=
  issueOn { system := true, privileged := true } (.tlbi sc a) (fun x =>
    let sel := x.c.sreg a
    let n := x.sysNumber
    if n < 16 ∧ sc.toNat < 6 then .error (.raise (x.trap 4 3 x.c.pc (Instr.detail (.tlbi sc a))))
    else
      let keep (l : List TlbEntry) : List TlbEntry := l.filter fun e => !tlbiMatches sel e
      let core (e : Nat × Core) : Nat × Core :=
        if e.1 < 8192 ∧ tlbiReaches sc.toNat n (tileOf e.1) then (e.1, { e.2 with tlb := keep e.2.tlb }) else e
      let tile (e : Nat × Tile) : Nat × Tile :=
        if tlbiReaches sc.toNat n e.1 then (e.1, { e.2 with tlb := keep e.2.tlb }) else e
      let s := { x.s with
        cores := x.s.cores.map core
        tiles := x.s.tiles.map tile
        enqTlb := if 6 ≤ sc.toNat then keep x.s.enqTlb else x.s.enqTlb }
      .ok ({ x with s := s }.next 4)) st

end Sys2Proof.Machine
end

