-- ==== Sys2Proof/Machine/Homes.lean ====
section
/-! DEFINITION. Events at the homes of memory and at a slot: commits by time, load returns, committed lines, race checks,
lock bits, waits, the journal, soft errors and peer requests (R114 to R124, R145, R159, R164 to R170, R458, R474, R483). -/

namespace Sys2Proof.Machine

/-- The context of a slot, as an instruction in hand. -/
def State.cxAt (s : State) (k : Nat) : Option Cx := (s.slotAt k).ctx.map fun c => { s := s, who := .slot k, c := c }

/-! ## Commits by time (R115, R164) -/

/-- The context stands at a boundary of both streams at which time may end its region: a stopped firing's region stays
open (R455), and one on its way to another slot has no boundary. DEDUCED (67). -/
def Ctx.atBoundary (c : Ctx) : Bool :=
  c.vrests &&
    match c.st with
    | .trapped .. => false
    | .moving => false
    | .ended _ => false
    | _ => true

/-- No forwarded store of the firing has claimed lines that it is still to write. -/
def Ctx.unclaimed (c : Ctx) : Bool := c.vstream.all (·.claims.isEmpty)

/-- A race check of the firing is on its way (R167). -/
def Ctx.inCheck (c : Ctx) : Bool :=
  match c.st with
  | .checking .. => true
  | _ => false

/-- A region that has held a buffered line for 10,000 reference ticks commits (R115), and a forwarded store that has claimed its lines is
made first. DESIGN CHOICE (24). DEDUCED (67). DEDUCED (165). -/
def execRegionTimeCommit (s : State) : Host.Outcome State Fault Refusal :=
  event (fun s =>
    match s.cxAt s.args.a with
    | some x =>
      match x.c.region.since with
      | some t => if t + 10000 ≤ s.time ∧ x.c.atBoundary ∧ x.c.unclaimed then some (x.commit.put.settle s.args.a) else none
      | none => none
    | none => none) s

/-- A checked interval that has been open for 10,000 reference ticks closes, which is a commit point and orders the accesses
before it (R115, R164).  An access whose race check is on its way, and a forwarded store that has claimed its lines, are made first.
DESIGN CHOICE (24). DEDUCED (165). -/
def execIntervalTimeClose (s : State) : Host.Outcome State Fault Refusal :=
  event (fun s =>
    match s.cxAt s.args.a with
    | some x =>
      match x.c.checkedSince with
      | some t =>
        if t + 10000 ≤ s.time ∧ x.c.atBoundary ∧ x.c.unclaimed ∧ !x.c.inCheck then some (x.forceClose.put.settle s.args.a) else none
      | none => none
    | none => none) s

/-! ## Load data (R325, R365) -/

/-- Byte `i` of a load as its home gives it now, or as it was fixed: the bytes of one element are read as one access (R161).
DEDUCED (70). -/
def State.loadByte (s : State) (uid : Nat) (l : QLoad) (i : Nat) : Byte :=
  match l.cells.getD i (none, 0) with
  | (some pa, _) => if s.badLines.contains (lineOf pa) then poisonByte pa else s.readByte 0 pa uid (i / l.width)
  | (none, b) => b

/-- The value that a load delivers. -/
def State.loadValue (s : State) (uid : Nat) (l : QLoad) : Nat := gatherBytes (s.loadByte uid l) 0 l.cells.length

/-- A load of which only some elements are read, and the load as it stands once they are (R367): the elements of a vector load come
in no order. DEDUCED (135). -/
def QLoad.part (l : QLoad) (only : List Nat) : QLoad :=
  if only = [] ∨ !l.vec then l
  else { l with cells := (List.range l.cells.length).map fun i =>
    if only.contains (i / l.width) then l.cells.getD i (none, 0) else (none, 0) }

def State.served (s : State) (uid : Nat) (l : QLoad) (only : List Nat) : QLoad :=
  if only = [] ∨ !l.vec then { l with cells := (List.range l.cells.length).map fun i => (none, s.loadByte uid l i) }
  else { l with cells := (List.range l.cells.length).map fun i =>
    if only.contains (i / l.width) then (none, s.loadByte uid l i) else l.cells.getD i (none, 0) }

/-- The value of a load as a scalar takes it. -/
def QLoad.word (l : QLoad) (v : Nat) : Word := if l.signed then sextWord l.cells.length v else BitVec.ofNat 64 v

/-- The place that a load holds in a queue, or the register that waits for it, takes its value (R289, R328, R398). -/
def Regs.deliver (r : Regs) (l : QLoad) (v : Nat) : Regs :=
  match l.reg with
  | some reg => if l.vec then r.arriveV l.id reg (BitVec.ofNat 1024 v) else r.arrive l.id reg (l.word v)
  | none =>
    if l.vec then
      let fill (e : QEnt Vec) : QEnt Vec := if e = .due l.id then .val (BitVec.ofNat 1024 v) else e
      { r with vq := r.vq.map fun q => (q.1, q.2.map fill) }
    else
      let fill (e : QEnt Word) : QEnt Word := if e = .due l.id then .val (l.word v) else e
      { r with sq := r.sq.map fun q => (q.1, q.2.map fill) }

/-- An access waits for a lock bit. -/
def QLoad.seeks (l : QLoad) (lock : Nat) : Bool :=
  match l.kind with
  | .lock m .. => m == lock
  | _ => false

/-- An outstanding access may be served: the firing's earlier lines to its lines are at their homes, and so are its earlier
accesses to the same bytes and the writes that earlier releases owe there (R158, R160).  An atomic also comes after every
earlier access of its firing (R159).  None overtakes what its tile or its firing has sent to the home before (R127, R145). -/
def State.mayServe (s : State) (k : Nat) (c : Ctx) (l : QLoad) : Bool :=
  let lines := (l.homes.map lineOf).eraseDups
  let before := c.loads.filter fun k => decide (k.id < l.id)
  !(s.flights.any fun f =>
      f.origin.uid == c.uid && f.phase != 1 && !f.loads.contains l.id && lines.contains f.line.home) &&
    !lines.any (fun a => s.stranded a || s.cutOff a || s.sentBefore (tileOf (coreOf k)) (s.homeNode a) ||
      s.peerBefore c a l.id) &&
    !(l.stamps.any fun e => lines.contains e.1 && s.staleStamp e.1 e.2 l.epoch) &&
    (if l.atomic then before.isEmpty else !(l.homes.any fun a => before.any (·.touches a 1))) &&
    !(c.pend.any fun p => decide (p.mark ≤ l.id) && match p.kind with
      | .write h n _ => l.homes.any fun a => decide (h ≤ a) && decide (a < h + n)
      | _ => false)

/-- An outstanding access that has read an uncorrectable line gives the poison, and an asynchronous integrity trap (R484).
DEDUCED (70). -/
def State.lateIntegrity (s : State) (k : Nat) (c : Ctx) (l : QLoad) : State :=
  if s.badLines = [] then s
  else
    let read := (l.homes.map lineOf).eraseDups.filter s.badLines.contains
    read.foldl (fun s a => s.struck k c a (((l.lines.find? (·.1 == a)).map (·.2)).getD a)) s

/-- An outstanding load's data returns, or that of the elements of a vector load that the schedule lists (R367), or an atomic is
performed at its home (R122, R398): earlier committed lines of the firing to its lines are at their homes (R158), and later ones
wait for it (R159).  A lock bit is granted by an event of its own. -/
def execLoadDataReturn (s : State) : Host.Outcome State Fault Refusal :=
  event (fun s =>
    let k := s.args.a
    match (s.slotAt k).ctx with
    | none => none
    | some c =>
      match c.loads.find? (·.id == s.args.b) with
      | none => none
      | some l =>
        let done : Ctx := { c with loads := c.loads.filter (·.id != l.id) }
        if !s.mayServe k c (l.part s.args.data) then none
        else
          match l.kind with
          | .plain =>
            let got := s.served c.uid l s.args.data
            if got.cells.any (·.1.isSome) then
              some ((s.putCtx (.slot k) { c with loads := c.loads.map fun q => if q.id = l.id then got else q }).lateIntegrity k c
                (l.part s.args.data))
            else
              let v := s.loadValue c.uid got
              some ((s.putCtx (.slot k) { done with
                regs := c.regs.deliver l v
                region := { c.region with snap := c.region.snap.deliver l v } }).settle k |>.lateIntegrity k c
                  (l.part s.args.data))
          | .atomic home n op b cmp =>
            if (s.lockAt (lockOf home)).owner.isSome then none
            else if s.badLines.contains (lineOf home) then
              some ((s.putCtx (.slot k) (done.arrive l.id (l.reg.getD 0) (poisonWord n))).settle k |>.lateIntegrity k c l)
            else
              let (t, old) := s.atomicAt c.uid home n op b cmp
              some ((t.putCtx (.slot k) (done.arrive l.id (l.reg.getD 0) (sextWord n old))).settle k)
          | .lock .. => none) s

/-! ## Committed lines (R116, R118, R158, R474) -/

/-- The home's reason to refuse a posted line, 0 for none (R474). -/
def State.refusal (s : State) (l : Line) (peerRefuses : Bool) : Nat :=
  if s.kernelFrame l.home ∨ (regionOf l.home = 2 ∧ !s.compute (tileOfPa l.home)) then 1
  else if s.unbacked l.home then 2
  else if s.badLines.contains l.home ∧ l.mask ≠ BitVec.allOnes 64 then 3
  else if regionOf l.home = 5 ∧ peerRefuses then 4
  else 0

/-- The line's request has to be resolved again (R77). -/
def State.staleAt (s : State) (f : Flight) : Bool := s.staleStamp f.line.home f.tile f.epoch

def State.mapFlight (s : State) (id : Nat) (g : Flight → Flight) : State :=
  { s with flights := s.flights.map fun f => if f.id = id then g f else f }

/-- A line holds bytes of `n` from a home on. -/
def Line.overlaps (l : Line) (h n : Nat) : Bool :=
  (List.range n).any fun i => l.home == lineOf (h + i) && l.mask.getLsbD ((h + i) % 64)

/-- The launch whose header stands at `va` is still to read a line (R505): the header's own lines, or those of its actor table and
its producer list, which the header names. -/
def State.launchReads (s : State) (c : Ctx) (va line : Nat) : Bool :=
  let x : Cx := { s := s, who := .sys 80, c := c }
  let tables (h : List Byte) : Bool :=
    s.enqReads c.asn (listNat h 0x18 8) (32 * listNat h 2 1 + 16 * listNat h 3 1) line ||
      s.enqReads c.asn (listNat h 0x70 8) (4 * listNat h 7 1) line
  if 0xFFFFFFFFFFE000 ≤ va then
    let off := va % 0x2000
    line == shareBase + lineOf off || line == shareBase + lineOf (off + 64) ||
      tables ((List.range 128).map fun i => x.shareByte (off + i))
  else
    s.enqReads c.asn va 128 line || match s.enqRead c.asn va 128 with
      | .ok h => tables h
      | .error _ => true

/-- What a firing did before a committed line and is still to do comes first (R154, R158, R159): the return of the loads of its
region, a release that owes a write to the same bytes, and a launch that is still to read the line (R505). -/
def State.lineHeld (s : State) (f : Flight) (c : Ctx) : Bool :=
  (f.loads.any fun i => (c.loads.any fun l => l.id == i && !c.stuck.contains l) || c.vstream.any (·.id == i)) ||
    c.pend.any fun p => decide (p.seq ≤ f.num) && match p.kind with
      | .write h n _ => f.line.overlaps h n
      | .launch va .. => s.launchReads c va f.line.home
      | _ => false

/-- A committed line may be performed: it holds its journal entry, no earlier line of its firing or of its slot is still on its
way (R116, R118), and nothing else that its firing did before holds it.  It does not overtake a request that its tile has sent
before to the same node (R127). DEDUCED (68). DEDUCED (69). -/
def State.mayLand (s : State) (f : Flight) : Bool :=
  f.phase == 0 && (!f.posted || f.journal.isSome) && !s.stranded f.line.home && !s.cutOff f.line.home &&
    ((s.flights.find? fun g => (g.origin.uid == f.origin.uid || g.origin.slot == f.origin.slot) &&
      (g.phase == 0 || g.phase == 3)).map (·.id)) == some f.id &&
    !((s.ctxOfUid f.origin.uid).any (s.lineHeld f)) &&
    (decide (shareBase ≤ f.line.home) || !s.sentBefore f.origin.tile (s.homeNode f.line.home))

/-- A committed line of a firing's own share is performed there (R97, R116). -/
def State.landShare (s : State) (f : Flight) : State :=
  match s.ctxOfUid f.origin.uid with
  | none => s
  | some c =>
    let off := f.line.home - shareBase
    let bytes := (List.range 64).filter fun i => f.line.mask.getLsbD i
    let t := bytes.foldl (fun t i => t.unsee 0 c.uid (shareKey c.uid (off + i)) (c.share.get (off + i) 0) (f.num + 1)) s
    let t := t.mapUid c.uid fun c =>
      { c with share := bytes.foldl (fun m i => m.set (off + i) (byteOf f.line.data.toNat i) 0) c.share }
    match s.slotOfUid c.uid with
    | some k => t.mended { f.line with home := sharePa k off }
    | none => t

/-- A committed line reaches its home, which performs it as one masked write or refuses it; `flag` is a peer's refusal. -/
def execPostedLineAtHome (s : State) : Host.Outcome State Fault Refusal :=
  event (fun s =>
    match s.flights.find? (·.id == s.args.a) with
    | none => none
    | some f =>
      if !s.mayLand f then none
      else if s.staleAt f then some (s.mapFlight f.id fun g => { g with phase := 3 })
      else
        let reason := if f.posted then s.refusal f.line s.args.flag else 0
        if reason = 0 then
          let t :=
            if shareBase ≤ f.line.home then s.landShare f
            else if regionOf f.line.home = 5 then s
            else (s.writeLine 0 f.origin.uid (f.num + 1) f.line (some (f.origin.slot, f.id))).mended f.line
          some (t.mapFlight f.id fun g => { g with phase := 1 })
        else
          some ((s.mapFlight f.id fun g => { g with phase := 2, reason := reason }).async f.origin
            (asyncTrap 7 1 (BitVec.ofNat 64 f.line.va) (BitVec.ofNat 64 (f.journal.getD 0))))) s

/-- A request that its tile has returned is resolved again (R77): a committed line's, or, with the flag, that of outstanding access
`b` of slot `a`. DEDUCED (72). -/
def execStaleRequestReturn (s : State) : Host.Outcome State Fault Refusal :=
  event (fun s =>
    if s.args.flag then
      (s.slotAt s.args.a).ctx.map fun c =>
        let again (l : QLoad) : QLoad :=
          if l.id = s.args.b then { l with stamps := s.stamp (l.stamps.map (·.1)), epoch := s.epoch } else l
        s.putCtx (.slot s.args.a) { c with loads := c.loads.map again }
    else
      match s.flights.find? (·.id == s.args.a) with
      | none => none
      | some f =>
        if f.phase = 3 then
          some (s.mapFlight f.id fun g =>
            { g with phase := 0, tile := (s.homeTile g.line.home).getD 0, epoch := s.epoch })
        else none) s

/-- A home acknowledges a line: its journal entry is free, and what waits for the acknowledgement goes on. -/
def execStoreAck (s : State) : Host.Outcome State Fault Refusal :=
  event (fun s =>
    match s.flights.find? (·.id == s.args.a) with
    | none => none
    | some f =>
      if f.phase = 1 then some (({ s with flights := s.flights.filter (·.id != f.id) }).grantJournal f.core).settleAll
      else none) s

/-- A system core retries a refused journal entry (R458). -/
def execJournalRetry (s : State) : Host.Outcome State Fault Refusal := .next (s.retryEntry s.args.a s.args.b)

/-- A system core discards a refused journal entry (R458, R459). -/
def execJournalDiscard (s : State) : Host.Outcome State Fault Refusal := .next (s.discardEntry s.args.a s.args.b)

/-! ## Race checks (R167 to R170) -/

/-- A line recorded or claimed by the open interval. -/
def Ctx.touch (c : Ctx) (line : Nat) (claim : Bool) : Ctx :=
  let mark (t : Touch) : Touch := if claim then { t with claimed := true } else { t with read := true }
  { c with touched :=
      if c.touched.any (·.line == line) then c.touched.map fun t => if t.line = line then mark t else t
      else c.touched ++ [mark { line := line, read := false, claimed := false }] }

/-- A race check reaches the line's home.  A conflict of one that a forwarded store makes again, after its interval was closed, undoes
the region of the store, which traps where it issues again (R163, R169, R347); where the region has begun after the store, it traps at
the region's start. DEDUCED (165). -/
def execCheckedAccessAtHome (s : State) : Host.Outcome State Fault Refusal :=
  event (fun s =>
    let k := s.args.a
    match s.cxAt k with
    | none => none
    | some x =>
      match x.c.st with
      | .checking line va claim =>
        if s.stranded line then none else
        match s.conflict k line claim with
        | some d =>
          let holds (l : List Deferred) : Bool := claim && l.any fun e => e.claims.any (·.1 == line)
          let stop (y : Cx) : State := y.raise (y.trap 6 (if claim then 1 else 0) (BitVec.ofNat 64 va) d)
          if holds (x.c.vstream.take 1) then
            let y := x.abort
            some (if holds y.c.vstream then stop y else ({ y with c := { y.c with st := .running } } : Cx).put)
          else if x.c.vstream = [] then some (stop x)
          else none
        | none =>
          let serial := (s.slotAt k).serial.toNat
          let tag := if claim then some (s.recordClaim k serial line) else s.recordReader k serial line
          tag.map fun t =>
            { s with tags := s.tags.set line t 0 }.putCtx (.slot k) { (x.c.touch line claim).checked with st := .running }
      | _ => none) s

/-! ## Lock bits (R121) -/

/-- The oldest request that waits for a lock bit receives it and reads its word (R121, R403). DEDUCED (73). -/
def execLockGrant (s : State) : Host.Outcome State Fault Refusal :=
  event (fun s =>
    let l := s.args.a
    let k := s.lockAt l
    match k.owner, k.queue with
    | none, uid :: rest =>
      match (s.slotOfUid uid).bind s.cxAt with
      | none => none
      | some x =>
        match x.c.loads.find? (·.seeks l) with
        | none => none
        | some q =>
          match q.kind with
          | .lock _ home va n =>
            if !s.mayServe x.slot x.c q ∨ s.halted then none else
            let t := (s.setLock l { k with queue := rest }).takeLock home x.slot x.slotInc
            let v := if s.badLines.contains (lineOf home) then poisonWord n else sextWord n (s.readMem 0 home n uid)
            let c := x.c.arrive q.id (q.reg.getD 0) v
            some ((t.putCtx x.who { c with lock := some (l, va), loads := c.loads.filter (·.id != q.id) }).settle x.slot
              |>.lateIntegrity x.slot x.c q)
          | _ => none
    | _, _ => none) s

/-! ## Waits (R57, R338, R409) -/

/-- The conditions of a wait are evaluated again. -/
def execWaitConditionMet (s : State) : Host.Outcome State Fault Refusal :=
  .next (if s.halted then s else s.evaluate s.args.a)

/-- A wait's timeout expires: it completes with bit 8, or raises the timeout trap with the bits it would have returned.
DEDUCED (89). -/
def execWaitTimeout (s : State) : Host.Outcome State Fault Refusal :=
  .next (if s.halted then s else s.evaluate s.args.a)

/-- A realign wait ends by its own limit: n array clocks of its quad have passed, at the operating points that it had meanwhile
(R254, R338). DEDUCED (118). -/
def execRealignTimeout (s : State) : Host.Outcome State Fault Refusal :=
  event (fun s =>
    match (s.slotAt s.args.a).ctx with
    | none => none
    | some c =>
      match c.st with
      | .realign left since =>
        if s.halted ∨ (s.time - since) * pointMHz (s.quadAt (quadOf (coreOf s.args.a))).point < left then none
        else some ((s.putCtx (.slot s.args.a) c.realigned).realignTest (tileOf (coreOf s.args.a)))
      | _ => none) s

/-! ## From outside (R145, R483) -/

/-- The records of one pipe with the one at place `n` struck by an uncorrectable error, if it stands there whole (R483). -/
def strike (m : Map (List Rec)) (key n : Nat) : Option (Map (List Rec)) :=
  match (m.get key [])[n]? with
  | some (_ :: _) => some (m.set key ((m.get key []).set n []) [])
  | _ => none

/-- A wide soft error in record `e` of pipe `d`: one that the firing in slot `b` has reserved, one that a ready firing, of number
`b` among them, brings with it, or one that stands in the pipe of launch `b`. DEDUCED (65). -/
def State.strikeRecord (s : State) : Option State :=
  let at_ (m : Map (List Rec)) : Option (Map (List Rec)) := strike m s.args.d s.args.e
  if s.args.flag then
    (s.slotAt s.args.b).ctx.bind fun c => (at_ c.reserved).map fun m => s.putCtx (.slot s.args.b) { c with reserved := m }
  else if s.args.flag2 then
    (s.ready[s.args.b]?).bind fun r =>
      let put (r : Ready) : State := { s with ready := s.ready.set s.args.b r }
      match r.ctx with
      | some c => (at_ c.reserved).map fun m => put { r with ctx := some { c with reserved := m } }
      | none => (at_ r.recs).map fun m => put { r with recs := m }
  else
    (s.launches.get? s.args.b).bind fun l => (at_ l.records).map fun m => s.setLaunch s.args.b { l with records := m }

/-- A soft error: one of a single bit is corrected; a wider one in a line of a tier, or in its race tag, makes the line
uncorrectable, and one in a pipe record the record. DEDUCED (65). DEDUCED (70). -/
def execSoftError (s : State) : Host.Outcome State Fault Refusal :=
  event (fun s =>
    let l := lineOf s.args.b
    if s.args.a = 1 then if 2 ≤ s.args.c then s.strikeRecord else none
    else if 2 ≤ s.args.c ∧ populated l ∧ (tierOf l).isSome ∧ !s.badLines.contains l then
      some { s with badLines := l :: s.badLines }
    else none) s

/-- A place of the device's memory that a peer's request may reach. DEDUCED (71). -/
def State.peerReach (s : State) (pa : Nat) : Bool :=
  populated pa && !s.kernelFrame pa && !bankState pa &&
    match tierOf pa with
    | some 0 => false
    | some 1 => s.compute (tileOfPa pa)
    | some 2 => s.compute (tileOfPa pa)
    | some 3 => !s.unbacked pa
    | some _ => true
    | none => false

/-- A peer's read (kind 0), write (1) or atomic (2 and up, by the operation of R400) of device memory, at scale-up port
`d`, one of the 64 and set to UALink (R28, R29); an answer stands at the model's output port.
DEDUCED (71). DESIGN CHOICE (110). -/
def execUalinkTargetRequest (s : State) : Host.Outcome State Fault Refusal :=
  event (fun s =>
    let pa := s.args.b
    let n := s.args.c
    let port := s.args.d
    if 64 ≤ port ∨ s.host.etherPorts.contains port ∨ n = 0 ∨ 256 < n ∨
        !(List.range n).all fun i => s.peerReach (pa + i) then none
    else
      let answer (v : Nat) (s : State) : State :=
        { s with host := { s.host with readData := (List.range n).map (byteOf v) } }
      if s.args.a = 0 then some (answer (s.readMem 0 pa n) s)
      else if s.args.a = 1 then
        some ((s.writeMem 0 0 pa n (listNat (s.args.data.map (BitVec.ofNat 8)) 0 n)).mendRange pa n)
      else if (s.lockAt (lockOf pa)).owner.isSome ∨ (n ≠ 4 ∧ n ≠ 8) ∨ 11 < s.args.a then none
      else
        let (t, old) := s.atomicAt 0 pa n (s.args.a - 2) (BitVec.ofNat 64 (s.args.data.getD 0 0))
          (BitVec.ofNat 64 (s.args.data.getD 1 0))
        some (answer old t)) s

end Sys2Proof.Machine
end

