-- ==== Sys2Proof/Machine/Chains.lean ====
section
/-! DEFINITION. Command chains: the walk, the control entries, and the copy engine's entries (R104 to R106, R123, R135 to
R141, R161, R178, R382 to R385, R488). -/

namespace Sys2Proof.Machine

/-! ## The walk (R135 to R137) -/

/-- The engine at work on a chain: the copy engine of a tile, or a scan sequencer, which translates through the tile on
which its issuer was. -/
def Chain.eng (c : Chain) : Eng :=
  { path := if c.engine = 1 then 1 else 4, tile := if c.engine = 1 then c.node else c.origin.tile, origin := c.origin,
    engine := c.engine }

/-- The kinds of entry that an engine accepts (R135). -/
def chainAccepts (engine kind : Nat) : Bool :=
  kind == 0 || (decide (4 ≤ kind) && decide (kind ≤ 7)) ||
    (if engine = 1 then decide (1 ≤ kind) && decide (kind ≤ 3) else kind == 8)

/-- The entry that a walk has reached, or the error that ends it. DEDUCED (59). -/
def State.chainEntry (s : State) (c : Chain) : Except EStop (List Byte) :=
  if 2 ^ 20 ≤ c.walked then .error (.code errChain)
  else if c.entry % 32 ≠ 0 then .error (.code errAlign)
  else do
    let b ← s.engBytes c.eng blockPlace c.entry 32
    if chainAccepts c.engine (listNat b 0 1) then .ok b else .error (.code errChain)

def State.chainOf (s : State) (id : Nat) : Option Chain := s.chains.find? (·.id == id)

def State.setChain (s : State) (c : Chain) : State :=
  { s with chains := s.chains.map fun d => if d.id = c.id then c else d }

def State.dropChain (s : State) (c : Chain) : State := { s with chains := s.chains.filter (·.id != c.id) }

/-- The walk goes on at an entry. -/
def State.chainAt (s : State) (c : Chain) (entry : Nat) : State :=
  s.setChain { c with entry := entry % 2 ^ 64, walked := c.walked + 1 }

/-- The walk goes on at the next entry. DEDUCED (55). -/
def State.chainNext (s : State) (c : Chain) : State := s.chainAt c (c.entry + 32)

/-- Blocks that an entry names and the engine reads as it begins: address and length (R373, R383, R384). -/
def entryBlocks (b : List Byte) : List (Nat × Nat) :=
  match listNat b 0 1 with
  | 1 => if listNat b 1 1 = 1 then [(listNat b 8 8, 32), (listNat b 0x10 8, 32)] else []
  | 2 => [(listNat b 8 8, 32)]
  | _ => []

/-- The traps for uncorrectable lines of the entry and of the blocks that it names (R484). -/
def State.entryIntegrity (s : State) (c : Chain) : State :=
  if s.badLines = [] then s
  else
    match s.engBytes c.eng blockPlace c.entry 32 with
    | .ok b => s.integrityBlocks c.eng ((c.entry, 32) :: entryBlocks b)
    | .error _ => s

/-- The chain ends with an error (R488). -/
def State.chainFail (s : State) (c : Chain) (code : Nat) : State :=
  ((s.entryIntegrity c).dropChain c).report c.eng c.tag (4 * code) c.entry true

/-- The chain ends with an error that a line of one of its entries met, if it has not ended already (R488): earlier entries'
lines go on, and no later line is written. -/
def State.copyFail (s : State) (l : CopyLine) (code : Nat) : State :=
  let t := { s with
    copies := s.copies.filter fun q => !(q.chain == l.chain && decide (l.num ≤ q.num))
    chains := s.chains.filter (·.id != l.chain) }
  if (s.chainOf l.chain).isSome then
    t.report { path := 1, tile := l.node, origin := l.origin, engine := 1 } l.tag (4 * code) l.entry true
  else t

/-- What an entry's work comes to: it waits, it ends the chain with an error, or it is done. DEDUCED (55). -/
def State.chainDo (s : State) (c : Chain) (r : Except EStop State) : Option State :=
  match r with
  | .ok t => some (t.entryIntegrity c)
  | .error .wait => none
  | .error (.code e) => some (s.chainFail c e)

/-- Data entries begun earlier have completed their writes (R137). -/
def State.drained (s : State) (c : Chain) : Bool :=
  !(s.mcasts.any (·.chain == c.id)) && !(s.scans.any (·.chain == c.id)) && !(s.copies.any (·.chain == c.id))

/-- An event that carries out the entry a chain has reached, where it is of a kind. -/
def chainEvent (kind : Nat) (body : State → Chain → List Byte → Except EStop State) (s : State) :
    Host.Outcome State Fault Refusal :=
  event (fun s =>
    match s.chainOf s.args.a with
    | none => none
    | some c =>
      if s.scans.any (·.chain == c.id) ∨ s.halted then none
      else
        match s.chainEntry c with
        | .error _ => none
        | .ok b => if listNat b 0 1 = kind then s.chainDo c (body s c b) else none) s

/-- A chain-start message at an engine begins a walk (R371, R382, R394). -/
def State.chainStart (s : State) (engine node agent : Nat) : Option State :=
  match s.arrived.find? fun p => p.node == node && p.agent == agent with
  | none => none
  | some p =>
    let c : Chain :=
      { id := s.nextId, engine := engine, node := if engine = 1 then node else node - 1024, origin := p.origin,
        tag := p.aux % 2 ^ 24, entry := p.op0, stack := [], walked := 0, reports := 0 }
    some ({ s with
      nextId := s.nextId + 1
      arrived := s.arrived.eraseIdx (s.arrived.findIdx fun q : Packet => q.node == node && q.agent == agent)
      chains := s.chains ++ [c] }.engCross p.origin c.eng.path)

/-- `COPY_CHAIN_START` (R382). -/
def execCopyChainStart (s : State) : Host.Outcome State Fault Refusal :=
  event (fun s => if s.halted then none else s.chainStart 1 s.args.a 8) s

/-- `SCAN_CHAIN_START` (R394). DEDUCED (59). -/
def execScanChainStart (s : State) : Host.Outcome State Fault Refusal :=
  event (fun s => if s.halted then none else s.chainStart 4 (1024 + s.args.a) 12) s

/-! ## Control entries (R136, R137) -/

/-- `CHAIN_LOOP` (R136, R137). -/
def execChainLoop (s : State) : Host.Outcome State Fault Refusal :=
  chainEvent 4 (fun s c b =>
    let count := listNat b 4 4
    let back := listNat b 8 2
    if listNat b 1 3 ≠ 0 ∨ listNat b 10 22 ≠ 0 ∨ back = 0 ∨ 4095 < back then .error (.code errRange)
    else
      let top : Option (Nat × Nat) := c.stack.head?
      let fresh := top.map (·.1) ≠ some c.entry
      if fresh ∧ c.stack.length = 4 then .error (.code errChain)
      else
        let stack := if fresh then (c.entry, count) :: c.stack else c.stack
        match stack with
        | (e, n) :: rest =>
          if 0 < n then .ok (s.chainAt { c with stack := (e, n - 1) :: rest } (c.entry + 2 ^ 64 - 32 * back))
          else .ok (s.chainNext { c with stack := rest })
        | [] => .ok s) s

/-- A test of a word (R136, R137): `onZero` continues while the word is zero, otherwise while it is not. -/
def State.chainTest (s : State) (c : Chain) (b : List Byte) (onZero : Bool) : Except EStop State :=
  let skip := listNat b 1 1
  let va := listNat b 8 8
  if !s.drained c then .error .wait
  else if skip = 0 ∨ listNat b 2 6 ≠ 0 ∨ listNat b 0x10 16 ≠ 0 then .error (.code errRange)
  else if va % 8 ≠ 0 then .error (.code errAlign)
  else do
    let w ← s.engBytes c.eng tiers134 va 8
    let s := s.integrityAll c.eng va 8
    if (listNat w 0 8 == 0) == onZero then .ok (s.chainNext c) else .ok (s.chainAt c (c.entry + 32 * (skip + 1)))

/-- `CHAIN_IFZ` (R137). -/
def execChainIfz (s : State) : Host.Outcome State Fault Refusal := chainEvent 5 (fun s c b => s.chainTest c b true) s

/-- `CHAIN_IFNZ` (R137). -/
def execChainIfnz (s : State) : Host.Outcome State Fault Refusal := chainEvent 6 (fun s c b => s.chainTest c b false) s

/-- Bytes added to the arrived count of a barrier object: a bank operation at its home (R123, R173). -/
def State.barAdd (s : State) (home n : Nat) : State := s.bankWrite (home + 8) 8 ((s.bankRead (home + 8) 8 + n) % 2 ^ 64)

/-- `CHAIN_SIGNAL` (R136, R137): a bank operation waits for the line's lock bit (R122). -/
def execChainSignal (s : State) : Host.Outcome State Fault Refusal :=
  chainEvent 7 (fun s c b =>
    let mode := listNat b 1 1
    let target := listNat b 8 8
    let value := listNat b 0x10 8
    if !s.drained c then .error .wait
    else if 1 < mode ∨ listNat b 2 6 ≠ 0 ∨ listNat b 0x18 8 ≠ 0 then .error (.code errRange)
    else if mode = 1 then .ok ((s.postEvent c.origin (value % 2 ^ 24) 0 c.engine 0).chainNext c)
    else if target % 16 ≠ 0 then .error (.code errAlign)
    else do
      let home ← s.engKey c.eng .store target
      if !tiers134 home then .error (.code errPlace)
      else if (s.lockAt (lockOf home)).owner.isSome then .error .wait
      else .ok ((s.barAdd home value).chainNext c)) s

/-- `CHAIN_END` (R137): the completion is posted once every earlier write is at its home, if the tag is non-zero.  A walk
that has met an error ends here as well. -/
def execChainEnd (s : State) : Host.Outcome State Fault Refusal :=
  event (fun s =>
    match s.chainOf s.args.a with
    | none => none
    | some c =>
      if s.scans.any (·.chain == c.id) ∨ s.halted then none
      else
        match s.chainEntry c with
        | .error .wait => none
        | .error (.code e) => some (s.chainFail c e)
        | .ok b =>
          if listNat b 0 1 ≠ 0 then none
          else if listNat b 1 31 ≠ 0 then some (s.chainFail c errRange)
          else if !s.drained c then none
          else some ((s.dropChain c).report c.eng c.tag c.reports c.entry (c.tag != 0))) s

/-! ## Lines of COPY and DEAL entries (R137, R161, R178, R383, R385) -/

/-- The bytes of a copy whose source and destination overlap (R383): an element of `e` bytes is the old source element, or what the
entry has written there, as a bit of a free number has it for the whole element. DESIGN CHOICE (56). -/
def overlapBytes (bits e : Nat) : Map Byte → List (Nat × Nat × Nat × Byte) → List (Nat × Byte)
  | _, [] => []
  | w, (n, src, dst, b) :: l =>
    let v := if bits / 2 ^ (n / e) % 2 = 1 then (w.get? src).getD b else b
    (dst, v) :: overlapBytes bits e (w.insert dst v) l

/-- The writes of a line: number of the byte, source address, destination address and the old source byte.
DESIGN CHOICE (56). -/
def State.copyWrites (s : State) (l : List (Nat × Nat × Nat × Byte)) (overlap : Bool) (e : Nat) : List (Nat × Byte) :=
  if overlap then
    let bits := Config.freePick s.fresh
    overlapBytes (bits / 2) e [] (if bits % 2 = 0 then l else l.reverse)
  else l.map fun p => (p.2.2.1, p.2.2.2)

/-- Two ranges of addresses meet. -/
def rangesMeet (a n b m : Nat) : Bool := decide (a < b + m) && decide (b < a + n)

/-- The address range that a tensor tile spans. -/
def Desc.extent (d : Desc) : Nat := d.elems.foldl (fun m p => Nat.max m (d.offset p.1 p.2 + d.e)) 0

/-- Bytes gathered by destination line, in ascending order. -/
def gatherCells (l : List (Nat × Nat)) : List (List (Nat × Nat)) :=
  (l.foldl (fun (m : Map (List (Nat × Nat))) p =>
    m.insert (lineOf p.2) ((m.get? (lineOf p.2)).getD [] ++ [p])) []).map (·.2)

/-- The error that some bytes of an entry meet where it starts: one whose translation is known and that lies where it may not
(R370, R488). -/
def State.cellsFault (s : State) (e : Eng) (u : Use) (vas : List Nat) : Option Nat :=
  vas.findSome? fun va =>
    match s.engKey e u va with
    | .error (.code c) => if c = errXlate then none else some c
    | .error .wait => none
    | .ok key => if anyTier key then none else some errPlace

/-- An entry begins: its lines are to be written, in any order, and the walk goes on (R137). DEDUCED (55). -/
def State.beginLines (s : State) (c : Chain) (dst : CopyDst) (overlap : Bool) (lines : List (List (Nat × Nat)))
    (size : Nat := 1) : State :=
  let new := (List.range lines.length).map fun i : Nat =>
    ({ id := s.nextId + i, chain := c.id, node := c.node, origin := c.origin, tag := c.tag, entry := c.entry, num := c.walked,
       dst := dst, cells := lines.getD i [], overlap := overlap, size := size } : CopyLine)
  { s with copies := s.copies ++ new, nextId := s.nextId + lines.length }

def CopyLine.eng (l : CopyLine) : Eng := { path := 1, tile := l.node, origin := l.origin, engine := 1 }

/-- Who writes a line: in the share of a firing, for that firing. -/
def CopyLine.writer (l : CopyLine) : Eng :=
  match l.dst with
  | .share uid => { l.eng with origin := { l.origin with uid := uid } }
  | _ => l.eng

/-- The key of a destination byte. -/
def State.copyKey (s : State) (l : CopyLine) (a : Nat) : Except EStop Nat :=
  match l.dst with
  | .virt => do
    let key ← s.engKey l.eng .store a
    if anyTier key then .ok key else .error (.code errPlace)
  | .phys => if s.migrating a then .error .wait else if s.kernelFrame a then .error (.code errPlace) else .ok a
  | .share uid => if (s.ctxOfUid uid).isSome then .ok (shareBase + a) else .error (.code errXlate)

/-- Source bytes, one after another. -/
def State.cellBytes (s : State) (e : Eng) : List Nat → Except EStop (List Byte)
  | [] => .ok []
  | va :: l => do
    let b ← s.engBytes e anyTier va 1
    let m ← s.cellBytes e l
    .ok (b.headD 0 :: m)

def State.copyKeys (s : State) (l : CopyLine) : List Nat → Except EStop (List (Nat × Nat))
  | [] => .ok []
  | a :: m => do
    let key ← s.copyKey l a
    let r ← s.copyKeys l m
    .ok ((a, key) :: r)

/-- A line is read and written, whole (R161). DESIGN CHOICE (57). -/
def State.copyLine (s : State) (l : CopyLine) : Except EStop State := do
  let bytes ← s.cellBytes l.eng (l.cells.map (·.1))
  let keys ← s.copyKeys l (l.cells.map (·.2))
  let cells := (List.range l.cells.length).map fun n =>
    let p := l.cells.getD n (0, 0)
    (n, p.1, p.2, bytes.getD n 0)
  let t := (s.copyWrites cells l.overlap l.size).foldl (fun t p =>
    match keys.find? (·.1 == p.1) with
    | some k => t.putKey l.writer k.2 p.2
    | none => t) s
  let t := t.mendKeys l.writer (keys.map (·.2))
  let read := (l.cells.map fun p => lineOf p.1).eraseDups
  .ok (if s.badLines = [] then t else read.foldl (fun t a => t.integrityAll l.eng a 64) t)

/-- A line of an entry that has begun is written, or meets its error (R488). -/
def lineEvent (kind : CopyLine → Bool) (s : State) : Host.Outcome State Fault Refusal :=
  event (fun s =>
    match s.copies.find? fun l => l.id == s.args.b && l.chain == s.args.a && kind l with
    | none => none
    | some l =>
      match s.copyLine l with
      | .error .wait => none
      | .error (.code e) => some (s.copyFail l e)
      | .ok t => some { t with copies := t.copies.filter (·.id != l.id) }) s

/-! ## COPY (R383) -/

/-- A COPY entry begins. -/
def State.beginCopy (s : State) (c : Chain) (b : List Byte) : Except EStop State :=
  let mode := listNat b 1 1
  let len := listNat b 4 4
  let src := listNat b 8 8
  let dst := listNat b 0x10 8
  let go (l : List (Nat × Nat)) (overlap : Bool) (size : Nat) : Except EStop State :=
    match (s.cellsFault c.eng .load (l.map (·.1))).orElse fun _ => s.cellsFault c.eng .store (l.map (·.2)) with
    | some e => .error (.code e)
    | none => .ok ((s.beginLines c .virt overlap (gatherCells l) size).chainNext c)
  if 1 < mode ∨ listNat b 2 2 ≠ 0 ∨ listNat b 0x18 8 ≠ 0 ∨ (mode = 0 ∧ len = 0) ∨ (mode = 1 ∧ len ≠ 0) then
    .error (.code errRange)
  else if mode = 0 then go ((List.range len).map fun n => (src + n, dst + n)) (rangesMeet src len dst len) 1
  else do
    let rs ← s.tileRecord c.eng src
    let rd ← s.tileRecord c.eng dst
    if rs.desc.rows ≠ rd.desc.rows ∨ rs.desc.cols ≠ rd.desc.cols ∨ rs.desc.e ≠ rd.desc.e then .error (.code errRange)
    else
      go (rs.desc.elems.flatMap fun p => (List.range rs.desc.e).map fun k =>
        (rs.base + rs.desc.offset p.1 p.2 + k, rd.base + rd.desc.offset p.1 p.2 + k))
        (rangesMeet rs.base rs.desc.extent rd.base rd.desc.extent) rs.desc.e

/-- `CHAIN_COPY` (R105, R383): the entry begins, or, where `b` names one, a line of it is copied. -/
def execChainCopy (s : State) : Host.Outcome State Fault Refusal :=
  if s.args.b = 0 then chainEvent 1 State.beginCopy s else lineEvent (·.dst == .virt) s

/-! ## MCAST (R138 to R141, R384) -/

/-- Bytes by offset gathered into lines, in ascending order: offset, mask and data. -/
def gatherLines (l : List (Nat × Byte)) : List (Nat × BitVec 64 × BitVec 512) :=
  (l.foldl (fun (m : Map (BitVec 64 × BitVec 512)) p =>
    let o := lineOf p.1
    let old := (m.get? o).getD (0, 0)
    let i := p.1 % 64
    let keep := old.2.toNat % 2 ^ (8 * i) + 2 ^ (8 * (i + 1)) * (old.2.toNat / 2 ^ (8 * (i + 1)))
    m.insert o (old.1 ||| BitVec.ofNat 64 (2 ^ i), BitVec.ofNat 512 (keep + 2 ^ (8 * i) * p.2.toNat))) [])

/-- The receivers of a mask: logical tile and quad (R138). -/
def receivers (g0 mask : Nat) : List (Nat × Nat) :=
  ((List.range 64).filter fun k => mask / 2 ^ k % 2 == 1).map fun k => (g0 + k / 2, k % 2)

/-- A tile lies on the way of a packet: along its row to the destination column, then along the column, through row 0 to the
other die (R127). -/
def onWay (src dst t : Nat) : Bool :=
  let between (a b n : Nat) : Bool := decide (Nat.min a b ≤ n) && decide (n ≤ Nat.max a b)
  let row (n : Nat) : Nat := n % 512 / 32
  let turn := src / 512 * 512 + row src * 32 + dst % 32
  (t / 32 == src / 32 && between (src % 32) (dst % 32) (t % 32)) ||
    (t % 32 == dst % 32 &&
      if src / 512 = dst / 512 then t / 512 == dst / 512 && between (row turn) (row dst) (row t)
      else (t / 512 == src / 512 && decide (row t ≤ row src)) || (t / 512 == dst / 512 && decide (row t ≤ row dst)))

/-- The routing tile at which line `n` of a multicast is staged, if any: an operand of the event names it, and it lies on the
way, in routing role and not in a recast (R92, R138). DESIGN CHOICE (139). -/
def State.stageAt (s : State) (src dst n : Nat) : Option Nat :=
  ((s.args.pairs.find? (·.1 == n)).map (·.2)).filter fun t =>
    onWay src dst t && field (s.roleOf t) 0 2 == 2 && field (s.roleOf t) 2 3 == 0

/-- A line leaves the tile that staged it: of the last one a recast of that tile keeps the time (R92, R503). -/
def State.unstage (s : State) (l : McastLine) : State :=
  if l.staged.isNone ∨ s.mcasts.any (·.staged == l.staged) then s
  else { s with recasts := s.recasts.map fun r =>
    if l.staged == some r.tile then { r with ackAt := r.ackAt.map fun _ => s.time } else r }

/-- The lines of a multicast to one receiver. -/
def mcastLines (c : Chain) (id : Nat) (ann : Option Nat) (barrier : Nat) (lines : List (Nat × BitVec 64 × BitVec 512))
    (r : Nat × Nat) (tile : Nat) (stage : Nat → Option Nat) : List McastLine :=
  (List.range lines.length).map fun i =>
    let l := lines.getD i (0, 0, 0)
    { id := id + i, chain := c.id, announced := ann, ordered := false, tile := tile, launch := c.origin.launch,
      gen := c.origin.gen, logical := r.1, quad := r.2, offset := l.1, mask := l.2.1, data := l.2.2, barrier := barrier,
      origin := c.origin, staged := stage (id + i) }

/-- The multicast sets out: one line after another for each receiver, announced where the receivers lie in more than one
tile (R140).  Its announcer is the issuer's slot where that is on the engine's tile, and otherwise the first slot of the engine's
tile. DEDUCED (58). DESIGN CHOICE (144). -/
def State.sendMcast (s : State) (c : Chain) (barrier : Nat) (lines : List (Nat × BitVec 64 × BitVec 512))
    (rs : List ((Nat × Nat) × Nat)) : State :=
  let many := decide (1 < ((rs.map (·.2)).eraseDups).length)
  let slot := if c.origin.tile = c.node then c.origin.slot else coreBase c.node * 8
  let a : Announce :=
    { id := 0, window := 0, kind := 1, scope := 0, slot := slot, inc := c.origin.inc, serial := (s.slotAt slot).serial.toNat,
      x := c.id, y := 0,
      entries := [] }
  let ann := if many then some s.nextId else none
  let s := if many then s.announce a else s
  let first := s.nextId
  rs.foldl (fun s r => { s with
    mcasts := s.mcasts ++ mcastLines c s.nextId ann barrier lines r.1 r.2 fun n => s.stageAt c.node r.2 (n - first)
    nextId := s.nextId + lines.length }) s

/-- Elements of a tensor tile up to the first whose address does not translate. -/
def State.readableElems (s : State) (e : Eng) (r : TileRec) : List (Nat × Nat) → List (Nat × Nat)
  | [] => []
  | p :: l =>
    match s.engBytes e anyTier (r.base + r.desc.offset p.1 p.2) r.desc.e with
    | .ok _ => p :: s.readableElems e r l
    | .error _ => []

/-- The bytes that a multicast writes at each receiver, by offset. -/
def State.mcastBytes (s : State) (e : Eng) (r : TileRec) (doff : Nat) (elems : List (Nat × Nat)) :
    Except EStop (List (Nat × Byte)) := do
  let l ← s.elemBytes e anyTier r elems
  .ok ((elems.zip l).flatMap fun p => bytesAt (doff + r.desc.offset p.1.1 p.1.2) p.2)

/-- `CHAIN_MCAST` (R384).  Where a source address does not translate, lines that need nothing from there on may have been
written, which comes before the error is reported (R488).  An offset of the barrier object that is no multiple of 16 ends it with
ALIGN. DESIGN CHOICE (57). DEDUCED (145). DESIGN CHOICE (176). -/
def execChainMcast (s : State) : Host.Outcome State Fault Refusal :=
  chainEvent 2 (fun s c b =>
    let g0 := listNat b 2 2
    let doff := listNat b 4 4
    let mask := listNat b 0x10 8
    let boff := listNat b 0x18 4
    if c.failing ≠ 0 then if s.drained c then .error (.code c.failing) else .error .wait
    else if listNat b 1 1 ≠ 0 ∨ listNat b 0x1C 4 ≠ 0 then .error (.code errRange)
    else if boff % 16 ≠ 0 then .error (.code errAlign)
    else if mask = 0 then .ok (s.chainNext c)
    else do
      let r ← s.tileRecord c.eng (listNat b 8 8)
      let rs := receivers g0 mask
      let tiles := rs.map fun r => s.logicalTile c.origin r.1
      let end_ := doff + r.desc.extent
      let go (bytes : List (Nat × Byte)) (n : Option Nat) (s : State) : State :=
        let lines := gatherLines bytes
        s.sendMcast c boff (lines.take (n.getD lines.length)) (rs.zip (tiles.map (·.getD 0)))
      let kernel (t : Option Nat) (q : Nat) : Bool := t.any fun t =>
        s.kernelFrame (quadBase t q + boff) || (List.range (r.desc.extent / 64 + 2)).any fun i =>
          decide (lineOf doff + 64 * i < end_) && s.kernelFrame (quadBase t q + Nat.max doff (lineOf doff + 64 * i))
      if doff % r.desc.e ≠ 0 then .error (.code errAlign)
      else if tiles.any (·.isNone) ∨ 0x100000 < end_ ∨ 0x100000 < boff + 16 then .error (.code errRange)
      else if 0xDC000 < end_ ∨ 0xDC000 < boff + 16 ∨ (tiles.zip rs).any (fun p => kernel p.1 p.2.2) then
        .error (.code errPlace)
      else
        match s.mcastBytes c.eng r doff r.desc.elems with
        | .ok bytes => .ok ((go bytes none (s.integrityTile c.eng r)).chainNext c)
        | .error .wait => .error .wait
        | .error (.code e) =>
          let known := s.readableElems c.eng r r.desc.elems
          let s := s.integrityElems c.eng r known
          if e ≠ errXlate then .ok (s.setChain { c with failing := e })
          else
            let bytes ← s.mcastBytes c.eng r doff known
            let rest := (r.desc.elems.drop known.length).map fun p => lineOf (doff + r.desc.offset p.1 p.2)
            let whole := bytes.filter fun p => !rest.contains (lineOf p.1)
            let count := s.pick ((gatherLines whole).length + 1)
            .ok ((go whole (some count) s).setChain { c with failing := e })) s

/-- A line of a multicast may be written: its announcement is delivered, no rebinding of its tile is on its way, no page
migration holds it back, no line of an earlier announced multicast to the same place is on its way (R140), and no lock bit
holds back its arrival (R122). DEDUCED (52). DEDUCED (58). -/
def State.mcastReady (s : State) (l : McastLine) : Bool :=
  let home := s.mcastHome l
  let bar := s.mcastBarrier l
  l.announced.isNone && !(s.pan.any fun a => a.kind == 3 && a.y == 6 && a.x == s.mcastTile l) && !s.migrating home &&
    !s.migrating bar && (s.lockAt (lockOf bar)).owner.isNone &&
    !(l.ordered && ((s.mcasts.takeWhile (·.id != l.id)).any fun m => m.ordered && s.mcastHome m == home))

/-- `MCAST_LINE_ARRIVAL` (R139, R141): the line is written as one write, and its bytes are added at the barrier object; where either
has come to lie in a kernel-reserved frame, neither takes place, and the chain ends with PLACE (R265). DEDUCED (145). -/
def execMcastLineArrival (s : State) : Host.Outcome State Fault Refusal :=
  event (fun s =>
    match s.mcasts.find? (·.id == s.args.a) with
    | none => none
    | some l =>
      if !s.mcastReady l then none
      else
        let line : Line := { home := s.mcastHome l, va := 0, mask := l.mask, data := l.data }
        let n := ((List.range 64).filter fun i => l.mask.getLsbD i).length
        let bar := s.mcastBarrier l
        let s := { s with mcasts := s.mcasts.filter (·.id != l.id) }
        if s.kernelFrame line.home ∨ s.kernelFrame bar then
          some (((s.chainOf l.chain).map fun c => (s.unstage l).chainFail c errPlace).getD (s.unstage l))
        else some ((((s.unstage l).writeLine 1 0 0 line).mended line).barAdd bar n)) s

/-! ## DEAL (R106, R385) -/

/-- The firing of an actor of the issuer's gang instance (R43, R106). DEDUCED (61). -/
def State.gangMember (s : State) (o : Origin) (actor : Nat) : Option Nat :=
  let mine (c : Ctx) : Bool :=
    c.launch == o.launch && c.gen == o.gen && c.actor == actor && c.wid.toNat * 32 == o.pipes && c.kind == 0
  match s.slots.find? fun e => e.2.ctx.any mine with
  | some e => e.2.ctx.map (·.uid)
  | none => ((s.ready.find? fun r => r.ctx.any mine).bind (·.ctx)).map (·.uid)

/-- The destination of block `i` of a DEAL entry: where its bytes go, and its first address or offset (R106).
DEDUCED (61). -/
def State.dealPlace (s : State) (o : Origin) (mode t0 n dbase blk stride i : Nat) : CopyDst × Nat :=
  let k := i % n
  let off := dbase + i / n * blk
  if mode = 0 then
    (.phys, quadBase ((s.logicalTile o (t0 + k / 8)).getD 0) (k % 8 / 4) + off + k % 4 * stride)
  else (.share ((s.gangMember o k).getD 0), off)

/-- A DEAL entry begins. DEDUCED (61). DEDUCED (145). -/
def State.beginDeal (s : State) (c : Chain) (b : List Byte) : Except EStop State :=
  let mode := listNat b 1 1
  let t0 := listNat b 2 2
  let nbytes := listNat b 4 4
  let src := listNat b 8 8
  let dbase := listNat b 0x10 8
  let blk := listNat b 0x18 2
  let n := listNat b 0x1A 1
  let stride := listNat b 0x1C 4
  if 1 < mode ∨ listNat b 0x1B 1 ≠ 0 ∨ blk < 64 ∨ 8192 < blk ∨ blk % 64 ≠ 0 ∨ n = 0 ∨ 64 < n ∨ nbytes % blk ≠ 0 then
    .error (.code errRange)
  else
    let area := (nbytes + blk * n - 1) / (blk * n) * blk
    let gang := ((s.launchOf c.origin.launch c.origin.gen).map (·.gang)).getD false
    let actors := ((s.launchOf c.origin.launch c.origin.gen).map (·.actors.length)).getD 0
    let tiles := (List.range n).map fun k => s.logicalTile c.origin (t0 + k / 8)
    let last := dbase + (if 4 ≤ n then 3 else n - 1) * stride + area
    if mode = 0 ∧ (tiles.any (·.isNone) ∨ stride < area ∨ 0x100000 < last) then .error (.code errRange)
    else if mode = 0 ∧ (0xDC000 < last ∨ (List.range (nbytes / blk)).any fun i =>
        let a := (s.dealPlace c.origin mode t0 n dbase blk stride i).2
        (List.range blk).any fun j => s.kernelFrame (s.followed (a + j))) then .error (.code errPlace)
    else if mode = 1 ∧ (!gang ∨ c.origin.kind ≠ 0 ∨ actors < n ∨ 0x2000 < dbase + area) then .error (.code errRange)
    else
      match s.cellsFault c.eng .load ((List.range nbytes).map (src + ·)) with
      | some e => .error (.code e)
      | none =>
        .ok (((List.range (nbytes / blk)).foldl (fun t i =>
          let p := s.dealPlace c.origin mode t0 n dbase blk stride i
          t.beginLines c p.1 false (gatherCells ((List.range blk).map fun j =>
            (src + i * blk + j, if mode = 0 then s.followed (p.2 + j) else p.2 + j)))) s).chainNext c)

/-- `CHAIN_DEAL` (R106, R385): the entry begins, or, where `b` names one, a line of it is dealt. DEDUCED (61). -/
def execChainDeal (s : State) : Host.Outcome State Fault Refusal :=
  if s.args.b = 0 then chainEvent 3 State.beginDeal s else lineEvent (·.dst != .virt) s

end Sys2Proof.Machine
end

