-- ==== Sys2Proof/Machine/MatrixUnit.lean ====
section
/-! DEFINITION. The matrix unit: its queues and arbiter (R210, R211), sub-tile ownership (R213), and what its commands
compute (R206 to R209, R215 to R225, R376 to R381). -/

namespace Sys2Proof.Machine

/-! ## Queues (R210, R378) -/

/-- A core's queue is full (R210). -/
def State.queueFull (s : State) (core : Nat) : Bool := decide (8 ≤ (s.coreAt core).mq.length)

/-- A sub-tile is owned by another firing (R213). -/
def State.foreign (s : State) (uid core k : Nat) : Bool :=
  match (s.subAt core k).owner with
  | some o => o != uid
  | none => false

/-- A firing owns a sub-tile (R213), which it may have named through a logical tile (R218). -/
def State.own (s : State) (uid core k : Nat) (logical : Option Nat := none) : State :=
  s.setSub core k { s.subAt core k with owner := some uid, logical := logical }

/-! ## The arbiter (R211) -/

/-- A block of the same `MMAG` with a lower r is still to be granted on this tile (R217). -/
def State.blockBefore (s : State) (m : MCmd) : Bool :=
  let earlier (q : MCmd) : Bool := q.kind == 2 && q.gang == m.gang && decide (q.core < m.core)
  let tile := tileOf m.core
  m.kind == 2 && ((s.tileAt tile).mwait.any earlier ||
    (List.range 8).any fun i => (s.coreAt (coreBase tile + i)).mq.any earlier)

/-- The head of a core's queue may be granted: no other firing owns its sub-tile (R378), and the blocks of an `MMAG` come in
ascending r (R217). -/
def State.grantable (s : State) (core : Nat) : Option MCmd :=
  match (s.coreAt core).mq with
  | [] => none
  | m :: _ => if (m.usesSub && s.foreign m.origin.uid core m.k) || s.blockBefore m then none else some m

/-- The core whose turn it is, and the commands it has been granted in it: the current one while it has weight left and a
command to grant, else the next one that has. -/
def State.turn (s : State) (tile : Nat) : Option (Nat × Nat × MCmd) :=
  let t := s.tileAt tile
  let first := coreBase tile
  let here := if t.arbGiven < (s.coreAt (first + t.arbCore)).mxw.toNat then s.grantable (first + t.arbCore) else none
  match here with
  | some m => some (t.arbCore, t.arbGiven, m)
  | none => (List.range 8).findSome? fun i =>
      let c := (t.arbCore + 1 + i) % 8
      (s.grantable (first + c)).map fun m => (c, 0, m)

/-- The next grant of a tile's arbiter: a queue that it empties ends the core's turn (R211). -/
def State.grant (s : State) (tile : Nat) : Option State :=
  match s.turn tile with
  | none => none
  | some (c, n, m) =>
    let core := coreBase tile + c
    let k := s.coreAt core
    let s := s.setCore core { k with mq := k.mq.drop 1 }
    let s := if m.usesSub then s.own m.origin.uid core m.k m.logical else s
    let t := s.tileAt tile
    let t := { t with granted := t.granted ++ [m] }
    let done := (k.mq.drop 1).isEmpty
    some ((s.setTile tile { t with
      arbUsed := true
      arbCore := if done then (c + 1) % 8 else c
      arbGiven := if done then 0 else n + 1 }).enterQueues tile)

/-! ## Operands -/

/-- The engine at work on a command. -/
def MCmd.eng (m : MCmd) : Eng := { path := 2, tile := tileOf m.core, origin := m.origin, engine := 2 }

/-- Bytes of `n` codes or elements of a format (R208): 0 bf16, 1 f16, 2 int8, 3 int4. -/
def fmtBytes (f n : Nat) : Nat := if f ≤ 1 then 2 * n else if f = 2 then n else n / 2

/-- Element `i` of packed bytes (R193). -/
def codeAt (f : Nat) (b : List Byte) (i : Nat) : Nat :=
  if f ≤ 1 then listNat b (2 * i) 2
  else if f = 2 then listNat b i 1
  else (b.getD (i / 2) 0).toNat / 16 ^ (i % 2) % 16

/-- The start of a tile's overlay slice (R94). -/
def overlayBase (tile : Nat) : Nat := 0x4000000000000 + tile * 0x800000 + 0x400000

/-- The quad store that holds a physical address. -/
def quadStoreOf (pa : Nat) : Nat := pa / 0x100000

/-- Fields of `cr.pfx` (R220). -/
def pfxA (w : Word) : Nat := field w 0 3
def pfxB (w : Word) : Nat := field w 3 3
def pfxGroup (w : Word) : Nat := 32 * 2 ^ field w 6 2
def pfxReg (w : Word) : BitVec 5 := BitVec.ofNat 5 (field w 8 5)

/-- A format is a grouped integer format (R207). -/
def fmtGrouped (f : Nat) : Bool := f == 2 || f == 3

/-- Where a byte of a panel is now (R90, R179). -/
def MCmd.follow (m : MCmd) (pa : Nat) : Nat :=
  m.pages.foldl (fun a p => if p.1 ≤ a ∧ a < p.1 + p.2.1 then p.2.2 + (a - p.1) else a) pa

/-- The rows of A (R376, R377): for each, its bytes. -/
def State.aRows (s : State) (m : MCmd) : Except EStop (List (List Byte)) :=
  let e := m.eng
  let n := fmtBytes (pfxA m.pfx) m.n
  let p := if m.apitch = 0 then n else m.apitch
  if m.kind = 2 then
    if 0x100000 < m.panelOff + 63 * p + n then .error (.code errRange)
    else
      let rows := (List.range 64).map fun i => (List.range n).map fun j => m.follow (m.panel + i * p + j)
      if rows.any (·.any s.kernelFrame) then .error (.code errPlace)
      else .ok (rows.map (·.map fun a => s.keyByte e a a))
  else do
    let first ← s.engKey e .load m.a.toNat
    let ok (key : Nat) : Bool :=
      keyTier key == some 1 && tileOfPa key == e.tile && quadStoreOf key == quadStoreOf first
    (List.range 64).mapM fun i => s.engBytes e ok (m.a.toNat + i * p) n

/-- Bytes of some column slice lie in a kernel-reserved frame, which the matrix unit may not reach (R265). DEDUCED (145). -/
def State.sliceBarred (s : State) (m : MCmd) (off n : Nat) : Bool :=
  (List.range 64).any fun j => s.kernelPart (overlayBase (tileOf m.core) + j * 0x10000 + off) n

/-- Column `j` of the B block, from its column slice (R208). -/
def State.bCol (s : State) (m : MCmd) (off n j : Nat) : List Byte :=
  s.physBytes m.eng (overlayBase m.eng.tile + j * 0x10000 + off) n

/-- Scales and zero points of one operand: for each row or column and group. -/
abbrev Quant := List (List (Nat × Nat))

/-- The descriptor's A side (R222): groups of a row in turn. -/
def State.aQuant (s : State) (m : MCmd) (d : List Byte) (groups : Nat) : Except EStop Quant := do
  let e := m.eng
  let f := pfxA m.pfx
  let panel := if regionOf (m.follow m.panel) = 2 then m.follow m.panel else m.panel
  let home := if m.kind = 2 then tileOfPa panel else e.tile
  let ok (key : Nat) : Bool := (keyTier key == some 1 || keyTier key == some 2) && tileOfPa key == home
  let sc ← s.engBytes e ok (listNat d 0 8) (128 * groups)
  let zp ← s.engBytes e ok (listNat d 8 8) (fmtBytes f (64 * groups))
  .ok ((List.range 64).map fun i => (List.range groups).map fun h =>
    (listNat sc (2 * (i * groups + h)) 2, codeAt f zp (i * groups + h)))

/-- The descriptor's B side: each column reads its own slice (R222).  Scales or zero points that pass the end of the slice end
with RANGE. DESIGN CHOICE (146). -/
def State.bQuant (s : State) (m : MCmd) (d : List Byte) (groups : Nat) : Except EStop Quant :=
  let f := pfxB m.pfx
  let sb := listNat d 0x10 8
  let zb := listNat d 0x18 8
  let zn := (fmtBytes 2 groups + (if f = 3 then 1 else 0)) / (if f = 3 then 2 else 1)
  if 0x10000 < sb + 2 * groups ∨ 0x10000 < zb + zn then .error (.code errRange)
  else if s.sliceBarred m sb (2 * groups) ∨ s.sliceBarred m zb zn then .error (.code errPlace)
  else .ok ((List.range 64).map fun j =>
    let sc := s.bCol m sb (2 * groups) j
    let zp := s.bCol m zb zn j
    (List.range groups).map fun h => (listNat sc (2 * h) 2, codeAt f zp h))

/-! ## Multiplication (R198, R199, R215) -/

/-- One element in floating-point formats: blocks of 32 products in ascending order (R198). -/
def mmaFloat (acc : Nat) (ps : List (FV × FV)) : Nat :=
  (List.range ((ps.length + 31) / 32)).foldl (fun acc b =>
    let S := (dotSum (((ps.drop (32 * b)).take 32).map fun p => p.1.mul p.2)).1
    (f32.add 0 (f32.decode acc) S).1) acc

/-- The exact partial of one group (R199). -/
def groupSum (qs : List (Nat × Nat)) (za zb : Nat) : Int :=
  (qs.map fun q => ((q.1 : Int) - za) * ((q.2 : Int) - zb)).sum

/-- One element in grouped formats: groups in ascending order (R199). -/
def mmaGrouped (acc g : Nat) (qs : List (Nat × Nat)) (qa qb : List (Nat × Nat)) : Nat :=
  (List.range (qs.length / g)).foldl (fun acc h =>
    let a := qa.getD h (0, 0)
    let b := qb.getD h (0, 0)
    let P := groupSum ((qs.drop (g * h)).take g) a.2 b.2
    let scale := ((f16.decode a.1).mul (f16.decode b.1)).1
    let w := f32.rne ((FV.fin (decide (P < 0)) P.natAbs 0).mul scale).1
    (f32.add 0 (f32.decode acc) (f32.decode w)).1) acc

/-- A sub-tile from its elements, row-major. -/
def subOf (l : List Nat) : Map (BitVec 32) :=
  (List.range l.length).filterMap fun i =>
    let v := BitVec.ofNat 32 (l.getD i 0)
    if v = 0 then none else some (i, v)

/-- The elements of a sub-tile that an `MMA` or a block of an `MMAG` leaves. -/
def mmaResult (fa fb g : Nat) (sub : Map (BitVec 32)) (rows cols : List (List Byte)) (qa qb : Quant) (K : Nat) : List Nat :=
  (List.range 4096).map fun i =>
    let r := rows.getD (i / 64) []
    let c := cols.getD (i % 64) []
    let acc := (sub.get i 0).toNat
    let pairs := (List.range K).map fun k => (codeAt fa r k, codeAt fb c k)
    if fmtGrouped fa then mmaGrouped acc g pairs (qa.getD (i / 64) []) (qb.getD (i % 64) [])
    else
      let f (t : Nat) : Fmt := if t = 0 then bf16 else f16
      mmaFloat acc (pairs.map fun p => ((f fa).decode p.1, (f fb).decode p.2))

/-- The traps for uncorrectable lines in one operand's bytes, and in its scales and zero points, of each column slice. -/
def State.integritySlices (s : State) (m : MCmd) (off n : Nat) : State :=
  (List.range 64).foldl (fun s j => s.integrityPhys m.eng (overlayBase m.eng.tile + j * 0x10000 + off) n) s

/-- The traps for uncorrectable lines in the descriptor of a multiply, and in the scales and zero points that it names. -/
def State.integrityQuant (s : State) (m : MCmd) : State :=
  match s.engBytes m.eng (fun _ => true) m.qaddr.toNat 32 with
  | .ok d =>
    let n := m.n / pfxGroup m.pfx
    let s := s.integrityBlocks m.eng
      [(m.qaddr.toNat, 32), (listNat d 0 8, 128 * n), (listNat d 8 8, fmtBytes (pfxA m.pfx) (64 * n))]
    (s.integritySlices m (listNat d 0x10 8) (2 * n)).integritySlices m (listNat d 0x18 8) ((fmtBytes (pfxB m.pfx) (2 * n) + 1) / 2)
  | .error _ => s

/-- The traps for uncorrectable lines among the operands of a multiply (R484). -/
def State.integrityMma (s : State) (m : MCmd) : State :=
  if s.badLines = [] then s
  else
    let n := fmtBytes (pfxA m.pfx) m.n
    let p := if m.apitch = 0 then n else m.apitch
    let s := (List.range 64).foldl (fun s i =>
      if m.kind = 2 then
        ((List.range n).map fun j => lineOf (m.follow (m.panel + i * p + j))).eraseDups.foldl (fun s a => s.integrityPhys m.eng a 64) s
      else s.integrityAll m.eng (m.a.toNat + i * p) n) s
    let s := s.integritySlices m m.b.toNat (fmtBytes (pfxB m.pfx) m.n)
    if fmtGrouped (pfxA m.pfx) then s.integrityQuant m else s

/-- `MMA` and a block of `MMAG` (R215, R376, R377). -/
def State.mma (s : State) (m : MCmd) : Except EStop State :=
  let fa := pfxA m.pfx
  let fb := pfxB m.pfx
  let g := pfxGroup m.pfx
  let groups := m.n / g
  let bn := fmtBytes fb m.n
  let off := m.b.toNat
  if (m.kind = 1 ∧ m.a.toNat % 64 ≠ 0) ∨ off % 64 ≠ 0 then .error (.code errAlign)
  else if 0x10000 < off + bn then .error (.code errRange)
  else if s.sliceBarred m off bn then .error (.code errPlace)
  else do
    let rows ← s.aRows m
    let cols := (List.range 64).map (s.bCol m off bn)
    let (qa, qb) ←
      if fmtGrouped fa then
        if m.qaddr.toNat % 32 ≠ 0 then .error (.code errAlign)
        else do
          let ok (key : Nat) : Bool := (keyTier key == some 1 || keyTier key == some 2) &&
            (m.kind == 2 || tileOfPa key == m.eng.tile)
          let d ← s.engBytes m.eng ok m.qaddr.toNat 32
          let qa ← s.aQuant m d groups
          let qb ← s.bQuant m d groups
          .ok (qa, qb)
      else .ok ([], [])
    let sub := s.subAt m.core m.k
    .ok ((s.setSub m.core m.k { sub with elems := subOf (mmaResult fa fb g sub.elems rows cols qa qb m.n) }).integrityMma m)

/-! ## `MLDB` (R209, R379) -/

/-- The tag of an `MLDB` that ends with an error: its record's, or 0 where the record cannot be read (R369).
DEDUCED (50). -/
def State.mldbTag (s : State) (m : MCmd) : Nat :=
  if m.a.toNat % 32 ≠ 0 then 0
  else
    match s.engBytes m.eng blockPlace m.a.toNat 32 with
    | .ok b => listNat b 0x18 3
    | .error _ => 0

/-- The bytes of a tile's elements up to the first that the engine cannot read. -/
def State.elemsBefore (s : State) (e : Eng) (ok : Nat → Bool) (r : TileRec) : List (Nat × Nat) → List (List Byte)
  | [] => []
  | p :: l =>
    match s.engBytes e ok (r.base + r.desc.offset p.1 p.2) r.desc.e with
    | .ok b => b :: s.elemsBefore e ok r l
    | .error _ => []

/-- The first elements of a tile written to the engine's overlay from offset `off`, column `j` at 65,536 `j` (R209, R379). -/
def State.fillOverlay (s : State) (e : Eng) (off : Nat) (r : TileRec) (l : List (List Byte)) : State :=
  let at_ (p : (Nat × Nat) × List Byte) : Nat := overlayBase e.tile + off + p.1.2 * 0x10000 + p.1.1 * r.desc.e
  let bytes := (r.desc.elems.zip l).flatMap fun p => bytesAt (at_ p) p.2
  (bytes.foldl (fun s b => s.writeByte e.path 0 b.1 b.2) s).mendKeys e (bytes.map (·.1))

/-- `MLDB`: its record, the state and its status; with XLATE at an element, what had been written before it stands (R488).
DEDUCED (50). DESIGN CHOICE (140). -/
def State.mldb (s : State) (m : MCmd) : Except EStop (TileRec × State × Nat) := do
  let e := m.eng
  let off := m.b.toNat
  if off % 64 ≠ 0 then .error (.code errAlign)
  else
    let r ← s.tileRecord e m.a.toNat
    if 1 < r.post ∨ r.desc.cols ≠ 64 ∨ 2 < r.desc.e ∨ 0x10000 < off + r.desc.rows * r.desc.e then .error (.code errRange)
    else
      let ok (key : Nat) : Bool := anyTier key && (keyTier key != some 2 || tileOfPa key == e.tile)
      if s.sliceBarred m off (r.desc.rows * r.desc.e) then .error (.code errPlace) else
      match s.elemBytes e ok r r.desc.elems with
      | .ok l => .ok (r, (s.fillOverlay e off r l).integrityTile e r, 0)
      | .error .wait => .error .wait
      | .error (.code c) =>
        let l := if c = errXlate then s.elemsBefore e ok r r.desc.elems else []
        .ok (r, s.fillOverlay e off r (l.take (s.pick (l.length + 1))), 4 * c)

/-! ## Drains (R194, R195, R223, R380) -/

/-- A finite f32 as a multiple of 2^-149. -/
def f32Int (x : Nat) : Option Int :=
  match f32.decode x with
  | .fin s m e => some (alignTo s m e (-149))
  | _ => none

/-- Quantisation of one group (R194): scale as f16, zero point and codes. -/
def quantise (b : Nat) (G : List Nat) : Nat × Nat × List Nat :=
  let qmax : Nat := 2 ^ b - 1
  let fin := G.filterMap f32Int
  let lo := fin.foldl (fun a v => if v < a then v else a) 0
  let hi := fin.foldl (fun a v => if a < v then v else a) 0
  let (sc, zp) :=
    if hi = lo then ((0x3C00 : Nat), (0 : Nat))
    else
      let q := (f16.roundQuotient 0 false (hi - lo).toNat qmax (-149)).1
      let q := Nat.min (Nat.max q 1) 0x7BFF
      match f16.decode q with
      | .fin _ m e => (q, (clampInt 0 qmax (rneInt (-lo) (m * 2 ^ (e + 149).toNat))).toNat)
      | _ => (q, 0)
  let den := match f16.decode sc with
    | .fin _ m e => m * 2 ^ (e + 149).toNat
    | _ => 1
  (sc, zp, G.map fun x =>
    match f32.decode x with
    | .nan => zp
    | .inf neg => if neg then 0 else qmax
    | .fin s m e => (clampInt 0 qmax (rneInt (alignTo s m e (-149)) den + zp)).toNat)

/-- Codes of a group at a row: byte or nibble `at` onwards (R193). -/
def packCodes (int4 : Bool) : List Nat → List Byte
  | [] => []
  | [a] => [BitVec.ofNat 8 a]
  | a :: b :: l =>
    if int4 then BitVec.ofNat 8 (a % 16 + 16 * (b % 16)) :: packCodes int4 l
    else BitVec.ofNat 8 a :: packCodes int4 (b :: l)

/-- One grouped copy of a sub-tile (R195, R380): line `i` of 64 elements at `base + i × pitch`, with its scales and zero
points. -/
def groupedCopy (int4 : Bool) (g base pitch scales zeros : Nat) (line : Nat → List Nat) : List (Nat × Byte) :=
  let n := 64 / g
  let b := if int4 then 4 else 8
  let qs (i : Nat) : List (Nat × Nat × List Nat) :=
    (List.range n).map fun h => quantise b (((line i).drop (g * h)).take g)
  (List.range 64).flatMap fun i =>
    (List.range n).flatMap fun h =>
      let q := (qs i).getD h (0, 0, [])
      let z := i * n + h
      let width := if int4 then g / 2 else g
      bytesAt (base + i * pitch + h * width) (packCodes int4 q.2.2) ++ numberAt (scales + 2 * z) 2 q.1 ++
        (if int4 then
          if z % 2 = 1 then
            let prev := if h = 0 then ((qs (i - 1)).getD (n - 1) (0, 0, [])).2.1 else ((qs i).getD (h - 1) (0, 0, [])).2.1
            numberAt (zeros + z / 2) 1 (prev + 16 * q.2.1)
          else []
        else numberAt (zeros + z) 1 q.2.1)

/-- The bytes that a drain writes, in order (R380): form 0 f32, 1 bf16, 2 f16, 3 i8g, 4 i4g, 5 d8, 6 d4. -/
def drainBytes (m : MCmd) (elems : Map (BitVec 32)) (d : List Byte) : List (Nat × Byte) :=
  let at_ (i j : Nat) : Nat := (elems.get (64 * i + j) 0).toNat
  let g := pfxGroup m.pfx
  let int4 := m.n == 4 || m.n == 6
  let dense := if m.n = 0 then 256 else if m.n ≤ 2 then 128 else if int4 then 32 else 64
  let dp := if m.dpitch = 0 then dense else m.dpitch
  let dp2 := if m.dpitch2 = 0 then dense else m.dpitch2
  let sa := m.a.toNat
  let row (i : Nat) : List Nat := (List.range 64).map (at_ i)
  let col (j : Nat) : List Nat := (List.range 64).map fun i => at_ i j
  if m.n = 0 then (List.range 64).flatMap fun i => (List.range 64).flatMap fun j => numberAt (sa + i * dp + 4 * j) 4 (at_ i j)
  else if m.n ≤ 2 then
    let f := if m.n = 1 then bf16 else f16
    (List.range 64).flatMap fun i => (List.range 64).flatMap fun j =>
      numberAt (sa + i * dp + 2 * j) 2 (f.rne (f32.decode (at_ i j)))
  else
    groupedCopy int4 g sa dp (listNat d 0 8) (listNat d 8 8) row ++
      if 5 ≤ m.n then groupedCopy int4 g m.b.toNat dp2 (listNat d 0x10 8) (listNat d 0x18 8) col else []

/-- The report bits of a drain (R224): an element was NaN; an element was infinite or became infinite. -/
def drainReports (m : MCmd) (elems : Map (BitVec 32)) : Nat :=
  let vs := elems.map fun p => f32.decode p.2.toNat
  let inf (v : FV) : Bool :=
    match v with
    | .inf _ => true
    | .nan => false
    | v => if m.n = 1 then bf16.rne v % 2 ^ 15 == 0x7F80 else if m.n = 2 then f16.rne v % 2 ^ 15 == 0x7C00 else false
  (if vs.any FV.isNan then 1 else 0) + (if vs.any inf then 2 else 0)

/-- `MDRN` (R223, R380): the state and the status. -/
def State.mdrn (s : State) (m : MCmd) : Except EStop (State × Nat) := do
  let e := m.eng
  let elems := (s.subAt m.core m.k).elems
  if m.a.toNat % 32 ≠ 0 ∨ (5 ≤ m.n ∧ m.b.toNat % 32 ≠ 0) ∨ (3 ≤ m.n ∧ m.qaddr.toNat % 32 ≠ 0) then
    .error (.code errAlign)
  else
    let ok (key : Nat) : Bool := keyTier key == some 1 || keyTier key == some 2
    let d ← if 3 ≤ m.n then s.engBytes e ok m.qaddr.toNat 32 else .ok []
    match s.engStore e tiers1to5 (drainBytes m elems d) with
    | .error () => .error .wait
    | .ok (t, 0) => .ok (t, drainReports m elems)
    | .ok (t, c) => .ok (t, 4 * c)

/-! ## Completion (R206, R224, R369) -/

/-- The block that an `MLDB` or an `MDRN` reads as it begins: its record, or its descriptor. -/
def MCmd.blocks (m : MCmd) : List (Nat × Nat) :=
  if m.kind = 4 then if m.b.toNat % 64 = 0 ∧ m.a.toNat % 32 = 0 then [(m.a.toNat, 32)] else []
  else if m.kind = 5 ∧ 3 ≤ m.n ∧ m.a.toNat % 32 = 0 ∧ (m.n < 5 ∨ m.b.toNat % 32 = 0) ∧ m.qaddr.toNat % 32 = 0 then
    [(m.qaddr.toNat, 32)]
  else []

/-- A granted command is carried out; none where it must wait (R368). DEDUCED (47). -/
def State.runMatrix (s : State) (m : MCmd) : Option State :=
  let e := m.eng
  let read (s : State) : Option State := some (s.integrityBlocks e m.blocks)
  let fail (c : Nat) : Option State := read (s.report e m.tag (4 * c) m.origin.pc true)
  match m.kind with
  | 3 => some (s.setSub m.core m.k { s.subAt m.core m.k with elems := [] })
  | 4 =>
    match s.mldb m with
    | .error .wait => none
    | .error (.code c) => read (s.report e (s.mldbTag m) (4 * c) m.origin.pc true)
    | .ok (r, t, st) => read (t.report e r.tag st m.origin.pc (st != 0 || r.post == 1))
  | 5 =>
    match s.mdrn m with
    | .error .wait => none
    | .error (.code c) => fail c
    | .ok (t, st) => read (t.report e m.tag st m.origin.pc (m.tag != 0))
  | _ =>
    match s.mma m with
    | .error .wait => none
    | .error (.code c) => fail c
    | .ok t => some t

/-- `MATRIX_GRANT` (R211). -/
def execMatrixGrant (s : State) : Host.Outcome State Fault Refusal := event (fun s => s.grant s.args.a) s

/-- `MATRIX_COMMAND_DONE` (R206): the oldest granted command of a tile, in grant order. DEDUCED (47). -/
def execMatrixCommandDone (s : State) : Host.Outcome State Fault Refusal :=
  event (fun s =>
    let t := s.tileAt s.args.a
    match t.granted with
    | [] => none
    | m :: rest =>
      ((s.engCross m.origin 2).runMatrix m).map fun s => s.setTile s.args.a { s.tileAt s.args.a with granted := rest }) s

/-- `SUBTILE_RELEASE` (R213, R340): the owner of a sub-tile has ended, and none of its matrix commands is outstanding. -/
def execSubtileRelease (s : State) : Host.Outcome State Fault Refusal :=
  event (fun s =>
    match (s.subAt s.args.a s.args.b).owner with
    | none => none
    | some uid =>
      let live := match s.ctxOfUid uid with
        | some c => match c.st with
          | .ended _ => false
          | _ => true
        | none => false
      if live || s.matrixBusy uid || 4 ≤ s.args.b then none
      else some (s.setSub s.args.a s.args.b (s.released s.args.a s.args.b))) s

end Sys2Proof.Machine
end

