-- ==== Sys2Proof/Machine/Network.lean ====
section
/-! DEFINITION. Events of the mesh and of Panpipe: injection, delivery, bounces, handler firings, announcements (R49, R58 to
R60, R66, R79, R82, R90, R126 to R134, R140 to R144, R371, R386, R486, R504). -/

namespace Sys2Proof.Machine

/-! ## Role-map updates as they are applied (R79, R82, R90) -/

/-- The physical address of a logical block of a window (R76, R93). -/
def blockPa (window block : Nat) : Nat := 0x6000000000000 + window * 2 ^ 33 + block * 2 ^ 23

/-- The pools of a tile's quad stores and overlay slice (R100). -/
def Pool.onTile (p : Pool) (tile : Nat) : Bool := (p.tier == 1 && p.unit / 2 == tile) || (p.tier == 2 && p.unit == tile)

/-- A tile that takes another role: all its SRAM reads as zero, and its cores are as at power-up (R72, R82); blocks of its
pools that are still live have moved away (R90, R333). DEDUCED (85). -/
def State.resetTile (s : State) (tile : Nat) : State :=
  let first := coreBase tile
  let s := s.zeroFill (0x4000000000000 + tile * 0x800000) 0x800000
  { s with
    pools := s.pools.map fun p =>
      if p.onTile tile then { p with live := p.live.map fun b => { b with moved := true } } else p
    cores := s.cores.filter fun e => !(e.1 / 8 == first / 8)
    subs := s.subs.filter fun e => !(e.1 / 32 == first / 8)
    banks := s.banks.filter fun e => !(e.1 / 2 == tile)
    tiles := s.tiles.map fun e => if e.1 = tile then (e.1, { e.2 with tlb := [] }) else e }

/-- One entry of a role-map update (R82): a block that no tile held reads as zero once it is bound, and joins its pool
(R100). -/
def State.applyEntry (s : State) (e : Nat × Word) : State :=
  let old := s.roleOf e.1
  let pa := blockPa (field e.2 16 16) (field e.2 6 10)
  let s := if bit e.2 5 ∧ (s.storageTile pa).isNone then
      (s.zeroFill pa 0x700000).poolBound (field e.2 16 16) (field e.2 6 10) else s
  let s := if field old 0 2 ≠ field e.2 0 2 then s.resetTile e.1 else s
  s.setRole e.1 e.2

/-- The notices of a recast return to zero (R85). -/
def State.clearNotice (s : State) (serial : Nat) : State :=
  let wipe (w : Word) : Word := if w ≠ 0 ∧ field w 24 8 = serial then 0 else w
  let ctx (c : Ctx) : Ctx := { c with notice := wipe c.notice }
  { s with
    slots := s.slots.map fun e => (e.1, { e.2 with ctx := e.2.ctx.map ctx })
    ready := s.ready.map fun r => { r with ctx := r.ctx.map ctx }
    launches := s.launches.map fun e => (e.1, { e.2 with notice := wipe e.2.notice }) }

/-- Where a logical tile of a tile that leaves goes (R90). -/
def Recast.goesTo (r : Recast) (i logical : Nat) : Nat :=
  ((r.moves.find? fun m => m.1 == i && m.2.1 == logical).map (·.2.2)).getD r.dest

/-- The tiles to which the logical tiles and the memory of a tile that leaves go (R90). -/
def Recast.dests (r : Recast) : List Nat := r.dest :: r.moves.map (·.2.2)

/-- A multicast line, or a barrier arrival, for a tile that is rebound goes where the pages that lead there have moved, and otherwise
to the new tile (R90, R141). -/
def State.rebound (s : State) (tile : Nat) (l : McastLine) : McastLine :=
  let go (old : Option Nat) (offset : Nat) : Option Nat :=
    let home := quadBase tile l.quad + offset
    if old.isNone ∧ s.followed home ≠ home then some (s.followed home) else old
  if s.mcastTile l = tile then { l with moved := go l.moved l.offset, barMoved := go l.barMoved l.barrier } else l

/-- The step number that a role-map update carries where it ends its recast (the model's own). -/
def lastStep : Nat := 9

/-- A role-map update is applied (R79): its entries, the epoch, and the recast of the tile it concerns, whose step it
carries.  The rebinding of a compute recast is its step 6; the last update ends the recast (R85, R88, R90). -/
def State.applyRoles (s : State) (a : Announce) : State :=
  let s := a.entries.foldl State.applyEntry s
  let s := { s with epoch := (s.epoch + 1) % 2 ^ 32 }
  match s.recasts.find? (·.tile == a.x) with
  | none => s
  | some r =>
    if a.y = lastStep then
      let s := s.stopping { s with recasts := s.recasts.filter (·.tile != a.x) }
      if r.noticed then s.clearNotice r.serial else s
    else
      let s := { s with recasts := s.recasts.map fun q : Recast =>
        if q.tile = a.x then { q with step := a.y, acks := [], ackAt := none } else q }
      if a.y = 6 then
        let s := { s with mcasts := s.mcasts.map (s.rebound a.x) }
        let rebind (i : Nat) (b : Nat × Nat) : Nat × Nat := if b.2 = a.x then (b.1, r.goesTo i b.1) else b
        { s with launches := s.launches.map fun e => (e.1, { e.2 with binds := e.2.binds.map (rebind e.1) }) }
      else s

/-! ## Panpipe (R142 to R144) -/

/-- Announcements of a window in the Panpipe order: by slot, hubs after every slot, and by issue order within one (R144). -/
def panKey (a : Announce) : Nat := if a.fromHub then 65536 + a.inc else a.slot

/-- An announcement put behind those that come no later. -/
def panInsert (a : Announce) : List Announce → List Announce
  | [] => [a]
  | b :: l => if panKey a < panKey b then a :: b :: l else b :: panInsert a l

def panSort (l : List Announce) : List Announce := l.foldl (fun m a => panInsert a m) []

/-- The operation that an announcement announces may complete, with its place among those delivered (R153, R156). -/
def Ctx.heard (c : Ctx) (id order : Nat) : Ctx :=
  { c with pend := c.pend.map fun p => if p.announced = some id then { p with delivered := true, order := order } else p }

/-! ### The join of a completed launch (R52) -/

/-- The join of a completion on the record at an address: made once its announcement is delivered, waiting for the page, or
reported by Drone; a bank's state region takes none (R490). DEDUCED (77). DEDUCED (78). -/
def State.completionJoin (s : State) (asn va : Nat) (delivered : Bool) : State :=
  let orphan (cls : Nat) : State := s.orphan cls 1 0xFFFF 0 (BitVec.ofNat 64 va) 0
  let unmapped := s.walks.any fun w => w.unit == enqUnit && w.asn == asn && w.va == va && w.leaf.isNone
  match s.enqAddr asn va .store with
  | .error .bad => (orphan (if unmapped then 1 else 2)).forgetWalks enqUnit
  | .error _ => { s with joins := s.joins ++ [(asn, va)] }
  | .ok pa =>
    if !tiers134 pa ∨ s.unbacked pa = true ∨ bankState pa = true then orphan 2
    else if delivered then s.joinAt pa 6
    else s.announce { id := 0, window := 0, kind := 0, scope := 6, slot := 0xFFFF, inc := 0, serial := 0, x := 0, y := 0,
                      entries := [], join := some (asn, va) }

/-! ### What leads to the old frame of a migrated page leads to the new one (R179) -/

/-- A home under a page move. -/
def PageMove.to (m : PageMove) (pa : Nat) : Nat :=
  let n := pageBytes (bit m.old 12)
  if pa / n = leafFrame m.old / n then leafFrame m.new + pa % n else pa

/-! What holds homes, with a function applied to each. -/

def Pend.rehome (f : Nat → Nat) (p : Pend) : Pend :=
  { p with kind := match p.kind with
      | .write h n v => .write (f h) n v
      | .atomic h n op b c rd => .atomic (f h) n op b c rd
      | .load h n rd => .load (f h) n rd
      | .join h va => .join (f h) va
      | k => k }

def Line.rehome (f : Nat → Nat) (l : Line) : Line := { l with home := f l.home }

def WaitState.rehome (f : Nat → Nat) (w : WaitState) : WaitState :=
  { w with conds := w.conds.map fun c => { c with home := f c.home } }

def RunState.rehome (f : Nat → Nat) : RunState → RunState
  | .waiting w => .waiting (w.rehome f)
  | .checking l va claim => .checking (f l) va claim
  | .trapped t w => .trapped t (w.map (·.rehome f))
  | st => st

def QLoad.rehome (f : Nat → Nat) (l : QLoad) : QLoad :=
  { l with
    cells := l.cells.map fun e => (e.1.map f, e.2)
    lines := l.lines.map fun e => (f e.1, e.2)
    stamps := l.stamps.filter fun e => f e.1 == e.1
    kind := match l.kind with
      | .atomic h n op b c => .atomic (f h) n op b c
      | .lock b h va n => .lock (if f h = h then b else lockOf (f h)) (f h) va n
      | .plain => .plain }

def Deferred.rehome (f : Nat → Nat) (d : Deferred) : Deferred :=
  { d with
    cells := d.cells.map fun c => (c.1, c.2.1, f c.2.2)
    claims := d.claims.map fun l => (f l.1, l.2) }

/-- A context, with the bit of a lock that it holds replaced as `lock` says. -/
def Ctx.rehome (f : Nat → Nat) (lock : Nat × Nat → Nat × Nat) (c : Ctx) : Ctx :=
  { c with
    pend := c.pend.map (·.rehome f)
    loads := c.loads.map (·.rehome f)
    region := { c.region with wbuf := c.region.wbuf.map (·.rehome f), vsnap := c.region.vsnap.map (·.rehome f) }
    vstream := c.vstream.map (·.rehome f)
    touched := c.touched.map fun t => { t with line := f t.line }
    code := c.code.foldl (fun m e => m.insert (f e.1) e.2) []
    st := c.st.rehome f
    lock := c.lock.map lock }

/-- A word of an address space lies in the page. -/
def PageMove.covers (m : PageMove) (asn va : Nat) : Bool := asn == m.asn && va - va % pageBytes (bit m.old 12) == m.va

/-- The lock bit of a word of the page in its new frame. -/
def PageMove.newLock (m : PageMove) (va : Nat) : Nat := lockOf (leafFrame m.new + va % pageBytes (bit m.old 12))

/-- The lock that a firing holds or seeks on a word of the page is the new frame's. -/
def PageMove.relock (m : PageMove) (c : Ctx) : Ctx :=
  { c with
    lock := c.lock.map fun l => if m.covers c.asn l.2 then (m.newLock l.2, l.2) else l
    loads := c.loads.map fun l => match l.kind with
      | .lock _ h va n => if m.covers c.asn va then { l with kind := .lock (m.newLock va) h va n } else l
      | _ => l }

/-- The lock bits of a firing on words of the page, that it holds and that it seeks: old and new. -/
def PageMove.locks (m : PageMove) (c : Ctx) : List (Nat × Nat) × List (Nat × Nat) :=
  ((c.lock.toList.filter fun l => m.covers c.asn l.2).map fun l => (l.1, m.newLock l.2),
   c.loads.filterMap fun l => match l.kind with
     | .lock b _ va _ => if m.covers c.asn va then some (b, m.newLock va) else none
     | _ => none)

/-- A lock bit that is held on a word of the page finds its place at the new frame taken: the copy waits. -/
def State.lockTaken (s : State) (m : PageMove) : Bool :=
  s.contexts.any fun c => (m.locks c).1.any fun l => l.1 != l.2 && (s.lockAt l.2).owner.isSome

/-- A request that waits for a lock bit waits for another one, behind those that do so already. -/
def State.moveSeek (s : State) (uid a b : Nat) : State :=
  let t := s.setLock a { s.lockAt a with queue := (s.lockAt a).queue.filter (· != uid) }
  t.setLock b { t.lockAt b with queue := (t.lockAt b).queue ++ [uid] }

/-- The lock bits that are held on words of the page, and the requests that wait for them, in their order, go to the bits of its
new frame (R121, R179). -/
def State.moveLocks (s : State) (m : PageMove) : State :=
  let s := s.contexts.foldl (fun s c =>
    (m.locks c).1.foldl (fun s l =>
      if l.1 = l.2 then s
      else
        let t := s.setLock l.1 { s.lockAt l.1 with owner := none }
        t.setLock l.2 { t.lockAt l.2 with owner := (s.lockAt l.1).owner }) s) s
  let seeks := s.contexts.flatMap fun c => (m.locks c).2.map fun l => (c.uid, l)
  let s := (seeks.map (·.2.1)).eraseDups.foldl (fun s a => (s.lockAt a).queue.foldl (fun s uid =>
    match seeks.find? fun e => e.1 == uid && e.2.1 == a with
    | some (_, _, b) => if a = b then s else s.moveSeek uid a b
    | none => s) s) s
  { s with
    slots := s.slots.map fun e => (e.1, { e.2 with ctx := e.2.ctx.map m.relock })
    ready := s.ready.map fun r => { r with ctx := r.ctx.map m.relock } }

/-- Multicast lines and barrier arrivals whose quad-store page moves reach its new home (R141). -/
def State.rehomeMcast (s : State) (m : PageMove) (l : McastLine) : McastLine :=
  let go (old : Option Nat) (now : Nat) : Option Nat := if m.to now = now then old else some (m.to now)
  { l with moved := go l.moved (s.mcastHome l), barMoved := go l.barMoved (s.mcastBarrier l) }

/-- A scan reads the page at its new home, and its parts stay as they were divided (R243, R245). -/
def Scan.rehome (f : Nat → Nat) (sc : Scan) : Scan :=
  { sc with pages := sc.pages.map fun e => (e.1, e.2.1, f e.2.2) }

/-- The panel of an `MMAG` block follows a page that moves (R179). -/
def MCmd.follows (c : MCmd) (m : PageMove) : MCmd :=
  if c.kind = 2 then { c with pages := c.pages ++ [(leafFrame m.old, m.size, leafFrame m.new)] } else c

/-- A page of a tile that leaves has moved away (R90), or one that has done so moves on. -/
def PageMove.leaves (m : PageMove) (r : Recast) : Recast :=
  let old := leafFrame m.old
  let r : Recast := { r with pages := r.pages.map fun p => (p.1, p.2.1, m.to p.2.2) }
  if r.step = 2 ∧ regionOf old = 2 ∧ tileOfPa old = r.tile then
    { r with pages := (old, m.size, leafFrame m.new) :: r.pages }
  else r

/-- The live blocks of a leaving tile's pools that lie in the page have their frames elsewhere, and of blocks that have left their
tile a page may move on (R90, R333). -/
def State.blocksLeave (s : State) (m : PageMove) : State :=
  let old := leafFrame m.old
  let here (a n : Nat) : Bool := decide (a < old + m.size) && decide (old < a + n)
  let leaves := s.recasts.any fun r => r.step == 2 && regionOf old == 2 && tileOfPa old == r.tile
  let go (p : Pool) (b : Block) : Block :=
    let frames := b.frames.map fun f => if f = (old, m.size) then (leafFrame m.new, m.size) else f
    if leaves ∧ p.onTile (tileOfPa old) ∧ (s.poolAddr p b.off).any fun a => here a (2 ^ b.lg) then
      { b with moved := true, frames := (leafFrame m.new, m.size) :: frames }
    else { b with frames := frames }
  { s with pools := s.pools.map fun p => { p with live := p.live.map (go p) } }

def CopyLine.rehome (f : Nat → Nat) (l : CopyLine) : CopyLine :=
  if l.dst = .phys then { l with cells := l.cells.map fun p => (p.1, f p.2) } else l

/-- A translation change is delivered (R179): accesses are released, and what the device holds of the page leads to its new
frame. -/
def State.applyTranslation (s : State) (asn va : Nat) : State :=
  match s.pageMoves.find? fun m => m.asn == asn && m.va == va && m.phase == 1 with
  | none => s
  | some m =>
    let entry (e : TlbEntry) : TlbEntry :=
      if e.asn = asn ∧ e.page = va ∧ bit e.leaf 12 = bit m.old 12 then { e with leaf := m.new } else e
    let s := s.blocksLeave m
    let packet (p : Packet) : Packet := { p with home := p.home.map m.to }
    let queued (e : InjEntry) : InjEntry := match e with
      | .packet p o => .packet (packet p) o
      | .fence => .fence
    { s with
      pageMoves := s.pageMoves.filter fun m => !(m.asn == asn && m.va == va && m.phase == 1)
      cores := s.cores.map fun e => (e.1, { e.2 with
        tlb := e.2.tlb.map entry, mq := e.2.mq.map fun c => c.follows m })
      tiles := s.tiles.map fun e => (e.1, { e.2 with
        tlb := e.2.tlb.map entry, inj := e.2.inj.map queued, held := e.2.held.map packet
        granted := e.2.granted.map fun c => c.follows m
        mwait := e.2.mwait.map fun c => c.follows m
        mfly := e.2.mfly.map fun c => c.follows m })
      recasts := s.recasts.map m.leaves
      mcasts := s.mcasts.map (s.rehomeMcast m)
      copies := s.copies.map (·.rehome m.to)
      scans := s.scans.map (·.rehome m.to)
      enqTlb := s.enqTlb.map entry
      flying := s.flying.map packet
      flights := s.flights.map fun f => { f with line := f.line.rehome m.to }
      conts := s.conts.map fun k => { k with home := m.to k.home }
      slots := s.slots.map fun e => (e.1, { e.2 with ctx := e.2.ctx.map (Ctx.rehome m.to id) })
      ready := s.ready.map fun r => { r with ctx := r.ctx.map (Ctx.rehome m.to id) } }

/-- Every district node applies an announcement (R143): a synchronizing operation, a multicast's start, the close of an
interval, a role-map update, a translation change. -/
def State.applyAnnounce (s : State) (a : Announce) : State :=
  match a.kind with
  | 1 =>
    let mine := s.mcasts.filter (·.announced == some a.id)
    { s with mcasts := s.mcasts.filter (·.announced != some a.id) ++
        mine.map fun m => { m with announced := none, ordered := true } }
  | 3 => s.applyRoles a
  | 4 => s.applyTranslation a.x a.y
  | _ =>
    match a.join with
    | some (asn, va) => s.completionJoin asn va true
    | none => ({ s with nextId := s.nextId + 1 }.mapUid a.x (Ctx.heard · a.id s.nextId)).settleAll

/-- At the end of window w + 6, the announcements of window w are applied in Panpipe order (R142, R144). -/
def execPanpipeDelivery (s : State) : Host.Outcome State Fault Refusal :=
  event (fun s =>
    let w := s.args.a
    if windowAt s.time < w + 7 ∨ (s.pan.any fun a => decide (a.window < w)) ∨ !(s.pan.any (·.window == w)) then none
    else
      let now := panSort (s.pan.filter (·.window == w))
      let s := ({ s with pan := s.pan.filter (·.window != w) }).settleAll
      some (now.foldl State.applyAnnounce s)) s

/-- A hub's acknowledgement of a role-map update reaches the tile that the update concerns (R79). -/
def execRoleMapAck (s : State) : Host.Outcome State Fault Refusal :=
  event (fun s =>
    let hub := s.args.b
    match s.recasts.find? (·.tile == s.args.a) with
    | none => none
    | some r =>
      if 64 ≤ hub ∨ s.absentHubs.contains hub ∨ r.acks.contains hub ∨ r.step = 0 then none
      else
        let acks := r.acks ++ [hub]
        let all := (List.range 64).all fun d => s.absentHubs.contains d || acks.contains d
        let r' : Recast := { r with acks := acks, ackAt := if all then some s.time else none }
        some { s with recasts := s.recasts.map fun q : Recast => if q.tile = r.tile then r' else q }) s

/-! ## Injection queues (R133, R134) -/

/-- The ordering class of a message (R126, R130): one for an inbox travels in class 2 (R487). -/
def Packet.cls (p : Packet) : Nat := if p.agent ≤ 7 then 2 else p.flags / 16 % 4

/-- Two messages of one sender for one inbox with the same route tag: they are handled in the order sent (R60). -/
def Packet.sameTag (p q : Packet) : Bool :=
  decide (p.agent ≤ 7) && p.node == q.node && p.agent == q.agent && p.tag == q.tag && p.origin.uid == q.origin.uid

/-- Fence markers at the head of a queue have nothing left to hold. -/
def dropFences : List InjEntry → List InjEntry
  | .fence :: l => dropFences l
  | l => l

/-- The queue without the packet at a position, and that packet: the entries ahead of it are back-pressured packets of
another destination or class, each overtaken once more and fewer than 33 times (R134), and none that R60 puts before it. -/
def takeFrom (pressed : List (Nat × Nat)) : Nat → List InjEntry → Option (Packet × List InjEntry)
  | 0, .packet p _ :: l => some (p, l)
  | n + 1, .packet y o :: l =>
    match takeFrom pressed n l with
    | some (p, m) =>
      if pressed.contains (y.node, y.cls) ∧ !(y.node == p.node && y.cls == p.cls) ∧ !y.sameTag p ∧ o < 32 then
        some (p, .packet y (o + 1) :: m)
      else none
    | none => none
  | _, _ => none

/-- A tile's injection queue sends a packet; `pairs` lists the destinations and classes under back-pressure. -/
def execInjectionSend (s : State) : Host.Outcome State Fault Refusal :=
  event (fun s =>
    let t := s.tileAt s.args.a
    match takeFrom s.args.pairs s.args.b t.inj with
    | some (p, l) =>
      let s := s.setTile s.args.a { t with inj := dropFences l }
      some ({ s with flying := s.flying ++ [p] }).settleAll
    | none => none) s

/-! ## Bounces (R486) -/

/-- The 16 bytes of a bounce record. -/
def Packet.bounceRecord (p : Packet) (status : Nat) : List Byte :=
  let le (n v : Nat) : List Byte := (List.range n).map (byteOf v)
  le 1 status ++ le 1 p.opcode ++ le 2 (p.node + p.agent * 2048) ++ le 2 p.tslot ++ le 1 p.tinc ++ le 1 0 ++ le 2 p.len ++
    le 6 0

/-- A message is not delivered: its bounce record is written at the reply address, or an orphan report says why not; none
while the address must wait for its page. -/
def State.bounce (s : State) (p : Packet) (status : Nat) : Option State :=
  let r := p.bounceRecord status
  let lost := s.orphan 14 1 p.sslot p.sinc (BitVec.ofNat 64 p.reply) (BitVec.ofNat 64 (listNat r 0 8))
    (some (p.origin.launch, p.origin.gen)) true
  let e : Eng := { path := 1, tile := p.origin.tile, origin := p.origin, engine := 1 }
  if p.reply = 0 ∨ p.reply % 16 ≠ 0 then some lost
  else
    match s.engPut e (fun key => anyTier key || regionOf key == 4 || regionOf key == 5) [] (bytesAt p.reply r) with
    | .error () => none
    | .ok (t, c) => some (if c = 0 then t else lost)

/-! ## Delivery (R60, R66, R132, R371, R504) -/

/-- A message's stamp lies before the start of an occupant at its slot (R132). -/
def stampEarlier (stamp began : Nat) : Bool :=
  let d := (began / 64 + 2 ^ 24 - stamp % 2 ^ 24) % 2 ^ 24
  decide (1 ≤ d) && decide (d ≤ 2 ^ 23)

/-- Where the firing that a pair names is. -/
inductive PairEnd where
  /-- It holds a slot. -/
  | slot (k : Nat)
  /-- It holds none. -/
  | parked (uid : Nat)
deriving DecidableEq, Repr

/-- The firing that a pair names, along live forwarding entries (R66, R132). -/
def State.pairTarget (s : State) (stamp : Nat) : Nat → Nat → Nat → Option Nat → Option PairEnd
  | 0, _, _, _ => none
  | n + 1, slot, inc, who =>
    let sl := s.slotAt slot
    match sl.fwd.find? fun f => f.live s.time && f.inc == inc && who.all (· == f.uid) with
    | some f =>
      match f.dst with
      | none => some (.parked f.uid)
      | some (k, i) => s.pairTarget stamp n k i (some f.uid)
    | none =>
      match sl.ctx with
      | some c =>
        let mine := match who with
          | some u => c.uid == u
          | none => !stampEarlier stamp sl.began
        if sl.inc.toNat = inc ∧ mine = true then some (.slot slot) else none
      | none => none

/-- The number of forwarding entries bounds the way of a message. -/
def State.fwdCount (s : State) : Nat := (s.slots.map fun e => e.2.fwd.length).sum

/-- The firing for which a message is meant: that of its pair, or the one for which a hub has held it (R66, R504). -/
def State.targetOfPacket (s : State) (p : Packet) : Option PairEnd :=
  match p.heldFor with
  | none => s.pairTarget p.stamp (s.fwdCount + 1) p.tslot p.tinc none
  | some uid =>
    match s.slotOfUid uid with
    | some k => some (.slot k)
    | none => if s.ready.any fun r => r.ctx.any (·.uid == uid) then some (.parked uid) else none

/-- The launch, actor and priority that a message's tag resolves to (R58). -/
def State.resolveTag (s : State) (core : Nat) (m : InMsg) : Option (Nat × Nat × Nat × Nat) :=
  let t := m.packet.tag
  let fromTarget : Option (Nat × Nat × Nat × Nat) := m.target.bind fun (i, gen) =>
    (s.launchOf i gen).bind fun l =>
      ((List.range l.actors.length).find? fun a =>
        (l.actors[a]?.map fun x => x.kind == 2 && x.tag % 16 == t).getD false).map fun a =>
          (i, gen, a, ((l.actors[a]?).map (·.hprio)).getD 0)
  if t = 0 then
    (s.launchOf m.packet.origin.launch m.packet.origin.gen).bind fun l =>
      (l.actors[l.noticeActor]?).map fun x => (m.packet.origin.launch, m.packet.origin.gen, l.noticeActor, x.hprio)
  else
    match fromTarget with
    | some r => some r
    | none => ((s.coreAt core).routes.get? t).map fun r => (r.launch, r.gen, r.actor, r.hprio)

/-- The tile to which a launch's messages go: the destination of the lowest of its logical tiles on the tile that leaves
(R90). DEDUCED (87). -/
def Recast.launchTo (r : Recast) (i : Nat) : Nat := ((r.moves.find? (·.1 == i)).map (·.2.2)).getD r.dest

/-- The launch of a message's handler firing, or of the one that would handle it (R58). -/
def State.msgLaunch (s : State) (core : Nat) (m : InMsg) : Option Nat :=
  let mine (c : Ctx) : Bool := c.msg.any (·.1 == m.entry)
  match ((List.range 8).filterMap fun i => (s.slotAt (core * 8 + i)).ctx).find? mine with
  | some c => some c.launch
  | none =>
    match s.ready.find? fun r => r.kind == 2 && r.place == core && (r.handler.any (·.2.1 == m.entry) || r.ctx.any mine) with
    | some r => some r.launch
    | none => (s.resolveTag core m).map (·.1)

/-- The core to which a message of a core that leaves goes (R90). -/
def State.msgCore (s : State) (r : Recast) (core : Nat) (m : InMsg) : Nat :=
  coreBase (((s.msgLaunch core m).map r.launchTo).getD r.dest) + core % 8

/-- The core whose inbox takes a message for a core: once that one's tile has sent its messages away, the core to which it would have
gone with them (R90). -/
def State.inboxCore (s : State) (core : Nat) (p : Packet) (target : Option (Nat × Nat)) : Nat :=
  match s.recasts.find? fun r => r.tile == tileOf core && r.left with
  | some r => s.msgCore r core { entry := 16, begun := false, packet := p, target := target }
  | none => core

/-- The core whose inbox a message is for. -/
def State.inboxOf (s : State) (p : Packet) : Option Nat :=
  if 7 < p.agent ∨ 1024 ≤ p.node then none
  else if p.tslot = 0 then some (s.inboxCore (coreBase p.node + p.agent) p none)
  else
    match s.targetOfPacket p with
    | some (.slot k) => some (coreOf k)
    | _ => none

/-- A message enters a core's inbox, in a free entry (R60). -/
def State.intoInbox (s : State) (core : Nat) (p : Packet) (target : Option (Nat × Nat)) : State :=
  let k := s.coreAt core
  let free := (List.range 16).filter fun i => k.inbox.all (·.entry != i)
  let e := free.getD (s.pick free.length) 0
  s.setCore core { k with inbox := k.inbox ++ [{ entry := e, begun := false, packet := p, target := target }] }

/-- A message for a core's inbox; it waits while that is full, and bounces where the core is powered down (R72). -/
def State.deliverInbox (s : State) (asked : Nat) (p : Packet) (target : Option (Nat × Nat)) : Option State :=
  let core := s.inboxCore asked p target
  if !s.compute (tileOf core) then s.bounce p 3
  else if 16 ≤ (s.coreAt core).inbox.length then none
  else some (s.intoInbox core p target)

/-- The update that rebinds a tile's logical tiles is announced and not yet delivered (R90). -/
def State.rebinding (s : State) (tile : Nat) : Bool := s.pan.any fun a => a.kind == 3 && a.x == tile && a.y == 6

/-- The tile to which a bank command follows a tile that leaves: the destination of the logical tile that its instruction named, or
the one that the role map names (R78, R90). DESIGN CHOICE (157). -/
def Recast.bankTo (r : Recast) (launch : Nat) (logical : Option Nat) : Nat :=
  match logical with
  | some l => r.goesTo launch l
  | none => r.dest

/-- The tile whose bank a command reaches in the end. -/
def State.bankGoal (s : State) (p : Packet) : Nat :=
  match s.recasts.find? (·.tile == p.node) with
  | some r => if 6 ≤ r.step || s.rebinding p.node then r.bankTo p.origin.launch p.logical else p.node
  | none => p.node

/-- The bank that a command for a tile's bank reaches: a recast that has rebound the tile leads it on, and holds it while
the bank is being copied (R90). -/
def State.bankTile (s : State) (p : Packet) : Option Nat := if s.rebinding p.node then none else some (s.bankGoal p)

/-- A bank operation of `BARINIT` or `BARADD` at its home (R123, R173, R386). DEDUCED (80). -/
def State.barrierAt (s : State) (opcode home value : Nat) : State :=
  if opcode = 0x11 then (s.bankWrite home 8 value).bankWrite (home + 8) 8 0
  else s.bankWrite (home + 8) 8 ((s.bankRead (home + 8) 8 + value) % 2 ^ 64)

/-- `BARINIT` or `BARADD` that `SEND` sent: its object is checked in the sender's address space (R371, R386); it waits for the
line's lock bit (R122). DEDUCED (80). -/
def State.sentBarrier (s : State) (p : Packet) : Option State :=
  let e : Eng := { path := 1, tile := p.origin.tile, origin := p.origin, engine := 1 }
  let fail (c : Nat) : Option State := some (s.report e 0 (4 * c) p.origin.pc true)
  if p.op0 % 16 ≠ 0 then fail errAlign
  else
    match s.engKey e .store p.op0 with
    | .error .wait => none
    | .error (.code c) => fail c
    | .ok home =>
      if !tiers134 home then fail errPlace
      else if (s.lockAt (lockOf home)).owner.isSome then none
      else some (s.barrierAt p.opcode home p.aux)

/-- A notice message for a launch that has completed (R482): it is not sent. -/
def State.noticeGone (s : State) (p : Packet) : Bool :=
  p.origin.uid == 0 && p.tag == 0 && (s.launchOf p.origin.launch p.origin.gen).isNone

/-- The scan sequencer of a hub that is present, the selector of a tile in storage role, of a channel or of a controller: agent 12 of
a node (R129).  A message to an agent that is absent at its node bounces with NOAGENT. DESIGN CHOICE (174). -/
def State.unitAt12 (s : State) (node : Nat) : Bool :=
  if node < 1024 then field (s.roleOf node) 0 2 == 1
  else if node < 1088 then !s.absentHubs.contains (node - 1024)
  else decide (node < 1356)

/-- A message reaches its destination router and is delivered, held, or bounced; none while it must wait. -/
def State.deliver (s : State) (p : Packet) : Option State :=
  let instr := p.home.isSome
  let onTile := decide (p.node < 1024)
  let onHub := decide (1024 ≤ p.node) && decide (p.node < 1088)
  let working := onTile && s.compute p.node
  let arrive : Option State := if s.mayGo p then some { s with arrived := s.arrived ++ [p] } else none
  if p.agent ≤ 7 then
    if s.noticeGone p then some s
    else if !onTile then s.bounce p 3
    else if p.tslot = 0 then s.deliverInbox (coreBase p.node + p.agent) p none
    else
      match s.targetOfPacket p with
      | some (.slot k) =>
        s.deliverInbox (coreOf k) p (((s.slotAt k).ctx).map fun c => (c.launch, c.gen))
      | some (.parked uid) => some { s with hubHeld := s.hubHeld ++ [{ p with heldFor := some uid }] }
      | none => s.bounce p 1
  else if p.agent = 8 then
    if !working then s.bounce p 3
    else if p.opcode = 0x10 then arrive
    else s.bounce p 2
  else if p.agent = 9 then if working then s.bounce p 2 else s.bounce p 3
  else if p.agent ≤ 11 then
    if !onTile then s.bounce p 3
    else
      match s.bankTile p with
      | none => none
      | some tile =>
        if !s.compute tile then s.bounce p 3
        else if p.opcode < 0x20 ∨ 0x25 < p.opcode ∨ (!instr ∧ (p.opcode ≠ 0x21 ∨ p.payload.length < 16)) then s.bounce p 2
        else if !s.mayGo p then none
        else
          let b := tile * 2 + (p.agent - 10)
          let k := s.bankAt b
          let m : BankCmd :=
            { kind := p.opcode - 0x20, origin := p.origin, addr := BitVec.ofNat 64 p.op0,
              tag := if instr then p.op1 % 2 ^ 24 else 0, arg := BitVec.ofNat 64 p.aux, payload := p.payload,
              rd := if instr then p.op1 / 2 ^ 32 else 0, logical := p.logical }
          some (s.setBank b { k with arrivals := k.arrivals ++ [m] })
  else if p.agent = 12 then
    if !s.unitAt12 p.node then s.bounce p 3
    else if onHub && p.opcode == 0x30 then arrive
    else s.bounce p 2
  else
    match p.home with
    | some home =>
      if s.mayGo p ∧ !s.stranded home ∧ (s.lockAt (lockOf home)).owner.isNone then
        some (s.barrierAt p.opcode home p.aux)
      else none
    | none => if onHub then s.bounce p 3 else s.sentBarrier p

/-- Two messages reach one place in the order in which they were sent: those of one firing for one inbox with one route tag (R60), and
the commands of one slot for one bank (R176, R237), whichever tile and pair they name. -/
def State.sameGoal (s : State) (q p : Packet) : Bool :=
  if p.agent ≤ 7 then
    q.origin.uid == p.origin.uid && q.tag == p.tag && (s.inboxOf p).isSome && s.inboxOf q == s.inboxOf p
  else
    (p.agent == 10 || p.agent == 11) && q.agent == p.agent && q.home.isSome && p.home.isSome &&
      (q.origin.uid == p.origin.uid || q.origin.slot == p.origin.slot) && s.bankGoal q == s.bankGoal p

/-- No earlier message of the same source, destination and class is on its way (R127), and none that must reach the same place
first is on its way or still in a tile's queue.  Of two messages that no firing sent the one that left first goes first. -/
def State.inOrder (s : State) (n : Nat) (p : Packet) : Bool :=
  ((s.flying.take n).all fun q =>
    !(q.origin.tile == p.origin.tile && q.node == p.node && q.cls == p.cls) &&
      !(q.origin.mark == p.origin.mark && s.sameGoal q p)) &&
    s.underWay.all fun q => !(decide (q.origin.mark < p.origin.mark) && s.sameGoal q p)

/-- Message number `a` among those on their way arrives. -/
def execMessageDelivery (s : State) : Host.Outcome State Fault Refusal :=
  event (fun s =>
    match s.flying[s.args.a]? with
    | none => none
    | some p =>
      if s.inOrder s.args.a p then ({ s with flying := s.flying.eraseIdx s.args.a }).deliver p else none) s

/-! ## Handler firings (R58, R59) -/

/-- A handler firing of a tag of a core is ready, running or waiting (R59). -/
def State.handling (s : State) (core t : Nat) : Bool :=
  ((List.range 8).any fun i => ((s.slotAt (core * 8 + i)).ctx.bind (·.msg)).any (·.2 == t)) ||
    s.ready.any fun r => r.kind == 2 && r.place == core &&
      (r.handler.any (·.2.2 == t) || r.ctx.any fun c => c.msg.any (·.2 == t))

/-- A handler firing is created for the message at the head of a tag (R59). -/
def execHandlerCreate (s : State) : Host.Outcome State Fault Refusal :=
  event (fun s =>
    let core := s.args.a
    let t := s.args.b
    let k := s.coreAt core
    match k.inbox.find? (·.packet.tag == t) with
    | none => none
    | some m =>
      match s.resolveTag core m with
      | none => none
      | some (i, gen, actor, prio) =>
        match s.launchOf i gen with
        | none => none
        | some l =>
          if m.begun ∨ !k.enable.getLsbD t ∨ s.handling core t ∨ l.killed ∨ s.halted then none
          else
            let r : Ready :=
              { launch := i, gen := gen, actor := actor, kind := 2, wid := 0, place := core, prio := prio, cls := l.cls,
                raised := 0, age := s.time, since := s.time, ctx := none, handler := some (core, m.entry, t), code := 0,
                frame := 0, scope := m.packet.scope, recs := [], starved := none, blocking := false }
            let begun (q : InMsg) : InMsg := if q.entry = m.entry then { q with begun := true } else q
            let s := s.setCore core { k with inbox := k.inbox.map begun }
            some { s with ready := s.ready ++ [r] }) s

/-- A hub passes a ready record on, with its age: no tile of its district is bound to a logical tile of the record's launch.
It comes behind the records that the other hub has (R49). -/
def execRecordPass (s : State) : Host.Outcome State Fault Refusal :=
  event (fun s =>
    match s.ready[s.args.a]? with
    | none => none
    | some r =>
      match s.launchOf r.launch r.gen with
      | none => none
      | some l =>
        if r.kind ≠ 3 ∨ r.ctx.isSome ∨ l.binds.any (fun b => districtOfTile b.2 == r.place) then none
        else
          match l.binds.head? with
          | none => none
          | some b =>
            some { s with ready := s.ready.eraseIdx s.args.a ++ [{ r with place := districtOfTile b.2 }] }) s

end Sys2Proof.Machine
end

