-- ==== Sys2Proof/Machine/Launches.lean ====
section
/-! DEFINITION. Events of launches: the host's queues, the rack scheduler node, admission, completion, and the retirement of
firings (R50 to R54, R102, R124, R146, R176, R268, R269, R340, R463, R464, R505). -/

namespace Sys2Proof.Machine

/-! ## Launch queues (R268, R269) -/

def HostSide.queue (h : HostSide) (q : Nat) : HostQueue := h.queues.get q {}

def State.setQueue (s : State) (q : Nat) (v : HostQueue) : State :=
  { s with host := { s.host with queues := s.host.queues.set q v {} } }

/-- The physical address of a PCIe bus address (R268). -/
def hostPa (b : Nat) : Nat := 0x8000000000000 + b

/-- A queue's registers are such that a doorbell counts (R268). -/
def HostQueue.ok (v : HostQueue) : Bool :=
  (List.range 9).any (fun i => v.size == 16 * 2 ^ i) && v.base % 32 == 0 && decide (v.base < 2 ^ 49) &&
    v.cpl % 16 == 0 && decide (v.cpl < 2 ^ 49)

/-- One submission entry is read and enqueued, and its completion entry written (R269); one that waits holds the queue. -/
def State.submit (s : State) (q : Nat) : Option State :=
  let v := s.host.queue q
  let f (o n : Nat) : Nat := s.bankRead (hostPa (v.base + 32 * v.head + o)) n
  if v.stuck ∨ v.head = v.tail ∨ v.size ≤ v.written - v.reported then none
  else
    match s.enqueue (f 8 2) (s.headerAt (f 8 2) (f 0 8)) none none q with
    | .error _ => some (s.setQueue q { v with stuck := true })
    | .ok (st, h, t) =>
      let at_ := hostPa (v.cpl + 16 * v.head)
      let phase := 1 - v.written / v.size % 2
      let t := ((t.bankWrite at_ 8 (f 0x10 8)).bankWrite (at_ + 8) 4 h).bankWrite (at_ + 12) 4 (st + 256 * phase)
      some (t.setQueue q { v with head := (v.head + 1) % v.size, written := v.written + 1 })

/-- A queue's entries are read in ring order as far as they can be. -/
def State.pump (q : Nat) : Nat → State → State
  | 0, s => s
  | n + 1, s =>
    match s.submit q with
    | some t => t.pump q n
    | none => s

/-- The queue goes on, unless the device is not ready or a freeze has come to its second step (R69, R269). -/
def State.runQueue (s : State) (q : Nat) : State :=
  if s.host.ready ∧ !s.halted then s.pump q 4096 else s

/-- A doorbell takes effect: the entries up to the tail are handed over, where the queue's registers let it count
(R268, R269). DESIGN CHOICE (130). -/
def State.ring (s : State) (q tail : Nat) : State :=
  let v := s.host.queue q
  if v.ok then (s.setQueue q { v with tail := tail % v.size, latched := none }).runQueue q
  else s.setQueue q { v with latched := none }

/-- `DOORBELL` (R268, R269, R271): under registers that do not let it count it is ignored; otherwise the write is a crossing
from the host path and a release (R176), and before ready, and during a freeze, it is latched. -/
def execDoorbell (s : State) : Host.Outcome State Fault Refusal :=
  event (fun s =>
    let q := s.args.a
    if 16 ≤ q then none
    else if !(s.host.queue q).ok then some s
    else
      let s := s.cross 5 0 fun _ => true
      if s.host.ready ∧ s.host.frzState = 0 then some (s.ring q s.args.b)
      else some (s.setQueue q { s.host.queue q with latched := some s.args.b })) s

/-- Latched doorbells take effect, and queues go on that could not during a freeze (R269, R271). -/
def State.unlatch (s : State) : State :=
  (List.range 16).foldl (fun s q =>
    match (s.host.queue q).latched with
    | some t => s.ring q t
    | none => s.runQueue q) s

/-- `COMPLETION_DOORBELL` (R269). -/
def execCompletionDoorbell (s : State) : Host.Outcome State Fault Refusal :=
  event (fun s =>
    let q := s.args.a
    let v := s.host.queue q
    let n := (s.args.b % 2 ^ 32 + 2 ^ 32 - v.reported % 2 ^ 32) % 2 ^ 32
    if 16 ≤ q ∨ v.written < v.reported + n then none
    else some ((s.setQueue q { v with reported := v.reported + n }).runQueue q)) s

/-- `QCPL_WRITE` (R269). -/
def execQcplWrite (s : State) : Host.Outcome State Fault Refusal :=
  event (fun s =>
    let q := s.args.a
    if 16 ≤ q then none
    else some (s.setQueue q { s.host.queue q with cpl := s.args.b % 2 ^ 64, written := 0, reported := 0 })) s

/-- `LAUNCH_ENQUEUE_RESUME` (R505): an enqueue of a queue, or of the firing in slot `a` - 16, is tried again.
DEDUCED (79). -/
def execLaunchEnqueueResume (s : State) : Host.Outcome State Fault Refusal :=
  event (fun s =>
    let q := s.args.a
    if q < 16 then
      if (s.host.queue q).stuck then some ((s.setQueue q { s.host.queue q with stuck := false }).runQueue q) else none
    else some (s.settle (q - 16))) s

/-- The queue number of launches that a rack scheduler node forwards (the model's own). -/
def rackQueue : Nat := 16 + 65536

/-- `RACK_LAUNCH` (R146): at scale-up port `d`, one set to Ultra Ethernet (R29), a forwarded header is enqueued as a host
launch's is; one whose tables must wait for a page waits outside. DEDUCED (79). DESIGN CHOICE (110). -/
def execRackLaunch (s : State) : Host.Outcome State Fault Refusal :=
  event (fun s =>
    let header := (List.range 128).map fun i => BitVec.ofNat 8 (s.args.data.getD i 0)
    if !s.host.ready ∨ s.halted ∨ !s.host.etherPorts.contains s.args.d then none
    else
      match s.enqueue (s.args.b % 2 ^ 16) (.ok header) none none rackQueue with
      | .error _ => none
      | .ok (st, h, t) => some { t with rackDue := t.rackDue ++ [(s.args.a % 2 ^ 64, h, st)] }) s

/-- `LAUNCH_ADMISSION` (R37, R39, R58, R75): the first launch of a queue is admitted. -/
def execLaunchAdmission (s : State) : Host.Outcome State Fault Refusal :=
  event (fun s =>
    match s.admission.find? (·.1 == s.args.a) with
    | none => none
    | some (q, i) =>
      if s.halted ∨ s.bindable = [] then none
      else some (({ s with admission := s.admission.erase (q, i) }).admitLaunch i)) s

/-- `LAUNCH_END_WRITE` (R463). -/
def execLaunchEndWrite (s : State) : Host.Outcome State Fault Refusal := .next (s.endHandle (s.args.a % 2 ^ 32))

/-! ## Retirement (R54, R124, R340, R341) -/

/-- An address lies in the private alias (R97). -/
def inAlias (va : Nat) : Bool := decide (0xFFFFFFFFFFE000 ≤ va) && decide (va < 2 ^ 56)

/-- A tile record, or what it describes, lies in the share; one that has still to wait for its page counts as such. -/
def State.recordInAlias (s : State) (e : Eng) (va : Nat) : Bool :=
  inAlias va ||
    match s.engBytes e blockPlace va 8 with
    | .ok b => inAlias (listNat b 0 8)
    | .error .wait => true
    | .error _ => false

/-- The entries that a chain may still reach name the share: those ahead of an address, up to the END.  A `SEL` entry counts
as naming it until its scan has begun. DEDUCED (81). -/
def State.entriesName (s : State) (e : Eng) : Nat → Nat → Bool
  | 0, _ => true
  | n + 1, va =>
    inAlias va ||
      match s.engBytes e blockPlace va 32 with
      | .error .wait => true
      | .error (.code _) => false
      | .ok b =>
        let w (o : Nat) : Nat := listNat b o 8
        match listNat b 0 1 with
        | 0 => false
        | 1 =>
          (if listNat b 1 1 = 0 then inAlias (w 8) || inAlias (w 8 + listNat b 4 4) || inAlias (w 0x10) ||
            inAlias (w 0x10 + listNat b 4 4) else s.recordInAlias e (w 8) || s.recordInAlias e (w 0x10)) ||
            s.entriesName e n (va + 32)
        | 2 => s.recordInAlias e (w 8) || s.entriesName e n (va + 32)
        | 3 => inAlias (w 8) || s.entriesName e n (va + 32)
        | 8 => true
        | _ => s.entriesName e n (va + 32)

/-- The earliest entry to which a LOOP ahead of an address steps back. -/
def State.loopBack (s : State) (e : Eng) : Nat → Nat → Nat
  | 0, va => va
  | n + 1, va =>
    match s.engBytes e blockPlace va 32 with
    | .ok b =>
      if listNat b 0 1 = 0 then va
      else if listNat b 0 1 = 4 then Nat.min (va - 32 * listNat b 8 2) (s.loopBack e n (va + 32))
      else Nat.min va (s.loopBack e n (va + 32))
    | .error _ => va

/-- The engine that is to walk the chain that a message names. -/
def Packet.chain (p : Packet) : Option Eng :=
  if p.agent = 8 ∧ p.opcode = 0x10 then some { path := 1, tile := p.node, origin := p.origin, engine := 1 }
  else if p.agent = 12 ∧ p.opcode = 0x30 then some { path := 4, tile := p.origin.tile, origin := p.origin, engine := 4 }
  else none

/-- A command that a firing sent and that is not finished names its share through the private alias (R340), itself or in a chain or a
record that it names. DEDUCED (81). -/
def State.shareNamed (s : State) (uid : Nat) : Bool :=
  let packet (p : Packet) : Bool := p.origin.uid == uid && decide (8 ≤ p.agent) && (inAlias p.op0 ||
    p.chain.any fun e => s.entriesName e 4096 (Nat.min p.op0 (s.loopBack e 4096 p.op0)))
  let matrix (m : MCmd) : Bool :=
    m.origin.uid == uid && (inAlias m.a.toNat || inAlias m.b.toNat || inAlias m.qaddr.toNat ||
      (m.kind == 4 && s.recordInAlias m.eng m.a.toNat))
  let queued (e : InjEntry) : Bool := match e with
    | .packet p _ => packet p
    | .fence => false
  let bank (b : BankCmd) : Bool := b.origin.uid == uid && inAlias b.addr.toNat
  s.tiles.any (fun e => e.2.inj.any queued || e.2.granted.any matrix || e.2.mwait.any matrix || e.2.mfly.any matrix) ||
    (s.copies.any fun l => l.origin.uid == uid && l.cells.any fun p => inAlias p.1 || (l.dst == .virt && inAlias p.2)) ||
    s.flying.any packet || s.arrived.any packet || s.cores.any (fun e => e.2.mq.any matrix) ||
    s.banks.any (fun e => e.2.arrivals.any bank || e.2.window.any fun w => bank w.2) ||
    s.chains.any (fun c => c.origin.uid == uid &&
      s.entriesName c.eng 4096 (Nat.min c.entry (s.loopBack c.eng 4096 c.entry))) ||
    s.scans.any fun c => c.origin.uid == uid &&
      (inAlias c.sel.query || inAlias c.sel.out || inAlias c.sel.count || inAlias c.sel.base || inAlias c.sel.params)

/-- The last firing of a gang instance has retired: its copies of the pipes are gone (R43), and so are the records in them.
DESIGN CHOICE (169). -/
def State.endInstance (s : State) (c : Ctx) : State :=
  match s.launchOf c.launch c.gen with
  | none => s
  | some l =>
    let mine (d : Ctx) : Bool := d.launch == c.launch && d.gen == c.gen && d.wid == c.wid
    if l.copies.contains c.wid.toNat ∧ !(s.slots.any fun e => e.2.ctx.any mine) ∧ !(s.ready.any fun r => r.ctx.any mine) then
      let emptied := (List.range 32).foldl (fun m p => Map.erase m (c.wid.toNat * 32 + p)) l.records
      s.setLaunch c.launch { l.credit 1 (l.pipeBytes 0) with copies := l.copies.erase c.wid.toNat, records := emptied }
    else s

/-- The slot of a firing that has retired (R6, R66). -/
def State.vacate (s : State) (k : Nat) : State :=
  let sl := s.slotAt k
  s.setSlot k { sl with
    ctx := none
    recent := (sl.inc.toNat, sl.began) :: sl.recent.filter fun r => decide (s.time < r.2 + 128) }

/-- `FIRING_RETIRE` (R340): every line is acknowledged, what it has pending or outstanding is done, and no command works on its
share. -/
def execFiringRetire (s : State) : Host.Outcome State Fault Refusal :=
  event (fun s =>
    let k := s.args.a
    match (s.slotAt k).ctx with
    | none => none
    | some c =>
      match c.st with
      | .ended _ =>
        if (s.flights.any fun f => f.origin.uid == c.uid) ∨ c.pend ≠ [] ∨ c.loads ≠ [] ∨ s.shareNamed c.uid then none
        else
          let q := s.coreAt (coreOf k)
          let inc := (s.slotAt k).inc.toNat
          let s := s.discardEvents k inc c ((q.evq.filter (·.uid == c.uid)) ++ c.evHeld)
          let s := s.setCore (coreOf k) { q with evq := q.evq.filter (·.uid != c.uid) }
          some (((((s.countEnded c).vacate k).evFill (coreOf k)).endInstance c).retarget (quadOf (coreOf k)))
      | _ => none) s

/-! ## Completion (R50, R52, R102, R464) -/

/-- A notice message of a launch is on its way, or waits at a core that lets a handler firing begin for it (R59, R86). -/
def State.noticeDue (s : State) (i gen : Nat) : Bool :=
  let mine (p : Packet) : Bool := p.origin.uid == 0 && p.tag == 0 && p.origin.launch == i && p.origin.gen == gen
  s.flying.any mine || s.cores.any fun e => e.2.enable.getLsbD 0 && e.2.inbox.any fun m => !m.begun && mine m.packet

/-- Every condition of completion holds (R52, R463); a notice of a launch that was running comes first (R439). DEDUCED (37).
DEDUCED (164). -/
def State.launchDone (s : State) (i : Nat) (l : Launch) : Bool :=
  let mine (launch gen : Nat) : Bool := launch == i && gen == l.gen
  (l.killed || (l.admitted && l.made == l.work && !s.noticeDue i l.gen)) &&
    !(s.slots.any fun e => e.2.ctx.any fun c => mine c.launch c.gen) && !(s.ready.any fun r => mine r.launch r.gen) &&
    !(s.conts.any fun k => mine k.launch k.gen) && l.records.all (fun e => e.2.isEmpty) &&
    !(s.flights.any fun f => mine f.origin.launch f.origin.gen) &&
    !(s.launches.any fun e => e.2.parent == some (i, l.gen))

/-- The blocks of a completed launch: those of tiers 1 and 2 are freed, the others stay with the address space (R102). -/
def State.freeBlocks (s : State) (i gen : Nat) : State :=
  let mine (b : Block) : Bool := b.launch == some (i, gen)
  s.pools.foldl (fun s p =>
    if p.tier ≤ 2 then
      (p.live.filter mine).foldl (fun s b =>
        match s.poolOf p.tier p.unit with
        | some q => s.release q b
        | none => s) s
    else
      match s.poolOf p.tier p.unit with
      | some q => s.setPool { q with live := q.live.map fun b => if mine b then { b with launch := none } else b }
      | none => s) s

/-- The completion action (R35, R52, R414, R464): a join is announced as a release at package scope is (R153).
DEDUCED (78). -/
def State.completion (s : State) (i : Nat) (l : Launch) : State :=
  match l.compKind with
  | 1 => s.completionJoin l.asn l.compAddr false
  | 2 => s.postEvent l.launcher ((i + l.gen * 2 ^ 13) % 2 ^ 24) (if l.killed then 1 else 0) 5 0
  | _ => s

/-- A launch has completed: no producer list names it any more, so that a condition on it stays true (R54), and a notice of it that
no handler has begun to handle is not sent (R482). -/
def State.forgetLaunch (s : State) (i gen : Nat) : State :=
  let notice (m : InMsg) : Bool :=
    !m.begun && m.packet.origin.uid == 0 && m.packet.origin.launch == i && m.packet.origin.gen == gen
  { s with
    launches := s.launches.map fun e => (e.1, { e.2 with producers := e.2.producers.filter (· != i + gen * 2 ^ 13) })
    cores := s.cores.map fun e => (e.1, { e.2 with inbox := e.2.inbox.filter (!notice ·) }) }

/-- `LAUNCH_COMPLETE` (R52). DEDUCED (37). DEDUCED (77). -/
def execLaunchComplete (s : State) : Host.Outcome State Fault Refusal :=
  event (fun s =>
    let i := s.args.a
    match s.launches.get? i with
    | none => none
    | some l =>
      if !s.launchDone i l then none
      else
        let unbind (r : Route) : Bool := !(r.launch == i && r.gen == l.gen)
        let s := (s.freeBlocks i l.gen).completion i l
        let s := s.forgetLaunch i l.gen
        some { s with
          launches := s.launches.erase i
          pool := if l.parent.isSome then s.pool - 1 else s.pool
          leases := s.leases.filter fun e => !(e.launch == i && e.gen == l.gen)
          admission := s.admission.filter (·.2 != i)
          cores := s.cores.map fun e => (e.1, { e.2 with routes := e.2.routes.filter fun r => unbind r.2 }) }) s

/-- `COMPLETION_JOIN_RESUME` (R52): join number `a` among those that wait is tried again. -/
def execCompletionJoinResume (s : State) : Host.Outcome State Fault Refusal :=
  event (fun s =>
    match s.joins[s.args.a]? with
    | none => none
    | some (asn, va) => some (({ s with joins := s.joins.eraseIdx s.args.a }).completionJoin asn va false)) s

end Sys2Proof.Machine
end

