-- ==== Sys2Proof/Machine/Dispatcher.lean ====
section
/-! DEFINITION. The district dispatchers: energy fit, placement, gang instances, pre-emption, migration (R39 to R46, R49,
R59, R61 to R67, R214, R247, R256, R257, R259, R339, R465, R504). -/

namespace Sys2Proof.Machine

/-! ## Committed cost and fit (R247, R254, R256) -/

/-- The cost factor of an operating point, in sixteenths (R254). -/
def pointFactor (p : Nat) : Nat := [5, 7, 10, 13, 16, 20, 24, 29].getD p 16

/-- A firing that counts as resident on its core. -/
def Ctx.resident (c : Ctx) : Bool :=
  match c.st with
  | .ended _ => false
  | _ => true

/-- The highest energy class among the firings resident on a core (R247). -/
def State.coreClass (s : State) (core : Nat) : Option Nat :=
  (List.range 8).foldl (fun m i =>
    match (s.slotAt (core * 8 + i)).ctx with
    | some c => if c.resident then some (Nat.max (m.getD 0) c.cls) else m
    | none => m) none

/-- The cost of a class at an operating point, rounded up (R247). -/
def costAt (cls point : Nat) : Nat := (classCost cls * pointFactor point + 15) / 16

/-- A core's committed cost, with its class raised to `extra` where given. -/
def State.coreCost (s : State) (core : Nat) (extra : Option Nat) : Nat :=
  let cls := match s.coreClass core, extra with
    | some c, some e => some (Nat.max c e)
    | some c, none => some c
    | none, e => e
  (cls.map fun c => costAt c (s.quadAt (quadOf core)).point).getD 0

/-- The first core of a quad. -/
def quadCore (quad : Nat) : Nat := coreBase (quad / 2) + quad % 2 * 4

/-- A quad's committed cost with the classes of some of its cores raised to one class. -/
def State.quadCost (s : State) (quad : Nat) (cores : List Nat) (cls : Nat) : Nat :=
  ((List.range 4).map fun i =>
    s.coreCost (quadCore quad + i) (if cores.contains (quadCore quad + i) then some cls else none)).sum

/-- A quad's allocation (R249). DESIGN CHOICE (8). -/
def State.quadAlloc (s : State) (quad : Nat) : Nat :=
  ((List.range 4).map fun i => s.power.alloc.get (quadCore quad + i) 0).sum

/-- Firings of one class fit on some cores at once (R256). DESIGN CHOICE (8). DEDUCED (82). -/
def State.fits (s : State) (cores : List Nat) (cls : Nat) : Bool :=
  ((cores.map quadOf).eraseDups).all fun q =>
    decide (s.quadCost q cores cls ≤ s.quadAlloc q) ||
      (cls == 0 && decide ((cores.filter fun c => quadOf c == q).length ≤ 1) &&
        (List.range 4).all fun i => (s.coreClass (quadCore q + i)).isNone)

/-! ## The order of R61 -/

/-- Effective priority: one level for each 100,000 ticks waited (R62). -/
def Ready.effective (now : Nat) (r : Ready) : Nat := Nat.min 7 (r.prio + Nat.max r.raised ((now - r.since) / 100000))

/-- A comes before B: effective priority, age, launch index, work ID, actor index. -/
def Ready.before (now : Nat) (a b : Ready) : Bool :=
  let key (r : Ready) : List Nat := [7 - r.effective now, r.age, r.launch, r.wid.toNat, r.actor]
  let less (x y : List Nat) : Bool := ((x.zip y).find? fun p => p.1 != p.2).any fun p => decide (p.1 < p.2)
  less (key a) (key b)

/-- The first of some ready work in that order; on a tie the one that stands first. -/
def firstReady (now : Nat) : List Ready → Option Ready
  | [] => none
  | a :: l =>
    match firstReady now l with
    | none => some a
    | some b => if b.before now a then some b else some a

/-! ## Which work a slot may take (R39, R40, R46, R49, R59, R65, R90) -/

/-- Two entries belong to one gang instance. -/
def Ready.sameInstance (a b : Ready) : Bool :=
  a.launch == b.launch && a.gen == b.gen && a.wid == b.wid && a.kind == 0 && b.kind == 0 && a.ctx.isNone && b.ctx.isNone

/-- The sub-tile numbers that parked work brings (R214). -/
def Ready.subs (r : Ready) : List Nat := (r.ctx.map fun c => c.accs.map (·.1)).getD []

/-- The tiles of a slot's choice: ready work may be placed on the tile of slot `k` (R39, R40, R49, R59, R65). -/
def State.placedOn (s : State) (k : Nat) (r : Ready) : Bool :=
  let t := tileOf (coreOf k)
  match s.launchOf r.launch r.gen with
  | none => false
  | some l =>
    !l.killed && !r.blocking &&
      (if r.kind = 2 then r.place == coreOf k
        else if r.kind = 3 ∧ r.ctx.isNone then districtOfTile t == r.place && l.binds.any (·.2 == t)
        else
          match l.binds.get? r.place with
          | none => false
          | some h => h == t || (r.ctx.isSome && (s.slotOn r.subs h).isNone && l.binds.any (·.2 == t)))

/-- A slot stands empty and has an incarnation to give; a reservation is not looked at (R66). -/
def State.slotEmpty (s : State) (k : Nat) : Bool :=
  (s.slotAt k).ctx.isNone && ((s.slotAt k).nextInc s.time).isSome && s.moves.all fun m => m.dst != k

/-- An empty slot may take ready work, as far as reservations go (R46); a starved firing, for which everything else waits, is
not held up by one (R257). -/
def State.notReserved (s : State) (k : Nat) (r : Ready) : Bool :=
  match s.reservation k with
  | none => true
  | some g => r.sameInstance g || r.alone || decide (g.effective s.time < r.effective s.time)

/-- An empty slot may take ready work (R40, R46, R214). DESIGN CHOICE (84). -/
def State.mayTake (s : State) (k : Nat) (r : Ready) : Bool :=
  s.slotEmpty k && s.placedOn k r && s.notReserved k r && r.subs.all fun j => (s.subAt (coreOf k) j).owner.isNone

/-- The dispatcher places work on a tile: one in compute role of which no recast is under way (R90). -/
def State.tileOpen (s : State) (tile : Nat) : Bool := s.compute tile && field (s.roleOf tile) 2 3 == 0

/-- The slots of a tile. -/
def tileSlots (tile : Nat) : List Nat := (List.range 64).map (coreBase tile * 8 + ·)

/-! ## Beginning (R41, R59) -/

/-- A handler firing's registers (R59). -/
def handlerRegs (entry tag : Nat) (p : Packet) : Map Word :=
  let put (m : Map Word) (r v : Nat) : Map Word := m.set r (BitVec.ofNat 64 v) 0
  put (put (put (put [] 4 (0xFFFFFFFFFFC000 + entry * 512 + 48)) 5 p.len) 6 p.sslot) 7 (p.sinc + tag * 256)

/-- The context with which ready work begins in a slot. -/
def State.beginCtx (s : State) (k : Nat) (r : Ready) (l : Launch) : Ctx :=
  let c := { r.begin l s.nextUid with interval := s.time }
  match r.handler with
  | some (core, entry, tag) =>
    let regs : Regs := match (s.coreAt core).inbox.find? (·.entry == entry) with
      | some m => { s := handlerRegs entry tag m.packet }
      | none => {}
    { c with regs := regs, region := { start := c.pc, snap := regs } }
  | none =>
    if r.kind = 3 then
      let logical := ((l.binds.find? fun b => b.2 == tileOf (coreOf k)).map (·.1)).getD 0
      { c with place := logical }
    else c

/-- A handler firing begins to run: its tag is no longer pending (R58). -/
def State.handlerRuns (s : State) (core entry : Nat) : State :=
  let q := s.coreAt core
  s.setCore core { q with inbox := q.inbox.map fun m => if m.entry = entry then { m with running := true } else m }

/-- Ready work takes a slot: it begins there, or goes on where it stopped (R40, R41, R259). -/
def State.start (s : State) (k : Nat) (r : Ready) : State :=
  match s.launchOf r.launch r.gen with
  | none => s
  | some l =>
    let s := { s with ready := s.ready.erase r }
    let core := coreOf k
    match r.ctx with
    | some c => ((s.enter k c).feed r.launch).retarget (quadOf core)
    | none =>
      let c := s.beginCtx k r l
      let s := match r.handler with
        | some (core, entry, _) => s.handlerRuns core entry
        | none => s
      ((({ s with nextUid := s.nextUid + 1 } : State).enter k c).feed r.launch).retarget (quadOf core)

/-! ## Gang instances (R45, R46) -/

/-- The free slots of the tile of slot `k` that an instance may take, `k` first. -/
def State.gangFree (s : State) (k : Nat) (r : Ready) : List Nat :=
  k :: (tileSlots (tileOf (coreOf k))).filter fun j => j != k && s.mayTake j r

/-- The number of firings of a gang instance (R45). -/
def State.gangSize (s : State) (r : Ready) : Nat := ((s.launchOf r.launch r.gen).map (·.actors.length)).getD 0

/-- Of some slots of a tile, as many as a gang instance has firings, on which all of them fit at once (R256), with `first` at their
head where it is given; none where there are no such.  Of the sets of cores that would do the first is taken, in the order of their
numbers as sets of bits, and of their slots the first. DESIGN CHOICE (153). -/
def State.gangFit (s : State) (free : List Nat) (r : Ready) (first : Option Nat := none) : Option (List Nat) :=
  (List.range 256).findSome? fun m =>
    let slots := (free.filter fun j => m / 2 ^ (coreOf j % 8) % 2 == 1).take (s.gangSize r)
    if slots.length = s.gangSize r ∧ (first.isNone ∨ slots.head? = first) ∧ s.fits (slots.map coreOf) r.cls then some slots
    else none

/-- The firings of an instance, in ascending actor index. -/
def State.members (s : State) (r : Ready) : List Ready := s.ready.filter r.sameInstance

/-- The slots on which every firing of an instance can be placed at once, `k` first (R45, R256). -/
def State.gangPlaces (s : State) (k : Nat) (r : Ready) : Option (List Nat) :=
  if (s.members r).length = s.gangSize r then s.gangFit (s.gangFree k r) r (some k) else none

def State.gangReady (s : State) (k : Nat) (r : Ready) : Bool := (s.gangPlaces k r).isSome

/-- All firings of an instance are placed, with a copy of each pipe of the launch (R43, R45). -/
def State.startGang (s : State) (k : Nat) (r : Ready) : State :=
  let slots := (s.gangPlaces k r).getD []
  let mem := s.members r
  let s := (mem.zip slots).foldl (fun s p => s.start p.2 p.1) s
  let clear (e : Nat × Slot) : Nat × Slot :=
    if e.2.reservedFor = some (r.launch, r.gen, r.wid.toNat) then (e.1, { e.2 with reservedFor := none }) else e
  let s := { s with slots := s.slots.map clear }
  match s.launchOf r.launch r.gen with
  | some l => s.setLaunch r.launch { l.debit 1 (l.pipeBytes 0) with copies := r.wid.toNat :: l.copies }
  | none => s

/-- The instance is the oldest ready work at its effective priority in the district (R46). DEDUCED (82). -/
def State.oldestInDistrict (s : State) (k : Nat) (r : Ready) : Bool :=
  let d := districtOf (coreOf k)
  let here (q : Ready) : Bool :=
    if q.kind = 2 then districtOf q.place == d
    else if q.kind = 3 ∧ q.ctx.isNone then q.place == d
    else (((s.launchOf q.launch q.gen).bind fun l => l.binds.get? q.place).map districtOfTile) == some d
  s.ready.all fun q =>
    q.blocking || q.sameInstance r || q.effective s.time != r.effective s.time || !here q || r.before s.time q

/-! ## Placement (R61, R62, R256, R257) -/

/-- Ready work fits somewhere on the tile of a slot (R256). -/
def State.fitsTile (s : State) (k : Nat) (r : Ready) : Bool :=
  (tileSlots (tileOf (coreOf k))).any fun j =>
    s.mayTake j r && if s.gangWork r then s.gangReady j r else s.fits [coreOf j] r.cls

/-- Of some ready work for a slot's tile, that which is at effective priority 7 and is passed over since it does not fit there has
been so since now, or since the time that it has been so already; what fits there is no longer passed over (R257). -/
def State.passOver (s : State) (k : Nat) (l : List Ready) : State :=
  let go (r : Ready) : Ready :=
    if !l.contains r then r
    else if s.fitsTile k r then { r with starved := none }
    else if r.effective s.time = 7 ∧ r.starved = none then { r with starved := some s.time }
    else r
  { s with ready := s.ready.map go }

/-- Ready work is placed on a tile. -/
def State.onTile (s : State) (tile : Nat) (r : Ready) : Bool :=
  if r.kind = 2 then tileOf r.place == tile else s.placedOn (coreBase tile * 8) r

/-- The starved work of a tile, the first where there is more: no other is placed on the tile's quads (R257).  A starved
continuation record bars every tile of its district that is bound to its launch. DESIGN CHOICE (154). -/
def State.starvedOn (s : State) (tile : Nat) : Option Ready :=
  firstReady s.time (s.ready.filter fun r => r.alone && s.onTile tile r)

/-- A gang instance that is the oldest of its priority lacks slots on its tile: each that becomes free is reserved for it until it holds
enough (R46).  One that has enough, and does not fit, is passed over (R256). DEDUCED (82). -/
def State.gangShort (s : State) (k : Nat) (r : Ready) : Bool :=
  s.oldestInDistrict k r && decide ((s.gangFree k r).length < s.gangSize r)

/-- The dispatcher gives an empty slot the first of the work that it may take and that fits; an instance that lacks slots has the
slot reserved. DESIGN CHOICE (84). -/
def State.fillSlot (s : State) (k : Nat) : Option State :=
  let mine := s.ready.filter (s.mayTake k)
  let mine := match s.starvedOn (tileOf (coreOf k)) with
    | some a => mine.filter fun r => r == a || r.sameInstance a
    | none => mine
  let fit (r : Ready) : Bool :=
    if s.gangWork r then s.gangReady k r || s.gangShort k r else s.fits [coreOf k] r.cls
  match firstReady s.time (mine.filter fit) with
  | none => if mine = [] then none else some (s.passOver k mine)
  | some r =>
    let s := s.passOver k (mine.filter fun q => q.before s.time r && q != r)
    if s.gangWork r then
      if s.gangReady k r then some (s.startGang k r)
      else some (s.setSlot k { s.slotAt k with reservedFor := some (r.launch, r.gen, r.wid.toNat) })
    else some (s.start k r)

/-- The dispatcher has still work of the launch that a slot could take now: its first pass over the launch is not over
(R146). DEDUCED (131). -/
def State.passing (s : State) (i : Nat) (l : Launch) : Bool :=
  ((l.binds.map (·.2)).eraseDups.filter s.tileOpen).any fun t => (tileSlots t).any fun k => s.ready.any fun r =>
    r.launch == i && r.gen == l.gen && s.mayTake k r &&
      (if s.gangWork r then s.gangReady k r else s.fits [coreOf k] r.cls)

/-- `RESIDENCY_REPORT` (R146): after the dispatcher's first pass over the launch. -/
def execResidencyReport (s : State) : Host.Outcome State Fault Refusal :=
  event (fun s =>
    match s.rackDue.find? (·.1 == s.args.a) with
    | none => none
    | some (request, h, st) =>
      let i := h % 2 ^ 13
      let gen := h / 2 ^ 13
      let l := if st = 0 then s.launchOf i gen else none
      if l.any fun l => !l.admitted || s.passing i l then none
      else
        let le (n v : Nat) : List Byte := (List.range n).map (byteOf v)
        let slots := (s.slots.filter fun e => e.2.ctx.any fun c => st == 0 && c.launch == i && c.gen == gen).length
        let tiles := (l.map (·.binds.length)).getD 0
        let r := le 8 request ++ le 4 h ++ le 1 st ++ le 1 0 ++ le 2 tiles ++ le 4 slots ++ le 4 0 ++ le 8 s.time
        some { s with reports := s.reports ++ [r], rackDue := s.rackDue.erase (request, h, st) }) s

/-! ## Leaving for another slot, or for the parked-context area (R63 to R65, R259, R465) -/

/-- The firing stands where it may leave its slot: at a boundary of both streams, its loads delivered, nothing pending, no
trap, no matrix command (R64, R347, R449, R457). DEDUCED (74). -/
def State.mayLeave (s : State) (c : Ctx) : Bool :=
  c.vrests && c.settled && c.pend.isEmpty && !s.matrixBusy c.uid &&
    match c.st with
    | .running => true
    | .missing .. => true
    | .waiting _ => true
    | .realign .. => true
    | .pageWait .. => true
    | _ => false

/-- A firing moves to a free slot; a boost lease is suspended first, or its charge moves with it (R66, R259).
DEDUCED (75). -/
def State.relocate (s : State) (src dst : Nat) (suspended : Bool) (c : Ctx) : State :=
  let (s, c) := if suspended then s.suspend (coreOf src) c
    else
      match c.boost with
      | some b =>
        if b.suspended then (s, c)
        else
          let t := s.unreserve (districtOf (coreOf src)) b.charge
          if t.covers (districtOf (coreOf dst)) b.charge then (t.reserve (districtOf (coreOf dst)) b.charge, c)
          else (t, { c with boost := none })
      | none => (s, c)
  let (s, c) := s.leave src c
  ((s.enter dst c).retarget (quadOf (coreOf src))).retarget (quadOf (coreOf dst))

/-- A firing is written to the parked-context area and is ready again with its original age (R65, R504).
DEDUCED (76). DEDUCED (109). -/
def State.parkContext (s : State) (k : Nat) (c : Ctx) : State :=
  let (s, c) := s.suspend (coreOf k) c
  let (s, c) := s.leave k c
  ({ s with ready := s.ready ++ [c.readyEntry s.time] } : State).retarget (quadOf (coreOf k))

/-- Where a firing that must leave a slot goes: a free slot of its logical tile, otherwise elsewhere in its compute set,
otherwise none (R65); a handler firing is only parked (R59).  Of several free slots or tiles the lowest-numbered is taken, of
logical tiles the lowest. DESIGN CHOICE (127). -/
def State.refuge (s : State) (k : Nat) (c : Ctx) : Option Nat :=
  if c.kind = 2 then none
  else
    (s.launchOf c.launch c.gen).bind fun l =>
      let subs := s.ownSubs c.uid (coreOf k)
      let tiles := ((l.binds.get? c.place).toList ++ l.binds.map (·.2)).filter s.tileOpen
      tiles.findSome? (s.slotOn subs)

/-- A firing is moved out of its slot, its checked interval closed first (R65, R163). DEDUCED (74). -/
def State.moveOut (s : State) (k : Nat) (c : Ctx) : Option State :=
  if c.checkedSince.isSome ∧ c.vrests ∧ c.resident then
    some ((({ s := s, who := .slot k, c := c } : Cx).closeStopped.put).settle k)
  else if !s.mayLeave c then none
  else
    match s.refuge k c with
    | some dst => some (s.relocate k dst true c)
    | none => some (s.parkContext k c)

/-- A firing may be pre-empted: a gang firing never is, nor one that holds a trap or has ended (R63, R457).
DEDUCED (83). -/
def State.preemptible (s : State) (c : Ctx) : Bool :=
  !((s.launchOf c.launch c.gen).map (·.gang)).getD false &&
    match c.st with
    | .trapped .. => false
    | .ended _ => false
    | .moving => false
    | _ => true

/-- A is pre-empted rather than B: lower declared priority, then waiting, then younger (R63). -/
def State.yields (s : State) (a b : Ctx) : Bool :=
  decide (a.prio < b.prio) ||
    (a.prio == b.prio && ((s.waits a && !s.waits b) || (s.waits a == s.waits b && decide (b.age < a.age))))

/-- The tile of a slot is the tile of ready work: of a parked firing its logical tile's alone (R63). -/
def State.atHomeTile (s : State) (k : Nat) (r : Ready) : Bool :=
  s.placedOn k r && (r.ctx.isNone || r.kind == 2 ||
    ((s.launchOf r.launch r.gen).bind fun l => l.binds.get? r.place) == some (tileOf (coreOf k)))

/-- Ready work whose effective priority exceeds a running firing's declared one, with no free slot on its tile (R63): for a
firing of a gang instance, fewer than the instance needs.  A ready continuation record presses on any tile of its district that
is bound to its launch. DEDUCED (83). DESIGN CHOICE (126). -/
def State.presses (s : State) (k : Nat) (c : Ctx) (r : Ready) : Bool :=
  let free := (tileSlots (tileOf (coreOf k))).filter fun j => s.placedOn j r && s.mayTake j r
  let need := if s.gangWork r then (s.members r).length else 1
  decide (c.prio < r.effective s.time) && s.atHomeTile k r && decide (free.length < need)

/-- Pre-emption of the firing in a slot (R63): the one that yields first among those that the pressing work could replace.
DEDUCED (75). -/
def State.preempt (s : State) (k : Nat) (c : Ctx) : Option State :=
  match firstReady s.time (s.ready.filter (s.presses k c)) with
  | none => none
  | some r =>
    let slots := (tileSlots (tileOf (coreOf k))).filter fun j => s.placedOn j r
    let rivals := slots.filterMap fun j => (s.slotAt j).ctx.filter s.preemptible
    if s.preemptible c ∧ rivals.all fun d => !s.yields d c then s.moveOut k c else none

/-- `DISPATCH`: the dispatcher of a slot's district fills it, or has the firing in it make room (R61, R63). -/
def execDispatch (s : State) : Host.Outcome State Fault Refusal :=
  event (fun s =>
    let k := s.args.a
    if 65536 ≤ k ∨ !s.tileOpen (tileOf (coreOf k)) ∨ s.halted then none
    else
      match (s.slotAt k).ctx with
      | some c => s.preempt k c
      | none => s.fillSlot k) s

/-! ## Pipe actors (R42, R43) -/

/-- The first `n` unreserved records of each used input, taken out of the pipes: none where one is short. -/
def takeInputs : List (Nat × Nat) → Map (List Rec) → Map (List Rec) → Option (Map (List Rec) × Map (List Rec))
  | [], recs, got => some (recs, got)
  | (p, n) :: l, recs, got =>
    let r := recs.get p []
    if r.length < n then none
    else takeInputs l (recs.set p (r.drop n) []) (got.set p (got.get p [] ++ r.take n) [])

/-- `PIPE_ACTOR_FIRE`: a pipe actor whose inputs hold enough records fires with its next serial. -/
def execPipeActorFire (s : State) : Host.Outcome State Fault Refusal :=
  event (fun s =>
    let i := s.args.a
    let a := s.args.b
    match s.launches.get? i with
    | none => none
    | some l =>
      match l.actors[a]? with
      | none => none
      | some x =>
        if x.kind ≠ 1 ∨ !l.admitted ∨ l.killed ∨ s.halted then none
        else
          let ins := usedPipes x.inPipe x.inRate
          match takeInputs ins l.records [] with
          | none => none
          | some (recs, got) =>
            let n := l.serials.get a 0
            let counts := ins.foldl (fun m e => m.set e.1 (m.get e.1 0 + e.2) 0) l.reservedCount
            let l' := { l with records := recs, reservedCount := counts, serials := l.serials.set a (n + 1) 0 }
            let r : Ready :=
              { launch := i, gen := l.gen, actor := a, kind := 1, wid := BitVec.ofNat 64 n,
                place := ((ins.map (·.1)).headD 0) % Nat.max l.tiles 1, prio := l.prio, cls := l.cls, raised := 0,
                age := s.time, since := s.time, ctx := none, handler := none, code := 0, frame := 0, scope := 0,
                recs := got, starved := none, blocking := false }
            some { (s.setLaunch i l') with ready := s.ready ++ [r] }) s

/-! ## Time (R62, R66, R257) -/

/-- `PRIORITY_AGE`: ready work number `a` has waited another 100,000 ticks (R62). -/
def execPriorityAge (s : State) : Host.Outcome State Fault Refusal :=
  event (fun s =>
    match s.ready[s.args.a]? with
    | none => none
    | some r =>
      if r.blocking ∨ 7 ≤ r.prio + r.raised ∨ s.time < r.since + 100000 * (r.raised + 1) then none
      else some { s with ready := s.ready.set s.args.a { r with raised := r.raised + 1 } }) s

/-- `FIT_STARVATION`: ready work number `a`, at effective priority 7, has been passed over for fit for 100,000 ticks (R257). -/
def execFitStarvation (s : State) : Host.Outcome State Fault Refusal :=
  event (fun s =>
    match s.ready[s.args.a]? with
    | none => none
    | some r =>
      if r.effective s.time = 7 ∧ !r.alone ∧ r.starved.any fun t => decide (t + 100000 ≤ s.time) then
        some { s with ready := s.ready.set s.args.a { r with alone := true } }
      else none) s

/-- The slot that a `MIGR` takes when its stream is complete: the one chosen when it issued if that still qualifies, otherwise
another of its tile, if any (R214, R420); none on a tile that a recast has emptied (R90). -/
def State.moveDst (s : State) (m : Move) (c : Ctx) : Option Nat :=
  let subs := s.ownSubs c.uid (coreOf m.src)
  if !s.leaving (tileOf (coreOf m.dst)) ∧ subs.all fun j => (s.subAt (coreOf m.dst) j).owner.isNone then some m.dst
  else s.slotOn subs (tileOf (coreOf m.dst))

/-- `MIGRATION_COMPLETE`: once its loads are delivered (R347), the firing of a `MIGR` takes its destination slot, or, where none
qualifies any more, stays and returns 1 (R67, R214, R420, R465). -/
def execMigrationComplete (s : State) : Host.Outcome State Fault Refusal :=
  event (fun s =>
    match s.moves.find? (·.src == s.args.a), (s.slotAt s.args.a).ctx with
    | some m, some c =>
      if c.pend ≠ [] ∨ !c.vrests ∨ !c.settled ∨ s.matrixBusy c.uid then none
      else
        match c.st with
        | .moving =>
          let answer (v : Word) : Ctx := (match m.rd with
            | some rd => c.setS (BitVec.ofNat 5 rd) v
            | none => c).resume s.time
          let t := { s with moves := s.moves.filter (·.src != m.src) }
          match s.moveDst m c with
          | some dst => some (t.relocate m.src dst false (answer 0))
          | none => some (t.putCtx (.slot m.src) (answer 1))
        | _ => none
    | _, _ => none) s

/-- `FORWARDING_EXPIRE`: the entries of a slot that have outlived 100,000 ticks lapse (R66). -/
def execForwardingExpire (s : State) : Host.Outcome State Fault Refusal :=
  event (fun s =>
    let sl := s.slotAt s.args.a
    if sl.fwd.all fun f => f.live s.time then none
    else some (s.setSlot s.args.a { sl with fwd := sl.fwd.filter fun f => f.live s.time })) s

end Sys2Proof.Machine
end

