-- ==== Sys2Proof/Machine/Recasts.lean ====
section
/-! DEFINITION. The census, recast proposals, the sequences of a recast, and leases that expire (R72 to R92, R457, R482,
R503). -/

namespace Sys2Proof.Machine

/-! ## The role-map entry (R78) -/

def roleField (w : Word) : Nat := field w 0 2

/-- The entry with a state and a destination. -/
def roleState (w : Word) (st dest : Nat) : Word := setField (setField w 2 3 st) 32 10 dest

/-- An update that concerns a tile, or changes its entry, is announced and not yet delivered: a proposal for the tile is answered
BUSY. DESIGN CHOICE (170). -/
def State.updating (s : State) (tile : Nat) : Bool :=
  s.pan.any fun a => a.kind == 3 && (a.x == tile || a.entries.any (·.1 == tile))

/-- A hub announces a role-map update (R79): its entries, the tile it concerns, and the step that it begins. -/
def State.update (s : State) (tile step : Nat) (entries : List (Nat × Word)) : State :=
  s.announce (hubAnnounce 3 (districtOfTile tile) tile step entries)

/-- A tile serves as storage and holds no block (R82). -/
def State.unboundStorage (s : State) (tile : Nat) : Bool := roleField (s.roleOf tile) == 1 && !bit (s.roleOf tile) 5

def State.recastOf (s : State) (tile : Nat) : Option Recast := s.recasts.find? (·.tile == tile)

def State.setRecast (s : State) (r : Recast) : State :=
  { s with recasts := s.recasts.map fun q : Recast => if q.tile = r.tile then r else q }

/-! ## The census (R80) -/

/-- Ready work of a district that is not placed. -/
def State.unplaced (s : State) (d : Nat) : Nat :=
  (s.ready.filter fun r => !r.blocking &&
    (if r.kind = 2 then districtOf r.place == d
      else if r.kind = 3 ∧ r.ctx.isNone then r.place == d
      else (((s.launchOf r.launch r.gen).bind fun l => l.binds.get? r.place).map districtOfTile) == some d)).length

/-- Free slots of a district's compute tiles. -/
def State.freeSlots (s : State) (d : Nat) : Nat :=
  ((List.range 1024).filter fun i => s.compute (tileOf (d * 128 + i / 8)) && s.slotFree (d * 1024 + i)).length

/-- `CENSUS_SAMPLE`: what the sampler of a hub measures of the network is an operand, beside what the state tells: hub, link
occupancy, back-pressure. DESIGN CHOICE (90). -/
def execCensusSample (s : State) : Host.Outcome State Fault Refusal :=
  event (fun s =>
    let d := s.args.a
    let k := s.census.get d {}
    if 64 ≤ d ∨ s.absentHubs.contains d ∨ s.time / 5000 ≤ k.sampled then none
    else
      let le (n v : Nat) : List Byte := (List.range n).map (byteOf v)
      let r := le 8 s.time ++ le 2 (s.unplaced d) ++ le 2 (s.freeSlots d) ++ le 4 k.t3fail ++ le 4 (k.spill / 64) ++
        le 2 s.args.c ++ le 2 s.args.d ++ le 8 0
      let ring := k.ring ++ [r]
      let k' : Census := { ring := ring.drop (ring.length - 64), t3fail := 0, spill := 0, sampled := s.time / 5000 }
      some { s with census := s.census.set d k' {} }) s

/-! ## Destinations (R88, R90) -/

/-- A tile may take the block of a storage tile that leaves: it is stable unbound storage. -/
def State.takesBlock (s : State) (t : Nat) : Bool := s.unboundStorage t && field (s.roleOf t) 2 3 == 0 && !s.updating t

/-- The unbound storage tile nearest to a tile, ties to the lower index (R88). DEDUCED (87). -/
def State.storageDest (s : State) (tile : Nat) : Option Nat :=
  leastBy (hops tile) ((List.range 1024).filter fun t =>
    t != tile && s.takesBlock t && s.recasts.all fun r => r.tile == tile || r.dest != t)

/-- The destination of a storage recast: the one chosen before while it may take the block, otherwise another (R88).
DESIGN CHOICE (150). -/
def State.blockDest (s : State) (r : Recast) : Option Nat :=
  if s.takesBlock r.dest then some r.dest else s.storageDest r.tile

/-- The logical tiles bound to a tile, by launch-table index and then logical tile (R90). -/
def State.boundTo (s : State) (tile : Nat) : List (Nat × Nat) :=
  s.launches.flatMap fun e => (e.2.binds.filter (·.2 == tile)).map fun b => (e.1, b.1)

/-- A clustering bank is configured. -/
def State.bankLive (s : State) (tile q : Nat) : Bool := s.cabLive (tile * 2 + q)

/-- The compute tiles that remain when a tile leaves (R90). -/
def State.remaining (s : State) (tile : Nat) : List Nat :=
  s.computeTiles.filter fun t => t != tile && s.tileOpen t && (s.recastOf t).isNone

/-- Logical tiles given one after another to the tile that then holds the fewest (R75, R90). -/
def spread (count : Nat → Nat) (tiles : List Nat) : List (Nat × Nat) → Option (List (Nat × Nat × Nat))
  | [] => some []
  | (i, k) :: l =>
    match leastBy count tiles with
    | none => none
    | some t => (spread (fun u => count u + if u = t then 1 else 0) tiles l).map ((i, k, t) :: ·)

/-- Sub-tiles of a tile's cores whose owner is not in a slot of that core, but an `MMAG` leader or the issuer of a positioned
command elsewhere (R214, R218): core within the tile, sub-tile, owner. -/
def State.strays (s : State) (tile : Nat) : List (Nat × Nat × Nat) :=
  (List.range 32).filterMap fun n =>
    let core := coreBase tile + n / 4
    match (s.subAt core (n % 4)).owner with
    | some uid => if (s.slotOfUid uid).any fun k => coreOf k == core then none else some (n / 4, n % 4, uid)
    | none => none

/-- A bank of a tile is promised to that of another tile that leaves (R90, R482). DESIGN CHOICE (161). -/
def State.bankPromised (s : State) (tile t q : Nat) : Bool :=
  s.recasts.any fun r => r.tile != tile && r.dest == t && decide (r.step < 6) && roleField (s.roleOf r.tile) == 0 && s.bankLive r.tile q

/-- A tile can take what cannot be divided of a tile that leaves: its configured banks go to unconfigured ones (R90), and the
sub-tiles that it holds for firings elsewhere to unowned ones (R218). -/
def State.takesFrom (s : State) (tile t : Nat) : Bool :=
  (([0, 1].filter (s.bankLive tile)).all fun q => !s.bankLive t q && !s.bankPromised tile t q) &&
    (s.strays tile).all fun x => (s.subAt (coreBase t + x.1) x.2.1).owner.isNone

/-- Where a compute tile that leaves goes, and where each of its logical tiles does: together where the tile has a configured
bank (R90).  What `dest` and `old` chose before stands as long as it serves.  With no logical tile the destination is the one
that R75 would choose.  Of several destinations the role map names the one that stands, or that of the first logical tile.
DEDUCED (87). DESIGN CHOICE (149). -/
def State.computeMoves (s : State) (tile dest : Nat) (old : List (Nat × Nat × Nat)) :
    Option (Nat × List (Nat × Nat × Nat)) :=
  let ls := s.boundTo tile
  let tiles := (s.remaining tile).filter (s.takesFrom tile)
  let first := if tiles.contains dest then some dest else leastBy s.boundCount tiles
  if [0, 1].any (s.bankLive tile) then first.map fun t => (t, ls.map fun l => (l.1, l.2, t))
  else
    let kept := old.filter fun m => ls.contains (m.1, m.2.1) && tiles.contains m.2.2
    let rest := ls.filter fun l => !(kept.any fun m => m.1 == l.1 && m.2.1 == l.2)
    let count (t : Nat) : Nat := s.boundCount t + (kept.filter (·.2.2 == t)).length
    match spread count tiles rest, first with
    | some new, some t =>
      let moves := kept ++ new
      some (if tiles.contains dest then dest else ((moves.head?).map (·.2.2)).getD t, moves)
    | _, _ => none

/-- The destinations of a compute recast: those chosen as long as they serve; and, since an accepted recast always completes (R482),
where no remaining tile is open and nothing has to stay together, any other compute tile.  Once the firings have left they stand.
DEDUCED (87). -/
def State.lastMoves (s : State) (r : Recast) : Option (Nat × List (Nat × Nat × Nat)) :=
  if r.left then some (r.dest, r.moves)
  else (s.computeMoves r.tile r.dest r.moves).orElse fun _ =>
    let tiles := s.bindable.filter (· != r.tile)
    if [0, 1].any (s.bankLive r.tile) ∨ s.strays r.tile ≠ [] then none
    else
      (leastBy s.boundCount tiles).bind fun t =>
        (spread s.boundCount tiles (s.boundTo r.tile)).map fun l => (((l.head?).map (·.2.2)).getD t, l)

/-- A recast in progress has a destination, or needs none any more (R482). -/
def State.hasDest (s : State) (r : Recast) : Bool :=
  if roleField (s.roleOf r.tile) = 0 then
    decide (6 ≤ r.step) || (if r.left then r.dests.all s.tileOpen else (s.lastMoves r).isSome)
  else roleField (s.roleOf r.tile) != 1 || !bit (s.roleOf r.tile) 5 || decide (4 ≤ r.step) || (s.blockDest r).isSome

/-- A change leaves no recast in progress without a destination that it had (R482). DESIGN CHOICE (161). -/
def State.keepsServed (s t : State) : Bool := s.recasts.all fun r => !s.hasDest r || t.hasDest r

/-- A recast of a tile with a configured bank has its destination promised to it (R482). DESIGN CHOICE (161). -/
def State.promise (s : State) (tile : Nat) : State :=
  match s.recastOf tile with
  | some r =>
    if roleField (s.roleOf tile) = 0 ∧ r.step < 6 ∧ [0, 1].any (s.bankLive tile) then
      ((s.lastMoves r).map fun d => s.setRecast { r with dest := d.1, moves := d.2 }).getD s
    else s
  | none => s

/-! ## Proposals (R81, R82, R86) -/

/-- The tile, or the block that it holds, is leased (R81, R83). -/
def State.tileLeased (s : State) (tile : Nat) : Bool :=
  s.leases.any fun e =>
    decide (s.time < e.expiry) &&
      match s.launchOf e.launch e.gen with
      | none => false
      | some l => if e.blk then s.blockTile l.asn e.index == some tile else l.binds.get? e.index == some tile

/-- The launches that a recast affects, with the index that their notice names (R85, R86): of several logical tiles of a launch
the lowest, and none that is not yet admitted. DESIGN CHOICE (132). DESIGN CHOICE (171). -/
def State.affected (s : State) (tile : Nat) : List (Nat × Launch × Nat) :=
  let w := s.roleOf tile
  (s.launches.filter (·.2.admitted)).filterMap fun e =>
    if roleField w = 0 then ((e.2.binds.find? (·.2 == tile))).map fun b => (e.1, e.2, b.1)
    else if s.windows.any fun v => v.id == field w 16 16 && v.asn == e.2.asn then some (e.1, e.2, field w 6 10)
    else none

/-- The code of a proposal: the first condition in the order of R81.  One that would leave a recast in progress without a destination
finds none itself (R482). DESIGN CHOICE (161). -/
def State.proposalCode (s : State) (tile role lead : Nat) (bind : Bool) (window block : Nat) : Nat :=
  let w := s.roleOf tile
  let bound := bit w 5
  let blockBusy := (s.storageTile (blockPa window block)).isSome ||
    s.pan.any fun a => a.kind == 3 && a.entries.any fun e => bit e.2 5 && field e.2 6 10 == block && field e.2 16 16 == window
  if s.host.frzState ≠ 0 then 7
  else if 1024 ≤ tile ∨ roleField w = 3 then 1
  else if (if bind then !s.unboundStorage tile else roleField w == role) then 6
  else if lead ≠ 0 ∧ lead < 1600 then 5
  else if field w 2 3 ≠ 0 ∨ s.updating tile ∨ (s.recasts.any fun r => districtOfTile r.tile == districtOfTile tile) ∨
      16 ≤ s.recasts.length ∨ (bind ∧ blockBusy) then 3
  else if !bind ∧ s.tileLeased tile then 2
  else if !bind ∧ roleField w = 1 ∧ bound ∧ (s.storageDest tile).isNone then 4
  else if !bind ∧ roleField w = 0 ∧ (s.computeMoves tile 1024 []).isNone then 4
  else if !s.keepsServed (s.setRole tile (if bind then setField w 5 1 1 else roleState w 1 0)) then 4
  else 0

/-- A notice message (R86): tag 0, the new `cr.notice` as its payload; what the manual does not say of its header is zero.
DEDUCED (86). -/
def noticePacket (core launch gen : Nat) (notice : Word) : Packet :=
  { opcode := 0, flags := 0x20, len := 8, node := tileOf core, agent := core % 8, tslot := 0, tinc := 0, sslot := 0, sinc := 0,
    stamp := 0, reply := 0, op0 := 0, op1 := 0, aux := 0, payload := (List.range 8).map (byteOf notice.toNat),
    origin := { launch := launch, gen := gen }, scope := 9 }

/-- One launch receives a notice (R86). -/
def State.noticeLaunch (s : State) (tile serial deadline : Nat) (e : Nat × Launch × Nat) : State :=
  let (i, l, index) := e
  let onTile := roleField (s.roleOf tile) == 0
  let w : Word := BitVec.ofNat 64
    (index % 2 ^ 16 + (if onTile then 1 else 2) * 2 ^ 16 + serial * 2 ^ 24 + deadline % 2 ^ 32 * 2 ^ 32)
  let mine (k : Nat) (c : Ctx) : Bool :=
    c.launch == i && c.gen == l.gen && c.resident && (!onTile || tileOf (coreOf k) == tile)
  let slot (x : Nat × Slot) : Nat × Slot :=
    (x.1, { x.2 with ctx := x.2.ctx.map fun c => if mine x.1 c then { c with notice := w } else c })
  let s := { s with slots := s.slots.map slot, launches := s.launches.insert i { l with notice := w } }
  if l.noticeActor = 255 then s
  else
    let here := s.slots.find? fun x => tileOf (coreOf x.1) == tile && x.2.ctx.any fun c => c.launch == i && c.gen == l.gen &&
      c.resident
    let core := match here with
      | some x => coreOf x.1
      | none => coreBase (l.binds.get 0 0)
    { s with flying := s.flying ++ [noticePacket core i l.gen w] }

/-- A recast that has been accepted begins (R86, R88, R90, R503): with its notice, or, where it carries no program state, at
once. DESIGN CHOICE (7). -/
def State.beginRecast (s : State) (tile role lead : Nat) : State :=
  let w := s.roleOf tile
  let carries := roleField w == 0 || (roleField w == 1 && bit w 5)
  let affected := if carries then s.affected tile else []
  let serial := (s.noticeSerial + 1) % 256
  let deadline := s.time + (if lead = 0 then 6400 else lead)
  let r : Recast :=
    { tile := tile, role := role, step := 0, deadline := deadline, serial := if carries then serial else 0,
      affected := affected.map fun e => (e.1, e.2.1.gen), acked := [],
      dest := if roleField w = 1 ∧ bit w 5 then (s.storageDest tile).getD 0 else 1024,
      moves := [], acks := [], ackAt := none, frontier := 0, noticed := carries }
  let s := { s with recasts := s.recasts ++ [r], noticeSerial := if carries then serial else s.noticeSerial }
  let s := affected.foldl (fun s e => s.noticeLaunch tile serial deadline e) s
  s.update tile 1 [(tile, roleState w (if carries then 1 else 2) 0)]

/-- `RECAST_PROPOSAL`: tile, role, lead, and, for a bind, window and block; the answer stands in `recastCode`. -/
def execRecastProposal (s : State) : Host.Outcome State Fault Refusal :=
  event (fun s =>
    let tile := s.args.a
    let role := s.args.b
    let bind := s.args.flag
    let window := s.args.d % 2 ^ 16
    let block := s.args.e % 2 ^ 10
    if 2 < role then none
    else
      let code := s.proposalCode tile role s.args.c bind window block
      let s := { s with recastCode := code }
      if code ≠ 0 then some s
      else if bind then
        some (s.update tile 0
          [(tile, setField (setField (setField (s.roleOf tile) 5 1 1) 6 10 block) 16 16 window)])
      else some ((s.beginRecast tile role s.args.c).promise tile)) s

/-! ## The move (R87 to R90) -/

/-- The update that begins a tile's move is announced. -/
def State.moveAnnounced (s : State) (tile : Nat) : Bool := s.pan.any fun a => a.kind == 3 && a.x == tile && a.y == 2

/-- `RECAST_DEADLINE`: the move begins, at the deadline or once every affected launch has acknowledged, and so at once where
none is affected; at once in a freeze (R87, R89).  The update is announced whether or not that of the notice is delivered.  A
compute tile's destinations are chosen. DEDUCED (87). DEDUCED (133). -/
def execRecastDeadline (s : State) : Host.Outcome State Fault Refusal :=
  event (fun s =>
    match s.recastOf s.args.a with
    | none => none
    | some r =>
      let w := s.roleOf r.tile
      let due := decide (r.deadline ≤ s.time) || r.affected.all (fun a => r.acked.contains a) || s.host.frzState == 1
      if !r.noticed ∨ 1 < r.step ∨ s.moveAnnounced r.tile ∨ !due then none
      else if roleField w = 0 then
        (s.lastMoves r).map fun d =>
          (s.setRecast { r with dest := d.1, moves := d.2 }).update r.tile 2 [(r.tile, roleState w 2 d.1)]
      else
        (s.blockDest r).map fun d => (s.setRecast { r with dest := d }).update r.tile 2 [(r.tile, roleState w 2 d)]) s

/-- The first offset from `o` on, among `n` lines, whose line's lock bit is held, or the end: the copy frontier waits there
(R89, R120). -/
def State.unlockedTo (s : State) (pa : Nat) : Nat → Nat → Nat
  | 0, o => o
  | n + 1, o => if (s.lockAt (lockOf (pa + o))).owner.isSome then o else s.unlockedTo pa n (o + 64)

/-- `STORAGE_COPY_DONE`: the old tile copies lines of its block, in ascending offset, up to a locked one: `b` of them where the
flag is set, and otherwise all that are left.  With the last one the block is bound to the destination, and the old tile forwards
(R88, R89); where that tile can take no block any more, the copy begins again towards another one.  The block's address stays, so
nothing that reads it changes. DESIGN CHOICE (150). -/
def execStorageCopyDone (s : State) : Host.Outcome State Fault Refusal :=
  event (fun s =>
    match s.recastOf s.args.a with
    | none => none
    | some r =>
      let w := s.roleOf r.tile
      let block := field w 6 10
      let window := field w 16 16
      if r.step ≠ 2 ∨ roleField w ≠ 1 ∨ field w 2 3 ≠ 2 ∨ s.updating r.tile then none
      else if !s.takesBlock r.dest then
        (s.blockDest r).map fun d =>
          (s.setRecast { r with dest := d, frontier := 0 }).update r.tile 2 [(r.tile, roleState w 2 d)]
      else
        let left := (0x700000 - r.frontier) / 64
        let upTo := s.unlockedTo (blockPa window block) (if s.args.flag then Nat.min left s.args.b else left) r.frontier
        let s := s.setRecast { r with frontier := upTo }
        if upTo < 0x700000 then some s
        else
          let d := setField (setField (setField (s.roleOf r.dest) 5 1 1) 6 10 block) 16 16 window
          some (s.update r.tile 4 [(r.dest, d), (r.tile, roleState w 3 r.dest)])) s

/-- A byte of a tile's memory has moved away with its page. -/
def Recast.took (r : Recast) (pa : Nat) : Bool := r.pages.any fun p => decide (p.1 ≤ pa) && decide (pa < p.1 + p.2.1)

/-- Every page of tiers 1 and 2 that the tile holds has moved (R90): its pools' live blocks, and whatever is not zero outside the
banks' state regions. DEDUCED (134). -/
def State.pagesGone (s : State) (r : Recast) : Bool :=
  let base := 0x4000000000000 + r.tile * 0x800000
  let held (pa : Nat) : Bool :=
    decide (base ≤ pa) && decide (pa < base + 0x800000) && !bankState pa && (tierOf pa == some 1 || tierOf pa == some 2)
  s.mem.all (fun e => !held e.1 || r.took e.1) &&
    s.pools.all fun p => !p.onTile r.tile || p.live.all fun b => b.moved ||
      (s.poolAddr p b.off).all fun pa => (List.range (Nat.max 1 (2 ^ b.lg / 1024))).all fun i => r.took (pa + 1024 * i)

/-- Nothing that the device holds still leads into the memory or the engines of a tile: its pages have migrated (R179), and
its commands are done (R90).  Multicast lines follow the tile's logical tiles (R141), and panels of `MMAG` their pages (R179). -/
def State.tileQuiet (s : State) (tile : Nat) : Bool :=
  let here (pa : Nat) : Bool := regionOf pa == 2 && tileOfPa pa == tile
  let entry (e : TlbEntry) : Bool := bit e.leaf 0 && here (leafFrame e.leaf)
  let first := coreBase tile
  !(s.cores.any fun e => e.2.tlb.any entry || (e.1 / 8 == first / 8 && !e.2.mq.isEmpty)) &&
    !(s.tiles.any fun e => e.2.tlb.any entry ||
      (e.1 == tile && (!e.2.granted.isEmpty || !e.2.mwait.isEmpty || !e.2.mfly.isEmpty))) &&
    !(s.enqTlb.any entry) && !(s.flights.any fun f => here f.line.home) && !(s.conts.any fun k => here k.home) &&
    !(s.chains.any fun c => c.engine == 1 && c.node == tile) && !(s.arrived.any fun p => p.node == tile) &&
    !(s.copies.any fun l => l.node == tile || (l.dst == .phys && l.cells.any fun p => here p.2))

/-- The contexts of a tile's slots. -/
def State.residents (s : State) (tile : Nat) : List (Nat × Ctx) :=
  (tileSlots tile).filterMap fun k => (s.slotAt k).ctx.map (k, ·)

/-- A clustering bank moves bit for bit to the bank of the same quad of another tile (R90); what waits at it is applied where it moves
to, or, for a bank that is not configured, at the destination of the logical tile that it names, ahead of what waits there already
(R237). DESIGN CHOICE (158). -/
def State.moveBank (s : State) (r : Recast) (q : Nat) : State :=
  let a := r.tile * 2 + q
  let goal (m : BankCmd) : Nat := r.bankTo m.origin.launch m.logical * 2 + q
  let waiting := (s.bankAt a).arrivals
  let s := s.setBank a { s.bankAt a with arrivals := [] }
  let s := waiting.reverse.foldl (fun s m =>
    s.setBank (goal m) { s.bankAt (goal m) with arrivals := m :: (s.bankAt (goal m)).arrivals }) s
  let b := r.dest * 2 + q
  if s.bankLive r.tile q then
    let lo := bankBase a
    let s := (s.mem.filter fun e => decide (lo ≤ e.1) && decide (e.1 < lo + 0x24000)).foldl
      (fun t e => t.writeByte 3 0 (e.1 - lo + bankBase b) e.2) (s.cabZero b 0 0x24000)
    let bad := (s.badLines.filter fun l => decide (lo ≤ l) && decide (l < lo + 0x24000)).map fun l => l - lo + bankBase b
    let s := { s with badLines := bad ++ s.badLines }
    (s.setBank b { s.bankAt a with arrivals := (s.bankAt b).arrivals }).setBank a {}
  else s

/-- The destination tile of a resident firing of a tile that leaves: that of its logical tile (R90). -/
def State.destOf (s : State) (r : Recast) (c : Ctx) : Nat :=
  match (s.launchOf c.launch c.gen).bind fun l => l.binds.get? c.place with
  | some h => if h = r.tile then r.goesTo c.launch c.place else h
  | none => r.dest

/-- The core to which a sub-tile that a tile holds for a firing elsewhere goes: the same one, at the destination of the logical tile
through which it was named (R218). -/
def State.strayCore (s : State) (r : Recast) (x : Nat × Nat × Nat) : Nat :=
  let b := s.subAt (coreBase r.tile + x.1) x.2.1
  coreBase (((s.ctxOfUid x.2.2).bind fun c => b.logical.map (r.goesTo c.launch)).getD r.dest) + x.1

/-- The places to which a tile's sub-tiles for firings elsewhere go are held for them (R218). -/
def State.holdStrays (s : State) (r : Recast) : State :=
  (s.strays r.tile).foldl (fun t x =>
    t.setSub (s.strayCore r x) x.2.1 { s.subAt (coreBase r.tile + x.1) x.2.1 with elems := [] }) s

/-- The places to which those sub-tiles go are theirs, or nobody's. -/
def State.straysFit (s : State) (r : Recast) : Bool :=
  (s.strays r.tile).all fun x => (s.subAt (s.strayCore r x) x.2.1).owner.all (· == x.2.2)

/-- The sub-tiles that a tile holds for firings elsewhere move to the same cores and numbers at the destinations of the logical tiles
through which they were named (R218). -/
def State.moveStrays (s : State) (r : Recast) : State :=
  (s.strays r.tile).foldl (fun t x =>
    let core := coreBase r.tile + x.1
    (t.setSub (s.strayCore r x) x.2.1 (s.subAt core x.2.1)).setSub core x.2.1 {}) s

/-- The home tile of a home-0 pipe, by its key (R43). -/
def State.pipeTile (s : State) (i : Nat) (l : Launch) (key : Nat) : Option Nat :=
  if l.gang then
    (s.contexts.find? fun c => c.launch == i && c.gen == l.gen && c.wid.toNat == key / 32).bind fun c => l.binds.get? c.place
  else l.binds.get? (key % Nat.max l.tiles 1)

/-- Home-0 pipes of a tile that leaves go to tier 4 where its destination's quad store has no room for them: those that the list
names, by launch and key, have found none (R90).  The others go to the quad store. DESIGN CHOICE (159). -/
def State.pipesAway (s : State) (r : Recast) (l : List (Nat × Nat)) : State :=
  l.foldl (fun s e =>
    match s.launches.get? e.1 with
    | some a =>
      if (a.pipes[e.2 % 32]?).any (·.home == 0) ∧ s.pipeTile e.1 a e.2 = some r.tile ∧ !a.away.contains e.2 then
        s.setLaunch e.1 { a with away := e.2 :: a.away }
      else s
    | none => s) s

/-- A firing, none of a gang, leaves a tile for a free slot at its destination, or elsewhere in its compute set, or parks (R65, R90); a
handler firing goes with its message. -/
def State.evict (s : State) (r : Recast) (k : Nat) (c : Ctx) : State :=
  let subs := s.ownSubs c.uid (coreOf k)
  if c.kind = 2 then
    let core := coreBase (r.launchTo c.launch) + coreOf k % 8
    let c := { c with place := core }
    match ((List.range 8).map (core * 8 + ·)).find? (s.slotQualifies subs) with
    | some j => s.relocate k j false c
    | none => s.parkContext k c
  else
    match (s.slotOn subs (s.destOf r c)).orElse fun _ => s.refuge k c with
    | some j => s.relocate k j false c
    | none => s.parkContext k c

/-- The firings of a gang instance leave a tile for free slots at its destination; none where one of them finds no slot. -/
def State.relocateAll (s : State) (r : Recast) : List (Nat × Ctx) → Option State
  | [] => some s
  | (k, c) :: l =>
    (s.slotOn (s.ownSubs c.uid (coreOf k)) (s.destOf r c)).bind fun j => (s.relocate k j false c).relocateAll r l

/-- A gang instance moves whole, or parks whole (R63, R90, R466). -/
def State.evictGang (s : State) (r : Recast) (l : List (Nat × Ctx)) : State :=
  (s.relocateAll r l).getD (l.foldl (fun s e => s.parkContext e.1 e.2) s)

/-- Every resident firing leaves a tile, gang instances first, in the order of their first slots (R90). -/
def State.evictAll (s : State) (r : Recast) : State :=
  let all := s.residents r.tile
  let gang (c : Ctx) : Bool := ((s.launchOf c.launch c.gen).map (·.gang)).getD false
  let key (c : Ctx) : Nat × Nat × Word := (c.launch, c.gen, c.wid)
  let s := ((all.filter fun e => gang e.2).map fun e => key e.2).eraseDups.foldl (fun s i =>
    s.evictGang r (all.filter fun e => gang e.2 && key e.2 == i)) s
  (all.filter fun e => !gang e.2).foldl (fun s e => s.evict r e.1 e.2) s

/-- An inbox takes a moved message: one whose handler firing exists keeps its entry, another one takes a free entry; none where
that cannot be. -/
def Core.takeMsg (k : Core) (m : InMsg) : Option Core :=
  let free (e : Nat) : Bool := k.inbox.all (·.entry != e)
  if free m.entry then some { k with inbox := k.inbox ++ [m] }
  else if m.begun then none
  else ((List.range 16).find? free).map fun e => { k with inbox := k.inbox ++ [{ m with entry := e }] }

/-- The messages in the inboxes of a tile move to their destination cores, in their order, and their handler firings with them;
none while an inbox has no room (R90). -/
def State.moveInboxes (s : State) (r : Recast) : Option State :=
  ((List.range 8).map (coreBase r.tile + ·)).foldlM (fun s a =>
    ((s.coreAt a).inbox).foldlM (fun (s : State) m => do
      let b := s.msgCore r a m
      let k ← (s.coreAt b).takeMsg m
      let mine (q : Ready) : Bool := q.kind == 2 && q.place == a &&
        (q.handler.any (·.2.1 == m.entry) || q.ctx.any fun c => c.msg.any (·.1 == m.entry))
      let go (q : Ready) : Ready :=
        if mine q then
          { q with place := b, handler := q.handler.map fun h => (b, h.2), ctx := q.ctx.map fun c => { c with place := b } }
        else q
      let s := { s with ready := s.ready.map go }
      let left := s.setCore a { s.coreAt a with inbox := (s.coreAt a).inbox.filter (·.entry != m.entry) }
      some (left.setCore b k)) s) s

/-- The inboxes of a tile hold no message. -/
def State.inboxesEmpty (s : State) (tile : Nat) : Bool :=
  (List.range 8).all fun i => (s.coreAt (coreBase tile + i)).inbox.isEmpty

/-- A tile's firings and messages leave for their destinations (R90, step 3): traps are waited for (R457), and checked intervals
close first. -/
def State.vacateTile (s : State) (r : Recast) : Option State :=
  let open_ := (s.residents r.tile).filter fun e => e.2.checkedSince.isSome && e.2.atBoundary
  if open_ ≠ [] then
    some (open_.foldl (fun s e =>
      (({ s := s, who := .slot e.1, c := e.2 } : Cx).closeStopped.put).settle e.1) s)
  else if (s.residents r.tile).any fun e => !s.mayLeave e.2 then none
  else
    (s.lastMoves r).bind fun d =>
      let r := { r with dest := d.1, moves := d.2, left := true }
      let clear (e : Nat × Slot) : Nat × Slot :=
        if tileOf (coreOf e.1) = r.tile then (e.1, { e.2 with reservedFor := none }) else e
      (s.moveInboxes r).map fun s =>
        ((({ s with slots := s.slots.map clear } : State).holdStrays r).evictAll r).setRecast r

/-- The tile's pages, pipes and banks are at their destinations, and its engines done: the update that rebinds its logical tiles is
announced (R90, steps 4 to 6). -/
def State.rebindTile (s : State) (r : Recast) : Option State :=
  if !s.tileQuiet r.tile ∨ !s.pagesGone r ∨ !s.straysFit r then none
  else
    let s := (s.pipesAway r s.args.pairs).moveStrays r
    some (((s.moveBank r 0).moveBank r 1).update r.tile 6 [(r.tile, roleState (s.roleOf r.tile) 3 r.dest)])

/-- `COMPUTE_RECAST_REBIND`: a tile's firings and messages leave; and then, once its pages have migrated and its engines are done,
its pipes and banks move, and its logical tiles are rebound (R13, R90). -/
def execComputeRecastRebind (s : State) : Host.Outcome State Fault Refusal :=
  event (fun s =>
    match s.recastOf s.args.a with
    | none => none
    | some r =>
      let w := s.roleOf r.tile
      if r.step ≠ 2 ∨ roleField w ≠ 0 ∨ field w 2 3 ≠ 2 ∨ s.updating r.tile then none
      else if !r.left ∨ s.residents r.tile ≠ [] ∨ !s.inboxesEmpty r.tile then s.vacateTile r
      else s.rebindTile r) s

/-- The step after whose acknowledgement a recast ends (R88, R90, R503). -/
def lastMove (w : Word) : Nat := if roleField w = 0 then 6 else if roleField w = 1 ∧ bit w 5 then 4 else 1

/-- `RECAST_FINISH`: every present district has acknowledged, and two Panpipe windows have passed: the update that gives the
tile its new role is announced (R88, R90, R503).  A tile that leaves routing role has sent its staged multicasts first (R92),
the last of them two windows ago. -/
def execRecastFinish (s : State) : Host.Outcome State Fault Refusal :=
  event (fun s =>
    match s.recastOf s.args.a with
    | none => none
    | some r =>
      let w := s.roleOf r.tile
      let waited := r.ackAt.any fun t => decide (windowAt t + 2 ≤ windowAt s.time)
      if r.step ≠ lastMove w ∨ s.updating r.tile ∨ !waited ∨ s.mcasts.any (·.staged == some r.tile) then none
      else some (s.update r.tile lastStep [(r.tile, BitVec.ofNat 64 r.role)])) s

/-- `LEASE_EXPIRE` (R83): lease number `a` has reached its expiry. -/
def execLeaseExpire (s : State) : Host.Outcome State Fault Refusal :=
  event (fun s =>
    match s.leases[s.args.a]? with
    | none => none
    | some e => if e.expiry ≤ s.time then some { s with leases := s.leases.eraseIdx s.args.a } else none) s

end Sys2Proof.Machine
end

