-- ==== Sys2Proof/Machine/Arrivals.lean ====
section
/-! DEFINITION. The event by which what waits at a clustering bank takes effect (R90, R230, R233, R237, R482). -/

namespace Sys2Proof.Machine

/-- A configuration waits at the banks of a tile whose firings have left it, and of the destination to which its own banks are still
to move (R90). DESIGN CHOICE (161). -/
def State.configHeld (s : State) (b : Nat) : Bool :=
  s.recasts.any fun r => r.left && decide (r.step < 6) && (r.tile == b / 2 || (r.dest == b / 2 && s.bankLive r.tile (b % 2)))

/-- A bank command takes effect; none where it must wait: a configuration that would leave a recast in progress without a destination
does (R482). DESIGN CHOICE (161). -/
def State.cabTake (s : State) (b : Nat) (m : BankCmd) : Option State :=
  ((s.engCross m.origin 3).cabRun b m).bind fun t =>
    let t := s.cabIntegrity t b m
    if m.kind ≠ 0 then some t
    else if s.configHeld b ∨ !s.keepsServed t then none
    else some (t.promise (b / 2))

/-- `CAB_ARRIVAL` (R233, R237): the oldest arrival at a bank takes effect. -/
def execCabArrival (s : State) : Host.Outcome State Fault Refusal :=
  event (fun s =>
    let b := s.args.a
    let k := s.bankAt b
    match k.arrivals with
    | [] => none
    | m :: rest => if s.halted then none else (s.setBank b { k with arrivals := rest }).cabTake b m) s

end Sys2Proof.Machine
end

