-- ==== Sys2Proof/Machine/Control.lean ====
section
/-! DEFINITION. Branches and jumps, `REALIGN`, `FIN` and `NOP`: majors 0x18 to 0x1F (R334 to R342). -/

namespace Sys2Proof.Machine

/-- On to an address. -/
def Cx.goto (x : Cx) (pc : Word) : Cx := { x with c := { x.c with pc := pc, verdicts := [] } }

/-- A conditional branch (R334); the hint changes no result (R336). -/
def branch (i : Instr) (off : BitVec 11) (b a : BitVec 5) (p : Word → Word → Bool) (s : State) :
    Host.Outcome State Fault Refusal :=
  issueOn { system := true, meets := .beside [a, b] none } i
    (fun x => .ok (if p (x.c.sreg a) (x.c.sreg b) then x.goto (x.c.pc + imm off * 2) else x.next 4)) s

/-- `BEQ` -/
def execBeq (h : BitVec 1) (i : BitVec 11) (b a : BitVec 5) (s : State) : Host.Outcome State Fault Refusal :=
  branch (.beq h i b a) i b a (fun u v => u == v) s

/-- `BNE` -/
def execBne (h : BitVec 1) (i : BitVec 11) (b a : BitVec 5) (s : State) : Host.Outcome State Fault Refusal :=
  branch (.bne h i b a) i b a (fun u v => u != v) s

/-- `BLT` -/
def execBlt (h : BitVec 1) (i : BitVec 11) (b a : BitVec 5) (s : State) : Host.Outcome State Fault Refusal :=
  branch (.blt h i b a) i b a (fun u v => u.slt v) s

/-- `BGE` -/
def execBge (h : BitVec 1) (i : BitVec 11) (b a : BitVec 5) (s : State) : Host.Outcome State Fault Refusal :=
  branch (.bge h i b a) i b a (fun u v => !u.slt v) s

/-- `BLTN` -/
def execBltn (h : BitVec 1) (i : BitVec 11) (b a : BitVec 5) (s : State) : Host.Outcome State Fault Refusal :=
  branch (.bltn h i b a) i b a (fun u v => u.ult v) s

/-- `BGEN` -/
def execBgen (h : BitVec 1) (i : BitVec 11) (b a : BitVec 5) (s : State) : Host.Outcome State Fault Refusal :=
  branch (.bgen h i b a) i b a (fun u v => !u.ult v) s

/-- `LOOP` (R335). -/
def execLoop (h : BitVec 1) (i : BitVec 11) (a : BitVec 5) (s : State) : Host.Outcome State Fault Refusal :=
  issueOn { system := true, meets := .beside [a] none } (.loop h i a) (fun x =>
    let c := x.c.sreg a
    let c' := if c = 0 then 0 else c - 1
    let x := if c = 0 then x else { x with c := x.c.setS a c' }
    .ok (if c' = 0 then x.next 4 else x.goto (x.c.pc + imm i * 2))) s

/-- `JAL` (R337). -/
def execJal (i : BitVec 20) (d : BitVec 5) (s : State) : Host.Outcome State Fault Refusal :=
  issueOn { system := true, meets := .beside [d] none } (.jal i d) (fun x =>
    .ok ({ x with c := x.c.setS d (x.c.pc + 4) }.goto (x.c.pc + imm i * 2))) s

/-- `JALR` (R337): the base is read before the link is written (R318). -/
def execJalr (i : BitVec 12) (a d : BitVec 5) (s : State) : Host.Outcome State Fault Refusal :=
  issueOn { system := true, meets := .beside [a, d] none } (.jalr i a d) (fun x =>
    .ok ({ x with c := x.c.setS d (x.c.pc + 4) }.goto ((x.c.sreg a + imm i) &&& ~~~(1 : Word)))) s

/-- `REALIGN` (R338). -/
def execRealign (n : BitVec 12) (s : State) : Host.Outcome State Fault Refusal :=
  issue { meets := .beside [] none } (.realign n) (fun _ => true) (fun x =>
    if n = 0 then .ok (x.next 4).put
    else .ok ({ x with c := { x.c with st := .realign (100 * n.toNat) x.s.time } }.put.realignTest (tileOf x.core))) s

/-- `FIN` (R340). -/
def execFin (s : State) : Host.Outcome State Fault Refusal :=
  issue {} .fin (fun _ => true) (fun x => .ok (x.finish false false)) s

/-- `NOP` (R342). -/
def execNop (s : State) : Host.Outcome State Fault Refusal :=
  issueOn { system := true, meets := .beside [] none } .nop (fun x => .ok (x.next 4)) s

end Sys2Proof.Machine
end

