-- ==== Sys2Proof/Machine/Copy.lean ====
section
/-! DEFINITION. Instructions that send a command to an engine by message: `ECOPY`, `BARINIT`, `BARADD`, the
clustering-bank instructions and `SCAN`: majors 0x31 to 0x33 (R368, R382, R386 to R394). -/

namespace Sys2Proof.Machine

/-! ## Messages to engines (R131, R371) -/

/-- A command's message, with its operands as the engine receives them. -/
def Cx.engineMsg (x : Cx) (node agent opcode op0 op1 aux : Nat) (payload : List Byte) : Packet :=
  { opcode := opcode, flags := 0, len := payload.length, node := node, agent := agent, tslot := 0, tinc := 0,
    sslot := x.slot % 65536, sinc := x.slotInc, stamp := 0, reply := 0, op0 := op0, op1 := op1, aux := aux,
    payload := payload, origin := x.origin, scope := 0, home := some 0 }

/-- The message is composed once the tile's injection queue has room for it (R133); it enters that when the lines that its issuer
committed before it are at their homes (R131). -/
def Cx.toEngine (x : Cx) (p : Packet) : Except Stop Cx :=
  let tile := tileOf x.core
  let t := x.s.tileAt tile
  if x.s.injRoom tile then
    .ok { x with s := { x.s.setTile tile { t with held := t.held ++ [p] } with nextId := x.s.nextId + 1 } }
  else .error x.stay

/-- The instruction has committed its region, and sends one message (R368). -/
def sendCommand (i : Instr) (m : Cx → Packet) (st : State) : Host.Outcome State Fault Refusal :=
  issue {} i (fun _ => true) (fun x =>
    let x := x.commit
    (x.toEngine (m x)).map fun y => y.done.put) st

/-- `ECOPY` (R382). -/
def execEcopy (i : BitVec 7) (a : BitVec 5) (s : State) : Host.Outcome State Fault Refusal :=
  sendCommand (.ecopy i a) (fun x => x.engineMsg (tileOf x.core) 8 0x10 (x.c.sreg a).toNat 0 i.toNat []) s

/-- `SCAN` (R394): the scan sequencer of the district's hub. -/
def execScan (i : BitVec 7) (a : BitVec 5) (s : State) : Host.Outcome State Fault Refusal :=
  sendCommand (.scan i a)
    (fun x => x.engineMsg (1024 + districtOf x.core) 12 0x30 (x.c.sreg a).toNat 0 i.toNat []) s

/-! ## Barrier objects (R123, R386) -/

/-- `BARINIT` and `BARADD`: the object is checked when the instruction executes, as a store is (R386, R468). -/
def barrierOp (i : Instr) (opcode : Nat) (b a : BitVec 5) (st : State) : Host.Outcome State Fault Refusal :=
  issue {} i (fun _ => true) (fun x => do
    let va := (x.c.sreg a).toNat
    let (p, x) ← x.operand .objects .store va 16 16
    if x.s.unbacked p.key then .error (.raise (x.trap 2 1 (BitVec.ofNat 64 va) p.leaf))
    else
      let x := x.commit
      let m := x.engineMsg (x.s.homeNode p.key) 14 opcode va 0 (x.c.sreg b).toNat []
      let y ← x.toEngine { m with home := some p.key }
      .ok y.done.put) st

/-- `BARINIT` (R386). -/
def execBarinit (b a : BitVec 5) (s : State) : Host.Outcome State Fault Refusal := barrierOp (.barinit b a) 0x11 b a s

/-- `BARADD` (R386). -/
def execBaradd (b a : BitVec 5) (s : State) : Host.Outcome State Fault Refusal := barrierOp (.baradd b a) 0x12 b a s

/-! ## Clustering banks (R387 to R393) -/

/-- The bank that a bank register names: tile and quad; none where it names none (R387). -/
def Cx.bankOf (x : Cx) (w : Word) : Option (Nat × Nat) :=
  if field w 17 47 ≠ 0 then none else (x.s.logicalTile x.origin (field w 0 16)).map fun t => (t, field w 16 1)

/-- The instruction is done, and its command ends with RANGE at once (R387). -/
def Cx.bankRefused (x : Cx) (tag : Nat) (done : Cx → Cx) : State :=
  (done x).put.report { path := 3, tile := tileOf x.core, origin := x.origin, engine := 3 } tag (4 * errRange)
    x.c.pc.toNat true

/-- A command to a bank: kind as R371 numbers it, then address, tag, register for the reply, argument and payload. -/
def bankCommand (i : Instr) (kind : Nat) (sk : BitVec 5) (addr : Cx → Nat) (tag rd : Nat) (arg : Cx → Nat)
    (payload : Cx → List Byte) (refused done : Cx → Cx) (st : State) : Host.Outcome State Fault Refusal :=
  issue {} i (fun _ => true) (fun x =>
    let x := x.commit
    match x.bankOf (x.c.sreg sk) with
    | none => .ok (x.bankRefused tag refused)
    | some (tile, quad) =>
      let m := x.engineMsg tile (10 + quad) (0x20 + kind) (addr x) (tag + rd * 2 ^ 32) (arg x) (payload x)
      (x.toEngine { m with logical := some (field (x.c.sreg sk) 0 16) }).map fun y => (done y).put) st

/-- The stream waits for the bank's reply (R393). -/
def Cx.awaitReply (x : Cx) : Cx := { x with c := { x.c with st := .replyWait } }

/-- `CABCFG` (R388). -/
def execCabcfg (i : BitVec 7) (c k : BitVec 5) (s : State) : Host.Outcome State Fault Refusal :=
  bankCommand (.cabcfg i c k) 0 k (fun x => (x.c.sreg c).toNat) i.toNat 0 (fun _ => 0) (fun _ => []) Cx.done Cx.done s

/-- A vector with the lanes that a mask disables zero; lanes of 32 bits where `wide` (R389). -/
def maskedVec (wide : Bool) (m : Word) (v : Vec) : Nat :=
  let w := if wide then 32 else 16
  packLanes w ((List.range (1024 / w)).map fun j => if enabled m j then lane v w j else 0)

/-- The payload of a push (R389). -/
def pushPayload (c : Ctx) (m : BitVec 3) (v : BitVec 5) (sw : Word) : List Byte :=
  let one (r : Nat) : List Byte :=
    let x := maskedVec (bit sw 10) (c.mask m.toNat) (c.vreg (r % 16))
    (List.range 128).map (byteOf x)
  one v.toNat ++ if bit sw 9 then one (v.toNat + 1) else []

/-- `CABPUSH` (R389). -/
def execCabpush (m : BitVec 3) (v k w : BitVec 5) (s : State) : Host.Outcome State Fault Refusal :=
  bankCommand (.cabpush m v k w) 1 k (fun _ => 0) 0 0 (fun x => (x.c.sreg w).toNat)
    (fun x => pushPayload x.c m v (x.c.sreg w)) Cx.done Cx.done s

/-- The no-pair answer of `CABMRG` (R390, R393). -/
def noPair : Word := 0xFFFF

/-- `CABMRG` (R390): one that ends with RANGE still answers its slot (R393). -/
def execCabmrg (k d : BitVec 5) (s : State) : Host.Outcome State Fault Refusal :=
  bankCommand (.cabmrg k d) 2 k (fun _ => 0) 0 d.toNat (fun _ => 0) (fun _ => [])
    (fun x => { x with c := x.c.setS d noPair }.done) Cx.awaitReply s

/-- `CABRD` (R391). -/
def execCabrd (c k i : BitVec 5) (s : State) : Host.Outcome State Fault Refusal :=
  bankCommand (.cabrd c k i) 3 k (fun x => (x.c.sreg c).toNat) 0 0 (fun x => (x.c.sreg i).toNat) (fun _ => [])
    Cx.done Cx.awaitReply s

/-- `CABDRN` (R392). -/
def execCabdrn (i : BitVec 7) (c k : BitVec 5) (s : State) : Host.Outcome State Fault Refusal :=
  bankCommand (.cabdrn i c k) 4 k (fun x => (x.c.sreg c).toNat) i.toNat 0 (fun _ => 0) (fun _ => []) Cx.done Cx.done s

/-- `CABCLR` (R392). -/
def execCabclr (k : BitVec 5) (s : State) : Host.Outcome State Fault Refusal :=
  bankCommand (.cabclr k) 5 k (fun _ => 0) 0 0 (fun _ => 0) (fun _ => []) Cx.done Cx.done s

end Sys2Proof.Machine
end

