-- ==== Sys2Proof/Machine/HostBoot.lean ====
section
/-! DEFINITION. Power-up and boot, the host's accesses and registers, the mailbox, and loss of power (R31 to R34, R145,
R147, R260 to R273, R490, R492 to R494). -/

namespace Sys2Proof.Machine

/-- The low `n` bytes of a number, lowest first (R9). DEDUCED (103). -/
def leBytes (n v : Nat) : List Byte := (List.range n).map (byteOf v)

/-- Bytes written into a map from a key on. -/
def putBytes (m : Map Byte) (base : Nat) (l : List Byte) : Map Byte :=
  (l.zip (List.range l.length)).foldl (fun m p => m.set (base + p.2) p.1 0) m

/-- Bytes read from a map. -/
def getBytes (m : Map Byte) (base n : Nat) : List Byte := (List.range n).map fun i => m.get (base + i) 0

/-! ## Boot (R260, R261, R493, R494) -/

/-- `POWER_UP`: the tiles and the hubs that fail their self-test are operands; they are absent (R31, R32). -/
def execPowerUp (s : State) : Host.Outcome State Fault Refusal :=
  event (fun s =>
    if s.host.stage ≠ 0 then none
    else
      let hubs := s.args.data2.filter (decide <| · < 64)
      let gone (t : Nat) : Bool := s.args.data.contains t || hubs.contains (districtOfTile t)
      let roles := (List.range 1024).foldl (fun m t => if gone t then m.set t 3 0 else m) s.roles
      some ({ s with roles := roles, absentHubs := hubs }.setHost { s.host with stage := 1 })) s

/-- The image in boot SRAM has the layout of R261. -/
def HostSide.imageOk (h : HostSide) : Bool :=
  let f (o : Nat) : Nat := listNat (getBytes h.bootSram o 4) 0 4
  f 0 == 0x434C4C43 && decide (64 ≤ f 4) && decide (f 4 ≤ 3145728) && f 4 % 64 == 0 && decide (f 8 < f 4)

/-- The body of the image. -/
def HostSide.body (h : HostSide) : List Byte := getBytes h.bootSram 0x80 (listNat (getBytes h.bootSram 4 4) 0 4)

/-- The body's entry offset, where the boot ROM starts Chanter (R260, R261). -/
def HostSide.entryOffset (h : HostSide) : Nat := listNat (getBytes h.bootSram 8 4) 0 4

/-- `BOOT_GO`: step 3 of R260; a failure leaves stage 2 with BAR 2 open (R493). -/
def execBootGo (s : State) : Host.Outcome State Fault Refusal :=
  event (fun s =>
    let h := s.host
    if h.stage ≠ 1 ∧ h.stage ≠ 2 then none
    else if h.imageOk ∧ Config.ed25519Verifies Config.rootKey (leBytes 64 (Config.sha512 h.body))
        (getBytes h.bootSram 0x40 64) then
      some (s.setHost { h with
        stage := 3, go := true, bar2 := false, chanterDigest := Config.sha512 h.body, entry := h.entryOffset })
    else some (s.setHost { h with stage := 2, go := false })) s

/-- A kernel-reserved range as a manifest may give it (R261). DESIGN CHOICE (102). -/
def reservedOk (r : Nat × Nat) : Bool := r.1 % 1024 == 0 && (r.2 + 1) % 1024 == 0 && decide (r.1 ≤ r.2)

/-- Bytes of host memory that the manifest names: address and length (R261, R268). -/
def State.hostImage (s : State) (r : Nat × Nat) : List Byte := (List.range r.2).map fun i => s.byteAt (hostPa (r.1 + i))

/-- Host memory has the bytes. -/
def hostHas (r : Nat × Nat) : Bool := decide (r.1 + r.2 ≤ 2 ^ 49)

/-- The kernel-reserved ranges of a manifest are such as R261 allows. -/
def rangesOk (l : List (Nat × Nat)) : Bool := decide (l.length ≤ 64) && l.all reservedOk

/-- Chanter loads an image from host memory into the memory of the package, which the banks' state regions are no part of (R226, R228,
R260). DESIGN CHOICE (102). -/
def State.loadImage (s : State) (home : Nat) (r : Nat × Nat) : State :=
  let l := s.hostImage r
  ((List.range l.length).zip l).foldl (fun s p =>
    if populated (home + p.1) ∧ regionOf (home + p.1) < 4 ∧ bankState (home + p.1) = false then
      s.writeByte 0 0 (home + p.1) p.2 else s) s

/-- The system and hub cores are released (R260). DESIGN CHOICE (102). -/
def State.releaseCores (s : State) : State :=
  (List.range 80).foldl (fun s n =>
    let k := s.sysAt n
    s.setSys n { k with ctx := { k.ctx with pc := Config.releaseEntry n } }) s

/-- `CHANTER_BOOT`: step 4 of R260: the kernel-reserved table, and the Drone image and the device kernel that the manifest names in
host memory, loaded and measured; the cores are released.  The cause of a failure (0 for none) and its unit are operands (R493,
R494). DESIGN CHOICE (102). -/
def execChanterBoot (s : State) : Host.Outcome State Fault Refusal :=
  event (fun s =>
    let h := s.host
    let cause := s.args.a
    let ranges := Config.manifestRanges h.body
    let drone := Config.manifestDrone h.body
    let kernel := Config.manifestKernel h.body
    if h.stage ≠ 3 ∨ h.bootError ∨ 5 < cause ∨ (cause ≠ 5 ∧ !rangesOk ranges) then none
    else
      let s := if cause = 5 then s else { s with kreserved := ranges, kreservedLocked := true }
      let h := { h with
        droneDigest := if cause = 0 ∨ cause = 4 then Config.sha512 (s.hostImage drone) else 0
        kernelDigest := if cause = 0 then Config.sha512 (s.hostImage kernel) else 0 }
      if cause = 0 then
        if hostHas drone ∧ hostHas kernel then
          let t := (s.loadImage (Config.droneHome h.body) drone).loadImage (Config.kernelHome h.body) kernel
          some (t.setHost { h with stage := 4 }).releaseCores
        else none
      else
        let record := leBytes 4 4 ++ leBytes 4 cause ++ leBytes 4 s.args.b ++ leBytes 4 0
        some (s.setHost { h with
          bootError := true, mbox := putBytes h.mbox 0 record, mbCommand := 0xFF, mbDone := true, mbPending := false })) s

/-- `DRONE_READY`: ready becomes 1, and latched doorbells take effect (R267, R269). -/
def execDroneReady (s : State) : Host.Outcome State Fault Refusal :=
  event (fun s =>
    if s.host.stage ≠ 4 then none else some (s.setHost { s.host with stage := 5, ready := true }).unlatch) s

/-! ## The host's accesses (R147, R264, R266, R490) -/

/-- An address of device memory, or of its own, that the host may reach: not an inbox, which only system cores and its own
core see (R98). DEDUCED (101). -/
def State.hostReach (s : State) (pa : Nat) : Bool :=
  populated pa && !s.kernelFrame pa &&
    match regionOf pa with
    | 2 =>
      s.compute (tileOfPa pa) && !unreachable (pa % 0x800000) &&
        !(decide (0x300000 ≤ pa % 0x800000) && decide (pa % 0x800000 < 0x400000))
    | 3 => !s.unbacked pa
    | 5 => false
    | 6 => false
    | _ => true

/-- A byte as the host reads it: its own memory as it stands, device memory on the host path. DEDUCED (101). -/
def State.hostByte (s : State) (pa : Nat) : Byte :=
  if regionOf pa = 4 then s.byteAt pa else if systemTileMemory pa then s.tileByte 5 pa else s.readByte 5 pa

/-- A host read that has seen a write sees from then on what the same firing, or the same path, has written before it (R447).
DEDUCED (142). -/
def State.hostSaw (s : State) (pa : Nat) : State :=
  match s.unseen.find? fun u => u.pa == pa && u.blind.getLsbD 5 && s.sees 5 0 0 u with
  | some u => s.cross u.writer 5 fun v => v.uid == u.uid && decide (v.at_ ≤ u.at_)
  | none => s

/-- The host writes a byte; one for a bank's state region is discarded, and Drone records it (R490).
DESIGN CHOICE (99). -/
def State.hostPut (s : State) (pa : Nat) (b : Byte) : State :=
  if bankState pa then s.setHost { s.host with discarded := s.host.discarded ++ [(pa, b)] }
  else if systemTileMemory pa then s.tilePut 5 pa b
  else s.writeByte 5 0 pa b

/-- The 8-byte register of BAR 0 at an offset, as the host reads it (R266, R267, R270, R272). -/
def State.bar0 (s : State) (off : Nat) : Nat :=
  let h := s.host
  if off = 0 then (if h.ready then 2 else 0) + h.stage * 4
  else if 0x100 ≤ off ∧ off < 0x300 then
    let v := h.queue ((off - 0x100) / 32)
    match off % 32 with
    | 0 => v.base
    | 8 => v.size
    | 16 => v.cpl
    | _ => v.head
  else if off = 0x2000 then h.frzPlan
  else if off = 0x2008 then h.frzState * 4 + h.frzIssuer * 16
  else if 0x3000 ≤ off ∧ off < 0x3200 then listNat (getBytes h.mbox (off - 0x3000) 8) 0 8
  else if off = 0x3200 then h.mbCommand + (if h.mbDone then 2 ^ 63 else 0)
  else 0

/-- `HOST_ACCESS`: address, length, and where: 0 device or host memory, 1 BAR 2, 2 a read of BAR 0.  What a read gives stands
at the model's output port. DESIGN CHOICE (9). -/
def execHostAccess (s : State) : Host.Outcome State Fault Refusal :=
  event (fun s =>
    let pa := s.args.a
    let n := s.args.b
    let bytes := s.args.data.map (BitVec.ofNat 8)
    let at_ := (List.range n).map (pa + ·)
    let answer (l : List Byte) : State := s.setHost { s.host with readData := l }
    match s.args.c with
    | 0 =>
      if !at_.all s.hostReach then none
      else if s.args.flag then
        let t := (at_.zip bytes).foldl (fun s p => s.hostPut p.1 p.2) s
        some { t with badLines := t.badLines.filter fun l => !(decide (pa ≤ l) && decide (l + 64 ≤ pa + bytes.length) &&
          decide (l + 64 ≤ pa + n) && !bankState l) }
      else
        let t := at_.foldl State.hostSaw s
        some (t.setHost { t.host with readData := at_.map s.hostByte })
    | 1 =>
      if !s.host.bar2 ∨ s.host.stage = 0 ∨ 0x400000 < pa + n then none
      else if s.args.flag then
        some (s.setHost { s.host with bootSram := putBytes s.host.bootSram pa (bytes.take n) })
      else some (answer (getBytes s.host.bootSram pa n))
    | _ =>
      if s.args.flag ∨ 0x10000 < pa + n then none
      else some (answer (at_.map fun a => byteOf (s.bar0 (a - a % 8)) (a % 8)))) s

/-! ## Registers (R252, R266, R272; R76, R100, R107, R145) -/

/-- A write of a register of BAR 0 that has no event of its own. DESIGN CHOICE (99). -/
def State.barWrite (s : State) (off v : Nat) : State :=
  let h := s.host
  if 0x100 ≤ off ∧ off < 0x300 then
    let q := (off - 0x100) / 32
    match off % 32 with
    | 0 => s.setQueue q { h.queue q with base := v }
    | 8 => s.setQueue q { h.queue q with size := v }
    | _ => s
  else if off = 0x2000 then s.setHost { h with frzPlan := v }
  else if 0x3000 ≤ off ∧ off < 0x3200 ∧ off % 8 = 0 then
    s.setHost { h with mbox := putBytes h.mbox (off - 0x3000) (leBytes 8 v) }
  else if off = 0x3200 then
    if h.mbPending then s else s.setHost { h with mbCommand := v % 256, mbPending := true, mbDone := false }
  else s

/-- `REGISTER_WRITE`: space, address, value.  Space 0 is BAR 0; 1 the registers that system software sets on a core, by
core × 4,096 + register number; 2 the caps; 3 the storage windows, by identifier, of an address space in bits 15:0 and a
base; 4 the views of the pool unit × 8 + tier, likewise; 5 its free blocks, log2 size in bits 4:0 and an offset; 6 the mode of a
scale-up port, 1 for Ultra Ethernet; 7 the release of a live block of a pool, by its offset.  All but the first are Drone's, which
runs from step 5 of R260 on (R264). -/
def execRegisterWrite (s : State) : Host.Outcome State Fault Refusal :=
  event (fun s =>
    let a := s.args.b
    let v := s.args.c % 2 ^ 80
    if s.args.a ≠ 0 ∧ s.host.stage < 4 then none
    else
      match s.args.a with
      | 0 => some (s.barWrite a (v % 2 ^ 64))
      | 1 =>
        let n := a / 4096
        if 8192 ≤ n ∨ a % 4096 = 0x010 then none
        else some (s.setCore n ((s.coreAt n).writeReg (a % 4096) (BitVec.ofNat 64 v)))
      | n => s.droneWrite n a v) s

/-! ## The mailbox (R272, R273, R494) -/

/-- The command of an outstanding request, while Chanter runs and has loaded the device or recorded why not. -/
def State.asked (s : State) (cmd : Nat) : Bool :=
  s.host.mbPending && s.host.mbCommand == cmd && (decide (4 ≤ s.host.stage) || (s.host.bootError && cmd != 4))

/-- Chanter writes a reply into the buffer and sets bit 63 of MBDB. -/
def State.reply (s : State) (l : List Byte) : State :=
  s.setHost { s.host with mbox := putBytes s.host.mbox 0 l, mbPending := false, mbDone := true }

/-- The identity public key. -/
def identityBytes : List Byte := (List.range 32).map Config.identityKey

/-- Bytes 0x000 to 0x10F of the attestation report (R273). -/
def State.attested (s : State) : List Byte :=
  getBytes s.host.mbox 0 32 ++ leBytes 64 s.host.chanterDigest ++ leBytes 64 s.host.droneDigest ++
    leBytes 64 s.host.kernelDigest ++ leBytes 8 s.time ++ leBytes 2 s.presentTiles.length ++ leBytes 6 0 ++ identityBytes

/-- `ATTEST`. DEDUCED (103). -/
def execAttest (s : State) : Host.Outcome State Fault Refusal :=
  event (fun s =>
    if s.asked 1 then
      some (s.reply (s.attested ++ ((List.range 64).map fun i =>
        (Config.identitySign (leBytes 64 (Config.sha512 s.attested))).getD i 0)))
    else none) s

/-- `IDENTITY`. -/
def execIdentity (s : State) : Host.Outcome State Fault Refusal :=
  event (fun s => if s.asked 2 then some (s.reply identityBytes) else none) s

/-- `RELEASE`: the two digests of R263. -/
def execRelease (s : State) : Host.Outcome State Fault Refusal :=
  event (fun s =>
    if s.asked 3 then some (s.reply (leBytes 64 s.host.chanterDigest ++ leBytes 64 s.host.droneDigest)) else none) s

/-- `CEILINGS`: the four cap ceilings of R252 in W. -/
def execCeilings (s : State) : Host.Outcome State Fault Refusal :=
  event (fun s =>
    if s.asked 4 then some (s.reply (leBytes 4 2200 ++ leBytes 4 2000 ++ leBytes 4 1000 ++ leBytes 4 900)) else none) s

end Sys2Proof.Machine
end

