-- ==== Sys2Proof/Machine/PowerTree.lean ====
section
/-! DEFINITION. The budget tree, caps, operating points and the end of boost leases (R246 to R259, R492). -/

namespace Sys2Proof.Machine

/-! ## Division (R249) -/

/-- The largest λ below 2^n with the demands, each cut to λ, within a budget. DEDUCED (94). -/
def waterLevel (b : Nat) (d : List Nat) : Nat → Nat
  | 0 => 0
  | n + 1 =>
    (List.range (n + 1)).foldl (fun v i =>
      let w := v + 2 ^ (n - i)
      if (d.map (Nat.min w)).sum ≤ b then w else v) 0

/-- One further mW to each child whose demand exceeds λ, lowest index first, while any is left. -/
def handOut (v : Nat) : Nat → List Nat → List Nat
  | _, [] => []
  | left, a :: d =>
    if v < a ∧ 0 < left then (v + 1) :: handOut v (left - 1) d else Nat.min a v :: handOut v left d

/-- One node's division of a budget among its children, in whole mW: what each receives. DEDUCED (94). -/
def divide (b : Nat) (d : List Nat) : List Nat :=
  if d.sum ≤ b then d
  else
    let v := waterLevel b d 40
    handOut v (b - (d.map (Nat.min v)).sum) d

/-! ## Demands (R248) -/

/-- The ready work that is placed on a tile. -/
def State.tileWork (s : State) (tile : Nat) : List Ready :=
  s.ready.filter fun r => !(r.kind == 3 && r.ctx.isNone) && s.onTile tile r

/-- The tile's empty slots on which ready work may go. -/
def State.emptySlots (s : State) (tile : Nat) (r : Ready) : List Nat :=
  ((List.range 64).map (coreBase tile * 8 + ·)).filter fun k => s.slotEmpty k && (r.kind != 2 || r.place == coreOf k)

/-- Work placed on a tile does not fit (R256): on no empty slot, or, for a gang instance, on no set of them at once.
DEDUCED (96). -/
def State.unfit (s : State) (tile : Nat) (r : Ready) : Bool :=
  if s.gangWork r then (s.gangFit (s.emptySlots tile r) r).isNone
  else (s.emptySlots tile r).all fun k => !s.fits [coreOf k] r.cls

/-- The demand of each core of a tile: its committed cost, and on one core the highest cost of work that does not fit.
DEDUCED (96). -/
def State.tileDemand (s : State) (tile : Nat) : List Nat :=
  let base := coreBase tile
  let free (q : Nat) : Nat := ((List.range 32).filter fun i => s.slotEmpty ((base + q * 4) * 8 + i)).length
  let q := if free 0 < free 1 then 1 else 0
  let idle := (List.range 4).find? fun i => (s.coreClass (base + q * 4 + i)).isNone
  let extra := (((s.tileWork tile).filter (s.unfit tile)).map fun r => classCost r.cls).foldl Nat.max 0
  (List.range 8).map fun i =>
    s.coreCost (base + i) none + (if idle.any (fun j => q * 4 + j == i) then extra else 0)

/-! ## Caps (R252) -/

/-- A unit's excess after an interval whose measured energy is `e` nJ. DEDUCED (97). -/
def excessAfter (x e avg : Nat) : Nat := x + e - avg * 10

/-- A unit's limit in mW: at least the average cap, at most the peak cap. -/
def unitLimit (peak avg x : Nat) : Nat :=
  Nat.min peak (Nat.max avg (avg + ((peak - avg) * 1000000 - x) / 10))

/-- Tiles of a district, in package order. -/
def districtTiles (d : Nat) : List Nat := (List.range 16).map fun i => tileOf (d * 128 + i * 8)

/-- Consecutive key and value pairs into a map whose unlisted keys read as zero. -/
def listMap (base : Nat) (l : List Nat) (m : Map Nat) : Map Nat :=
  (l.zip (List.range l.length)).foldl (fun m p => m.set (base + p.2) p.1 0) m

/-- A tile divides its budget among its cores: the tiles' surpluses and the allocations so far. DEDUCED (95). -/
def State.divideTile (s : State) (tile b : Nat) (acc : Map Nat × Map Nat) : Map Nat × Map Nat :=
  let d := s.tileDemand tile
  (acc.1.set tile (b - d.sum) 0, listMap (coreBase tile) (divide b d) acc.2)

/-- A district divides its budget among its tiles; charges that it has reserved beyond the new surplus are taken from its
cores (R492).  Its surplus, and the tiles' surpluses and allocations so far. DEDUCED (95). DEDUCED (97). -/
def State.divideDistrict (s : State) (d b : Nat) (acc : Map Nat × Map Nat) : Nat × (Map Nat × Map Nat) :=
  let tiles := districtTiles d
  let dem := tiles.map fun t => (s.tileDemand t).sum
  let surplus := b - dem.sum
  let b' := if surplus < s.reservedNow d then b - s.reservedNow d else b
  (surplus, (tiles.zip (divide b' dem)).foldl (fun acc p => s.divideTile p.1 p.2 acc) acc)

/-- The demand of a district. -/
def State.districtDemand (s : State) (d : Nat) : Nat := ((districtTiles d).map fun t => (s.tileDemand t).sum).sum

/-- A die divides its budget among its districts: the surplus of each, and the tiles' surpluses and allocations so far. -/
def State.divideDie (s : State) (die b : Nat) (acc : Map Nat × (Map Nat × Map Nat)) : Map Nat × (Map Nat × Map Nat) :=
  let ds := (List.range 32).map (die * 32 + ·)
  (ds.zip (divide b (ds.map s.districtDemand))).foldl (fun acc p =>
    let (u, m) := s.divideDistrict p.1 p.2 acc.2
    (acc.1.set p.1 u 0, m)) acc

/-- The demand of a die. -/
def State.dieDemand (s : State) (die : Nat) : Nat := ((List.range 32).map fun i => s.districtDemand (die * 32 + i)).sum

/-- Suspended boost leases of resident firings that have been tried since their firings took their slots are tried again
(R259). -/
def State.retryBoosts (s : State) : State :=
  if s.halted then s
  else s.slots.foldl (fun s e =>
    match (s.slotAt e.1).ctx with
    | some c =>
      if c.boost.any (!·.due) then
        let (s, c) := s.unsuspend (coreOf e.1) c
        (s.putCtx (.slot e.1) c).retarget (quadOf (coreOf e.1))
      else s
    | none => s) s

/-- `BUDGET_DIVISION`: at each multiple of 1,000 ticks; the measured power outside the tree in mW, the energies of the three
units in nJ, and then the power of each die outside its tree are operands (R249, R250, R252, R253, R492). -/
def execBudgetDivision (s : State) : Host.Outcome State Fault Refusal :=
  event (fun s =>
    if s.time / 1000 ≤ s.power.divided ∨ s.time % 1000 ≠ 0 then none
    else
      let p := s.power
      let cap (u : Nat) : Nat := p.avgCap.getD u 0
      let x (u : Nat) : Nat := excessAfter (p.excess.get u 0) (s.args.data.getD u 0) (cap u)
      let limit (u : Nat) : Nat := unitLimit (p.peakCap.getD u 0) (cap u) (x u)
      let b := limit 0 - s.args.a
      let dem := [s.dieDemand 0, s.dieDemand 1]
      let dies := divide b dem
      let die (d : Nat) : Nat := Nat.min (dies.getD d 0) (limit (d + 1) - s.args.data.getD (d + 3) 0)
      let acc := (List.range 2).foldl (fun acc d => s.divideDie d (die d) acc)
        (([] : Map Nat), (([] : Map Nat), ([] : Map Nat)))
      let power := { p with
        next := some (s.time + 200, acc.2.2)
        surplus := acc.1
        tileSurplus := acc.2.1
        upper := listMap 0 [b - dem.sum, die 0 - dem.getD 0 0, die 1 - dem.getD 1 0] []
        excess := listMap 0 [x 0, x 1, x 2] []
        throttled := []
        peak := []
        divided := s.time / 1000 }
      some ({ s with power := power } : State).retryBoosts) s

/-! ## Allocations take effect (R249, R251) -/

/-- The duty of a core under an allocation (R251). -/
def State.dutyFor (s : State) (core alloc : Nat) : BitVec 5 :=
  match s.coreClass core with
  | none => 0
  | some _ =>
    let k := s.coreCost core none
    BitVec.ofNat 5 (Nat.max 1 (Nat.min 16 (16 * alloc / k)))

/-- `ALLOCATION_EFFECT`: 200 ticks after the division. -/
def execAllocationEffect (s : State) : Host.Outcome State Fault Refusal :=
  event (fun s =>
    match s.power.next with
    | none => none
    | some (t, m) =>
      if s.time < t then none
      else
        let s := { s with power := { s.power with alloc := m, next := none } }
        some ((List.range 8192).foldl (fun s n =>
          s.setCore n { s.coreAt n with duty := s.dutyFor n (m.get n 0) }) s)) s

/-- `PEAK_CAP_REACHED`: unit 0 the package, 1 and 2 the dies (R253).  The energy measured so far in the interval, in nJ, is an
operand; the unit is throttled once it reaches the peak cap over 10 µs. -/
def execPeakCapReached (s : State) : Host.Outcome State Fault Refusal :=
  event (fun s =>
    let u := s.args.a
    let p := s.power
    if 3 ≤ u then none
    else
      let e := Nat.max (p.peak.get u 0) s.args.b
      let reached := decide (p.peakCap.getD u 0 * 10 ≤ e) && !p.throttled.contains u
      some { s with power := { p with
        peak := p.peak.set u e 0
        throttled := if reached then u :: p.throttled else p.throttled } }) s

/-! ## Operating points (R254, R255, R492) -/

/-- `VOLTAGE_STEP`: at each multiple of 100 ticks the quad's voltage steps, towards the target that it has had, and the quad then
takes its target. -/
def execVoltageStep (s : State) : Host.Outcome State Fault Refusal :=
  event (fun s =>
    if 2048 ≤ s.args.a then none
    else
      some ((s.repoint s.args.a ((s.quadAt s.args.a).stepDue s.time)).retarget s.args.a)) s

/-- `REGULATOR_TIMEOUT`: the voltage is not at its target 20,000 ticks after the target's step; the quad is capped at point
4 until reset (R492). -/
def execRegulatorTimeout (s : State) : Host.Outcome State Fault Refusal :=
  event (fun s =>
    let q := s.quadAt s.args.a
    if q.mv = pointMv q.target ∨ s.time < q.stepAt + 20000 ∨ 2048 ≤ s.args.a then none
    else some ((s.setQuad s.args.a { q with capped := true }).retarget s.args.a)) s

/-- `BOOST_EXPIRE`: the charge is returned and the request is capped at point 4 (R259). -/
def execBoostExpire (s : State) : Host.Outcome State Fault Refusal :=
  event (fun s =>
    let k := s.args.a
    match (s.slotAt k).ctx with
    | none => none
    | some c =>
      match c.boost with
      | none => none
      | some b =>
        if b.suspended ∨ s.time < b.expiry then none
        else
          let s := s.unreserve (districtOf (coreOf k)) b.charge
          some ((s.putCtx (.slot k) { c with boost := none }).retarget (quadOf (coreOf k)))) s

end Sys2Proof.Machine
end

