-- ==== Sys2Proof/Machine/Freezing.lean ====
section
/-! DEFINITION. Freeze, resumption, and loss of power (R34, R68 to R71, R259, R270, R271, R457, R479 to R481). -/

namespace Sys2Proof.Machine

/-! ## Steps 1 to 4 of a freeze (R69) -/

/-- A freeze begins: its issuer, its plan, and the tiers that the plan retains.  Leases are overridden, with their remaining time
recorded, and the firings stop, or, where recasts have begun, go on until those are done. DEDUCED (105). -/
def State.beginFreeze (s : State) (issuer plan : Nat) (retained : List Nat) : State :=
  let left := (s.leases.filter fun e => decide (s.time < e.expiry)).map fun e => { e with expiry := e.expiry - s.time }
  let fr : Freeze :=
    { issued := s.time, plan := plan, retained := retained, leases := left, lost := 0, failed := false, from_ := 0 }
  s.stopping (({ s with leases := [], freeze := some fr }).setHost { s.host with frzState := 1, frzIssuer := issuer })

/-- `FREEZE_START`: the host issues a freeze; of two in one tick its own is the one accepted (R271).  The tiers that the plan
at `FRZPLAN` retains are an operand. DESIGN CHOICE (106). -/
def execFreezeStart (s : State) : Host.Outcome State Fault Refusal :=
  event (fun s =>
    match s.freeze with
    | some f =>
      if s.host.frzState = 1 ∧ s.host.frzIssuer = 2 ∧ f.issued = s.time then
        some ({ s with freeze := some { f with plan := s.host.frzPlan, retained := s.args.data } }.setHost
          { s.host with frzIssuer := 1 })
      else if s.host.ready ∧ s.host.frzState = 0 then some (s.beginFreeze 1 s.host.frzPlan s.args.data) else none
    | none =>
      if s.host.ready ∧ s.host.frzState = 0 then some (s.beginFreeze 1 s.host.frzPlan s.args.data) else none) s

/-- `RACK_FREEZE`: a rack scheduler node issues one, with the plan at host address `b`, at scale-up port `d`, which is set to
Ultra Ethernet (R29, R68, R271). -/
def execRackFreeze (s : State) : Host.Outcome State Fault Refusal :=
  event (fun s =>
    if s.host.ready ∧ s.host.frzState = 0 ∧ s.host.etherPorts.contains s.args.d then
      some (s.beginFreeze 2 s.args.b s.args.data)
    else none) s

/-- `FREEZE_TARGET_TIMEOUT`: a target that has acknowledged nothing for 100,000 ticks is lost, and whether a later one has room for
its part (R480). DESIGN CHOICE (24). -/
def execFreezeTargetTimeout (s : State) : Host.Outcome State Fault Refusal :=
  event (fun s =>
    match s.freeze with
    | some f =>
      if s.host.frzState ≠ 1 ∨ s.time < f.issued + 100000 ∨ 32 ≤ s.args.a ∨ f.lost / 2 ^ s.args.a % 2 = 1 then none
      else some { s with freeze := some { f with lost := f.lost + 2 ^ s.args.a, failed := f.failed || !s.args.flag } }
    | none => none) s

/-- The firing has stopped where the image may take it: at a boundary of both streams, its loads delivered (R64, R69, R347, R478).
DEDUCED (105). -/
def Ctx.still (c : Ctx) : Bool :=
  c.vrests && c.settled &&
    match c.st with
    | .moving => false
    | .checking .. => false
    | _ => true

/-- Steps 1 to 4 are done: recasts and migrations have run to completion, the streams and the matrix units have finished what
they had, the queues have sent what they held, and Panpipe has delivered its windows. -/
def State.still (s : State) : Bool :=
  s.recasts.isEmpty && s.pan.isEmpty && s.moves.isEmpty && s.pageMoves.isEmpty && s.scans.isEmpty && s.mcasts.isEmpty &&
    s.copies.isEmpty &&
    (s.flights.all fun f => f.phase == 2) && (s.tiles.all fun e => e.2.inj.isEmpty && e.2.held.isEmpty && e.2.granted.isEmpty) &&
    ((List.range 1024).all fun t => (s.grant t).isNone) && (s.slots.all fun e => e.2.ctx.all (·.still)) &&
    (s.ready.all fun r => r.ctx.all (·.still))

/-! ## Steps 5 and 6 (R69, R479 to R481) -/

/-- The plan evicts the place. -/
def evicted (retained : List Nat) (pa : Nat) : Bool :=
  match tierOf pa with
  | some t => t != 0 && !retained.contains t
  | none => false

/-- A stopped firing as the image holds it: a realign wait has ended (R339). -/
def Ctx.frozen (c : Ctx) : Ctx :=
  match c.st with
  | .realign .. => c.realigned
  | _ => c

/-- The image of the package. -/
def State.capture (s : State) (f : Freeze) : Image :=
  let slots := s.slots.map fun e => (e.1, { e.2 with ctx := e.2.ctx.map Ctx.frozen })
  { chanterDigest := s.host.chanterDigest, droneDigest := s.host.droneDigest, retained := f.retained, failed := f.failed,
    cycled := false, time := f.issued, slots := slots, closed := s.closed, cores := s.cores, tiles := s.tiles,
    subs := s.subs, banks := s.banks, roles := s.roles, windows := s.windows, locks := s.locks, flights := s.flights,
    conts := s.conts, hubHeld := s.hubHeld, flying := s.flying, arrived := s.arrived, launches := s.launches,
    gens := s.gens, pool := s.pool, admission := s.admission, joins := s.joins, rackDue := s.rackDue, ready := s.ready,
    pools := s.pools, freeFrames := s.freeFrames, lostPages := s.lostPages, kills := s.kills, chains := s.chains,
    leases := f.leases, trapq := s.trapped,
    badLines := s.badLines.filter (evicted f.retained),
    mem := s.mem.filter fun e => evicted f.retained e.1
    unseen := s.unseen.filter fun u => evicted f.retained u.pa || decide (shareBase ≤ u.pa) }

/-- The package after its contexts, messages, queues and tables have left it.
DEDUCED (104). -/
def State.emptied (s : State) : State :=
  { s with
    slots := s.slots.map fun e => (e.1, { e.2 with ctx := none })
    cores := s.cores.map fun e => (e.1, { e.2 with evq := [], inbox := [], mq := [] })
    tiles := s.tiles.map fun e => (e.1, { e.2 with mwait := [], mfly := [] })
    sys := s.sys.map fun e => (e.1, e.2.unserve)
    trapq := s.trapq.filter (decide <| 65536 ≤ ·)
    subs := [], banks := [], locks := [], flights := [], conts := [], hubHeld := [], flying := [], arrived := []
    launches := [], pool := 0, admission := [], joins := [], rackDue := [], ready := [], pools := []
    freeFrames := [], lostPages := [], kills := [], chains := [] }

/-- The report area of a plan (R479). -/
def State.reportFreeze (s : State) (plan code lost bytes ticks : Nat) : State :=
  let v := code % 256 + lost % 2 ^ 32 * 2 ^ 32 + bytes % 2 ^ 64 * 2 ^ 64 + ticks % 2 ^ 64 * 2 ^ 128
  s.bankWrite (hostPa plan) 64 v

/-- Checked intervals that are open close where their firings have stopped (R163). -/
def State.openIntervals (s : State) : List (Nat × Ctx) :=
  s.slots.filterMap fun e => e.2.ctx.bind fun c => if c.checkedSince.isSome && c.atBoundary then some (e.1, c) else none

/-- `FREEZE_COMPLETE`: the bytes that the targets acknowledged are an operand.  With code 3 every tier and context stays on the
package (R481). -/
def execFreezeComplete (s : State) : Host.Outcome State Fault Refusal :=
  event (fun s =>
    match s.freeze with
    | none => none
    | some f =>
      if s.host.frzState ≠ 1 then none
      else if s.openIntervals ≠ [] then
        some (s.openIntervals.foldl (fun s e =>
          (({ s := s, who := .slot e.1, c := e.2 } : Cx).closeStopped.put).settle e.1) s)
      else if !s.still then none
      else
        let ticks := s.time - f.issued
        let code := if f.failed then 3 else if f.lost ≠ 0 then 2 else if 200000000 < ticks then 1 else 0
        let s := s.suspendAll
        let image := s.capture f
        let left := if f.failed then s else s.emptied
        let t := ({ left with images := s.images.insert f.plan image }).setHost { s.host with frzState := 2 }
        let t := t.reportFreeze f.plan code f.lost s.args.a ticks
        some (if s.host.frzIssuer = 2 then { t with reports := t.reports ++ [leBytes 8 code] } else t)) s

/-! ## Resumption (R71, R271, R457, R480) -/

/-- The code with which a resumption of the image of a plan is refused, or 0 (R480); `elsewhere`: another device froze it.  For a
plan that names no image the manual gives no code. DESIGN CHOICE (151). -/
def State.resumeCode (s : State) (plan : Nat) (chunksOk elsewhere : Bool) : Nat :=
  match s.images.get? plan with
  | none => 18
  | some i =>
    if i.chanterDigest ≠ s.host.chanterDigest ∨ i.droneDigest ≠ s.host.droneDigest then 16
    else if i.retained ≠ [] ∧ (i.cycled ∨ elsewhere) then 17
    else if !chunksOk ∧ !i.failed then 18
    else if i.launches.any fun e => decide (s.presentTiles.length < e.2.tiles) then 19
    else 0

/-- `FREEZE_RESUME`: the image is that of the plan at `FRZPLAN` (R270); whether every chunk meets its digest, and whether another
device froze it, are operands. -/
def execFreezeResume (s : State) : Host.Outcome State Fault Refusal :=
  event (fun s =>
    let h := s.host
    if h.frzState = 2 ∨ (h.frzState = 0 ∧ h.ready = true ∧ s.launches = []) then
      let code := s.resumeCode h.frzPlan s.args.flag s.args.flag2
      if code ≠ 0 then some (s.reportFreeze h.frzPlan code 0 0 0)
      else
        let fr : Freeze :=
          { issued := s.time, plan := h.frzPlan, retained := [], leases := [], lost := 0, failed := false,
            from_ := h.frzState }
        some ({ s with freeze := some fr }.setHost { h with frzState := 3 })
    else none) s

/-- Old and new tile of each tile that the image uses. -/
abbrev TileMoves := List (Nat × Nat)

def TileMoves.tile (m : TileMoves) (t : Nat) : Nat := ((m.find? (·.1 == t)).map (·.2)).getD t

def TileMoves.core (m : TileMoves) (n : Nat) : Nat :=
  if n < 8192 then coreBase (m.tile (tileOf n)) + n % 8 else n

def TileMoves.slot (m : TileMoves) (k : Nat) : Nat := m.core (k / 8) * 8 + k % 8

def TileMoves.pa (m : TileMoves) (pa : Nat) : Nat :=
  if regionOf pa = 2 then 0x4000000000000 + m.tile (tileOfPa pa) * 0x800000 + pa % 0x800000 else pa

/-- A lock bit of tile memory moves with its tile (R120). -/
def TileMoves.lock (m : TileMoves) (l : Nat) : Nat := if l < 2 ^ 22 then m.tile (l / 4096) * 4096 + l % 4096 else l

/-- A map with its keys replaced. -/
def rekey {α : Type} (f : Nat → Nat) (m : Map α) : Map α := m.foldl (fun m e => Map.insert m (f e.1) e.2) []

/-- The tiles that the image uses: for contexts, bindings, messages, pools, banks or blocks. -/
def Image.used (i : Image) : List Nat :=
  let tiles := i.launches.flatMap (fun e => e.2.binds.map (·.2)) ++
    (i.slots.filter (·.2.ctx.isSome)).map (fun e => tileOf (coreOf e.1)) ++ i.cores.map (fun e => tileOf e.1) ++
    i.banks.map (·.1 / 2) ++ (i.pools.filterMap fun p => if p.tier = 1 then some (p.unit / 2) else if p.tier = 2 then
      some p.unit else none) ++ (i.roles.filter fun e => bit e.2 5).map (·.1)
  (List.range 1024).filter tiles.contains

/-- Logical tiles are placed afresh (R71): a tile that is present takes its own, another one's go to the lowest present tile
that nothing uses. -/
def placeTiles (present used : List Nat) : List Nat → Option TileMoves
  | [] => some []
  | t :: l =>
    if present.contains t then (placeTiles present used l).map ((t, t) :: ·)
    else
      match present.find? fun u => !used.contains u with
      | none => none
      | some u => (placeTiles present (u :: used) l).map ((t, u) :: ·)

/-- A time at which the firings stopped, as long ago now as it was then. -/
def laterBy (base now t : Nat) : Nat := t + now - base

/-- A context whose wait has the ticks left that it had (R71), and whose suspended boost lease is tried when it next issues
(R259). -/
def Ctx.later (g : Nat → Nat) (c : Ctx) : Ctx :=
  let wait (w : WaitState) : WaitState := { w with deadline := w.deadline.map g }
  { c with
    st := match c.st with
      | .waiting w => .waiting (wait w)
      | .trapped t w => .trapped t (w.map wait)
      | st => st
    region := { c.region with since := c.region.since.map g }
    interval := g c.interval
    checkedSince := c.checkedSince.map g
    boost := c.boost.map fun b => { b with due := b.suspended } }

/-- A context at its new place and time. -/
def Ctx.restored (m : TileMoves) (g : Nat → Nat) (c : Ctx) : Ctx :=
  let c := (c.rehome m.pa fun l => (m.lock l.1, l.2)).later g
  if c.kind = 2 then { c with place := m.core c.place } else c

/-- A slot without its occupant, its forwarding entries as they were: they name the pairs of old, which lead on (R66). -/
def Slot.restored (g : Nat → Nat) (sl : Slot) : Slot :=
  { sl with
    ctx := none
    reservedFor := none
    began := g sl.began
    recent := sl.recent.map fun r => (r.1, g r.2)
    fwd := sl.fwd.map fun f => { f with expiry := g f.expiry } }

/-- A firing is restored as the destination of a migration (R71): its slot takes a new incarnation, the pair that it had keeps a
forwarding entry, and a lock bit that it holds names the new pair (R66, R121). -/
def State.reseat (m : TileMoves) (g : Nat → Nat) (s : State) (k inc : Nat) (c : Ctx) : State :=
  let dst := m.slot k
  let bar (sl : Slot) (f : Fwd) : Slot := { sl with fwd := f :: sl.fwd }
  let parked : Fwd := { inc := inc, uid := c.uid, dst := none, expiry := 0 }
  let s := s.setSlot k (bar (s.slotAt k) parked)
  let sl := s.slotAt dst
  let inc' := (sl.nextInc s.time).getD (sl.inc + 1)
  let c := c.restored m g
  let s := s.setSlot dst { sl with inc := inc', ctx := some c, began := s.time }
  let s := match c.lock with
    | some (l, _) => s.setLock l { s.lockAt l with owner := some (dst, inc'.toNat) }
    | none => s
  s.redirect c.uid dst inc'.toNat

def Packet.restored (m : TileMoves) (p : Packet) : Packet :=
  { p with
    node := if p.node < 1024 then m.tile p.node else p.node
    home := p.home.map m.pa }

/-- A matrix command at its new place. -/
def MCmd.restored (m : TileMoves) (c : MCmd) : MCmd :=
  { c with
    core := m.core c.core
    panel := m.pa c.panel
    pages := c.pages.map fun p => (m.pa p.1, p.2.1, m.pa p.2.2) }

def Core.restored (m : TileMoves) (k : Core) : Core := { k with tlb := [], mq := k.mq.map (·.restored m) }

def Tile.restored (m : TileMoves) (t : Tile) : Tile :=
  { t with tlb := [], mwait := t.mwait.map (·.restored m), mfly := t.mfly.map (·.restored m) }

def Ready.restored (m : TileMoves) (g : Nat → Nat) (r : Ready) : Ready :=
  { r with
    ctx := r.ctx.map (·.restored m g)
    place := if r.kind = 2 then m.core r.place else r.place
    handler := r.handler.map fun h => (m.core h.1, h.2)
    since := g r.since
    starved := r.starved.map g }

/-- The pools of quad stores and slices at their new tiles. -/
def Pool.restored (m : TileMoves) (p : Pool) : Pool :=
  match p.tier with
  | 1 => { p with unit := m.tile (p.unit / 2) * 2 + p.unit % 2 }
  | 2 => { p with unit := m.tile p.unit }
  | _ => p

/-- The role map after a resumption: the image's, but for tiles that are absent now or were absent then (R34, R71). -/
def State.rolesFrom (s : State) (i : Image) (m : TileMoves) : Map Word :=
  let role (t : Nat) : Word := i.roles.get t 0
  let absent (w : Word) : Bool := field w 0 2 == 3
  let kept := (List.range 1024).foldl (fun r t =>
    if absent (s.roleOf t) ∨ absent (role t) then r else r.set t (role t) 0) s.roles
  m.foldl (fun r e => if e.1 = e.2 then r else r.set e.2 (role e.1) 0) kept

/-- The image restored: its firings, waits and leases, its chains at their positions, its traps queued afresh, and the tiers
that the plan evicted (R71, R457). -/
def State.restore (s : State) (i : Image) (m : TileMoves) : State :=
  let g := laterBy i.time s.time
  let keep (pa : Nat) : Bool := !evicted i.retained pa
  let t : State := { s with
    slots := i.slots.foldl (fun a e => Map.insert a e.1 (e.2.restored g)) s.slots
    closed := i.closed.foldl (fun a e => Map.insert a e.1 e.2) s.closed
    cores := (rekey m.core i.cores).foldl (fun a e => Map.insert a e.1 (e.2.restored m)) s.cores
    tiles := (rekey m.tile i.tiles).foldl (fun a e => Map.insert a e.1 (e.2.restored m)) s.tiles
    subs := rekey (fun x => m.core (x / 4) * 4 + x % 4) i.subs
    banks := rekey (fun x => m.tile (x / 2) * 2 + x % 2) i.banks
    roles := s.rolesFrom i m
    windows := i.windows
    locks := rekey m.lock i.locks
    tags := []
    walks := []
    flights := i.flights.map fun f => { f with line := f.line.rehome m.pa, core := m.core f.core, tile := m.tile f.tile }
    conts := i.conts.map fun k => { k with home := m.pa k.home }
    hubHeld := i.hubHeld.map (·.restored m)
    flying := i.flying.map (·.restored m)
    arrived := i.arrived.map (·.restored m)
    launches := i.launches.map fun e => (e.1, { e.2 with binds := e.2.binds.map fun b => (b.1, m.tile b.2) })
    gens := i.gens
    pool := i.pool
    admission := i.admission
    joins := i.joins
    rackDue := i.rackDue
    ready := i.ready.map (·.restored m g)
    pools := i.pools.map (·.restored m)
    freeFrames := i.freeFrames.map fun e => (m.pa e.1, e.2)
    lostPages := i.lostPages
    kills := i.kills
    chains := i.chains.map fun c => if c.engine = 1 then { c with node := m.tile c.node } else c
    leases := i.leases.map fun e => { e with expiry := s.time + e.expiry }
    trapq := s.trapq ++ i.trapq.map m.slot
    badLines := s.badLines.filter keep ++ i.badLines.map m.pa
    mem := i.mem.foldl (fun a e => a.set (m.pa e.1) e.2 0) (s.mem.filter fun e => keep e.1)
    unseen := i.unseen.map (fun u => { u with pa := m.pa u.pa }) ++
      s.unseen.filter fun u => keep u.pa && decide (u.pa < shareBase) }
  i.slots.foldl (fun t e =>
    match e.2.ctx with
    | some c => t.reseat m g e.1 e.2.inc.toNat c
    | none => t) t

/-- What a resumption restores from: the image, or, where no target had room for it, the package itself, whose tiers and contexts
have all stayed (R481). -/
def State.resumeImage (s : State) (plan : Nat) (i : Image) : Image :=
  if i.failed then
    s.capture { issued := i.time, plan := plan, retained := [1, 2, 3, 4, 5], leases := i.leases, lost := 0, failed := true, from_ := 2 }
  else i

/-- `RESUME_COMPLETE`: the state becomes idle, and latched doorbells take effect (R271).  What the issuer then reads as the manual
does not say: it is none. DESIGN CHOICE (151). -/
def execResumeComplete (s : State) : Host.Outcome State Fault Refusal :=
  event (fun s =>
    match s.freeze.bind fun f => (s.images.get? f.plan).map (s.resumeImage f.plan) with
    | none => none
    | some i =>
      if s.host.frzState ≠ 3 then none
      else
        (placeTiles s.presentTiles i.used i.used).map fun m =>
          let t := (if i.failed then s.emptied else s).restore i m
          (({ t with freeze := none }).setHost { t.host with frzState := 0, frzIssuer := 0 }).unlatch) s

/-! ## Loss of power (R34, R71) -/

/-- `POWER_OFF`: the package loses everything; the host's memory and what the freeze streamed to its targets stay.
DEDUCED (104). -/
def execPowerOff (s : State) : Host.Outcome State Fault Refusal :=
  .next { State.reset with
    cur := s.cur, inputs := s.inputs, args := s.args, vecTurn := s.vecTurn, fresh := s.fresh, nextUid := s.nextUid,
    nextId := s.nextId, mem := s.mem.filter fun e => regionOf e.1 == 4,
    images := (s.images.filter fun e => !e.2.failed).map fun e => (e.1, { e.2 with cycled := true }) }

end Sys2Proof.Machine
end

