-- ==== Sys2Proof/Machine/Matrix.lean ====
section
/-! DEFINITION. Matrix instructions: majors 0x30 and 0x3F (R219 to R221, R368, R374 to R381). -/

namespace Sys2Proof.Machine

/-! ## The format prefix (R219, R220) -/

/-- The prefix in force: every field zero while none is pending. -/
def Ctx.prefixWord (c : Ctx) : Word := if statusPp c.regs.status then c.regs.pfx else 0

/-- The prefixed instruction clears pp and `cr.pfx` when it issues (R375). -/
def Ctx.unprefixed (c : Ctx) : Ctx :=
  { c with regs := { c.regs with status := setField c.regs.status 5 1 0, pfx := 0 } }

/-- The prefix fits an `MMA` or `MMAG` of depth K (R207, R219). DEDUCED (64). -/
def mmaLegal (w : Word) (K : Nat) : Bool :=
  let a := pfxA w
  let b := pfxB w
  decide (a ≤ 3) && decide (b ≤ 3) && field w 6 2 != 3 && fmtGrouped a == fmtGrouped b &&
    !(fmtGrouped a && pfxReg w == 0) && !(field w 6 2 == 2 && K % 128 != 0)

/-- The prefix fits an `MDRN` of a form (R219). -/
def drainLegal (w : Word) (form : Nat) : Bool := decide (field w 6 2 ≤ 1) && !(decide (3 ≤ form) && pfxReg w == 0)

/-- `PFX` (R219, R375). -/
def execPfx (q : BitVec 5) (g : BitVec 2) (b a : BitVec 3) (s : State) : Host.Outcome State Fault Refusal :=
  issueOn { meets := .beside [] none } (.pfx q g b a) (fun x =>
    let w : Word := BitVec.ofNat 64 (a.toNat + 8 * b.toNat + 64 * g.toNat + 256 * q.toNat)
    let regs := { x.c.regs with status := setField x.c.regs.status 5 1 1, pfx := w }
    .ok ({ x with c := { x.c with regs := regs } }.next 4)) s

/-- `MCFG` (R374). -/
def execMcfg (a : BitVec 5) (n : BitVec 2) (s : State) : Host.Outcome State Fault Refusal :=
  issueOn {} (.mcfg a n) (fun x =>
    let x := x.commit
    .ok { x with c := { x.c with items := x.c.items.set n.toNat (x.c.sreg a) 0 } }.done) s

/-! ## Commands -/

/-- A command with the values read at issue (R368, R374). -/
def Cx.command (x : Cx) (kind core k : Nat) (a b : Word) (n tag : Nat) : MCmd :=
  let w := x.c.prefixWord
  { kind := kind, origin := x.origin, core := core, k := k, a := a, b := b, n := n, tag := tag,
    apitch := field (x.c.items.get 0 0) 6 14 * 64, dpitch := field (x.c.items.get 1 0) 5 15 * 32,
    dpitch2 := field (x.c.items.get 2 0) 5 15 * 32, pfx := w, qaddr := x.c.sreg (pfxReg w), panel := 0 }

/-- A command of the issuing core sets out for its queue: the stream waits for the owner of its sub-tile and for a place
(R210, R213). DEDUCED (49). -/
def Cx.queueOwn (x : Cx) (m : MCmd) : Except Stop Cx :=
  if m.usesSub ∧ x.s.foreign x.c.uid m.core m.k then .error x.stayWaiting
  else if x.s.queueFull m.core then .error x.stay
  else
    let s := if m.usesSub then x.s.own x.c.uid m.core m.k m.logical else x.s
    .ok { x with s := s.sendMatrix m }

/-- The core that dpos names, or none where it names no tile of the compute set (R374). DEDUCED (46). -/
def Cx.target (x : Cx) : Option Nat :=
  let w := x.c.items.get 3 0
  if bit w 19 then (x.s.logicalTile x.origin (field w 0 16)).map fun t => coreBase t + field w 16 3 else some x.core

/-- The instruction is done, and its command ends at once with an error (R370, R488). -/
def Cx.failed (x : Cx) (engine tag code : Nat) (done : Cx → Cx) : State :=
  (done x).put.report { path := 0, tile := tileOf x.core, origin := x.origin, engine := engine } tag (4 * code)
    x.c.pc.toNat true

/-- A command at the core that dpos names takes an unowned sub-tile when it issues (R210, R213, R374, R378, R380); it waits while a
recast that has emptied that tile has still to rebind it (R90, R218). DEDUCED (49). DESIGN CHOICE (160). -/
def Cx.positioned (x : Cx) (tag : Nat) (m : Nat → MCmd) (done : Cx → Cx) : Except Stop State :=
  match x.target with
  | none => .ok (x.failed 2 tag errRange done)
  | some core =>
    if core = x.core then (x.queueOwn (m core)).map fun y => (done y).put
    else if x.s.leaving (tileOf core) then .error x.stay
    else
      let m := { m core with logical := some (field (x.c.items.get 3 0) 0 16) }
      let s := if m.usesSub ∧ !x.s.foreign x.c.uid core m.k then x.s.own x.c.uid core m.k m.logical else x.s
      .ok (done { x with s := s.sendMatrix m }).put

/-- A prefixed instruction is done. -/
def Cx.prefixDone (x : Cx) : Cx := { x with c := x.c.unprefixed }.done

/-- K of an `MMA` or `MMAG` (R305, R376). -/
def depth (n : BitVec 4) : Nat := 64 * (n.toNat + 1)

/-- `MMA` (R376). -/
def execMma (n : BitVec 4) (b a : BitVec 5) (k : BitVec 2) (s : State) : Host.Outcome State Fault Refusal :=
  issue { prefixed := true } (.mma n b a k) (fun c => mmaLegal c.prefixWord (depth n)) (fun x =>
    let x := x.commit
    (x.queueOwn (x.command 1 x.core k.toNat (x.c.sreg a) (x.c.sreg b) (depth n) 0)).map fun y => y.prefixDone.put) s

/-- The blocks of a gang rectangle in ascending column and row: the core, and the offset of its panel in its quad store of
tile t0 (R216, R377). DEDUCED (48). -/
def gangBlocks (rows cols po p : Nat) : List (Nat × Nat × Nat) :=
  (List.range cols).flatMap fun c => (List.range rows).map fun r => (c, r, po + r % 4 * 64 * p)

/-- `MMAG` (R216 to R218, R377): the leader takes every sub-tile that it names, and each block is one command; it waits while a
recast that has emptied a tile that it names has still to rebind it (R90, R218). DEDUCED (48). DESIGN CHOICE (160). -/
def execMmag (n : BitVec 4) (b g : BitVec 5) (k : BitVec 2) (s : State) : Host.Outcome State Fault Refusal :=
  issue { prefixed := true } (.mmag n b g k) (fun c => mmaLegal c.prefixWord (depth n)) (fun x =>
    let x := x.commit
    let w := x.c.sreg g
    let t0 := field w 0 16
    let cols := field w 19 3 + 1
    let tiles := (List.range cols).map fun c => x.s.logicalTile x.origin (t0 + c)
    let po := field w 24 20
    if field w 22 2 ≠ 0 ∨ field w 44 20 ≠ 0 ∨ tiles.any (·.isNone) then .ok (x.failed 2 0 errRange Cx.prefixDone)
    else if po % 64 ≠ 0 ∨ (x.c.sreg b).toNat % 64 ≠ 0 then .ok (x.failed 2 0 errAlign Cx.prefixDone)
    else
      let ft := fmtBytes (pfxA x.c.prefixWord) (depth n)
      let apitch := field (x.c.items.get 0 0) 6 14 * 64
      let p := if apitch = 0 then ft else apitch
      let home := 0x4000000000000 + (tiles.headD none).getD 0 * 0x800000
      let cmds := (gangBlocks (field w 16 3 + 1) cols po p).map fun q =>
        { x.command 2 (coreBase ((tiles.getD q.1 none).getD 0) + q.2.1) k.toNat 0 (x.c.sreg b) (depth n) 0 with
          panel := home + 0x100000 * (1 + q.2.1 / 4) + q.2.2
          panelOff := q.2.2
          logical := some (t0 + q.1)
          pages := x.s.recasts.flatMap (·.pages)
          gang := x.s.nextId }
      if tiles.any (·.any x.s.leaving) then .error x.stay
      else if cmds.any fun m => x.s.foreign x.c.uid m.core m.k then .error x.stayWaiting
      else
        let s := cmds.foldl (fun s m => (s.own x.c.uid m.core m.k m.logical).sendMatrix m)
          { x.s with nextId := x.s.nextId + 1 }
        .ok ({ x with s := s } : Cx).prefixDone.put) s

/-- `MZERO` (R378). -/
def execMzero (k : BitVec 2) (s : State) : Host.Outcome State Fault Refusal :=
  issue {} (.mzero k) (fun _ => true) (fun x =>
    let x := x.commit
    x.positioned 0 (fun core => x.command 3 core k.toNat 0 0 0 0) Cx.done) s

/-- `MLDB` (R379). -/
def execMldb (a b : BitVec 5) (s : State) : Host.Outcome State Fault Refusal :=
  issue {} (.mldb a b) (fun _ => true) (fun x =>
    let x := x.commit
    (x.queueOwn (x.command 4 x.core 0 (x.c.sreg a) (x.c.sreg b) 0 0)).map fun y => y.done.put) s

/-- `MDRN` (R380, R381). -/
def execMdrn (i : BitVec 7) (c a : BitVec 5) (f : BitVec 3) (k : BitVec 2) (s : State) : Host.Outcome State Fault Refusal :=
  issue { prefixed := true } (.mdrn i c a f k) (fun c => drainLegal c.prefixWord f.toNat) (fun x =>
    let x := x.commit
    x.positioned i.toNat (fun core => x.command 5 core k.toNat (x.c.sreg a) (x.c.sreg c) f.toNat i.toNat) Cx.prefixDone) s

end Sys2Proof.Machine
end

