-- ==== Sys2Proof/Machine/Paging.lean ====
section
/-! DEFINITION. What Drone does for translation: misses, residency, declined residency and page migration (R109 to R113,
R117, R179, R368, R428, R471, R472, R485). -/

namespace Sys2Proof.Machine

/-- The use that an access field stands for (R450). -/
def useOf (access : Nat) : Use :=
  if access = 0 then .load else if access = 1 then .store else if access = 3 then .syncBoth else .fetch

/-! ## Misses (R109, R111, R368) -/

/-- What the walk says of an access that missed: with no leaf, or with a present leaf that forbids it, the answer stands
against it (R111). -/
def State.verdictFor (s : State) (found : Bool) (leaf : Word) (access va : Nat) : Option (Nat × Option Word) :=
  if !found then some (va, none)
  else if bit leaf 0 && !s.leafAllows leaf (useOf access) va then some (va, some leaf)
  else none

/-- The contexts of a core whose miss a walk answers replay their access (R109). DEDUCED (107). -/
def State.answerMisses (s : State) (core asn va : Nat) (found : Bool) (leaf : Word) : State :=
  let page (a : Nat) : Bool :=
    if found then a / pageBytes (bit leaf 12) == va / pageBytes (bit leaf 12) else a == va
  (List.range 8).foldl (fun s i =>
    match (s.slotAt (core * 8 + i)).ctx with
    | some c =>
      match c.st with
      | .missing a access =>
        if c.asn = asn ∧ page a then
          s.putCtx (.slot (core * 8 + i)) { c with st := .running, verdicts := (s.verdictFor found leaf access a).toList ++ c.verdicts }
        else s
      | _ => s
    | none => s) s

/-- A negative answer for a unit that is no core: an engine's tile, or the unit that reads launch headers (R368, R505).  It takes
the place of an earlier answer for the address. -/
def State.addWalk (s : State) (unit asn va : Nat) (leaf : Option Word) : State :=
  { s with walks := (s.walks.filter fun w => !(w.unit == unit && w.asn == asn && w.va == va)) ++
      [{ unit := unit, asn := asn, va := va, leaf := leaf }] }

/-- The entry that a walk installs, where `TLBW` accepts it (R428). -/
def State.walkEntry (s : State) (asn va : Nat) (leaf : Word) (tile core : Nat) : Option TlbEntry :=
  let page := va - va % pageBytes (bit leaf 12)
  if s.tlbwStatus leaf page tile core 0 = 0 then some { asn := asn, page := page, leaf := leaf } else none

/-- `TLB_MISS`: Drone walks its tables for a unit (a core, 8,192 and a tile, or 9,216 for the unit that reads launch
headers) and installs the leaf it finds, or answers that there is none.  Operands: unit, address space, address, leaf, and the
access that missed (R450); the flag says that a leaf was found.  The answer stands against that access alone. DEDUCED (107). -/
def execTlbMiss (s : State) : Host.Outcome State Fault Refusal :=
  event (fun s =>
    let unit := s.args.a
    let asn := s.args.b
    let va := s.args.c
    let found := s.args.flag
    let leaf : Word := BitVec.ofNat 64 (s.args.d % 2 ^ 55)
    if 2 ^ 56 ≤ va then none
    else if unit < 8192 then
      if !found then some (s.answerMisses unit asn va false 0)
      else
        (s.walkEntry asn va leaf (tileOf unit) (unit % 8)).map fun e =>
          (s.install (tileOf unit) (some unit) e).answerMisses unit asn va true leaf
    else if unit < 8192 + 1024 then
      if !found then some (s.addWalk unit asn va none)
      else
        (s.walkEntry asn va leaf (unit - 8192) 0xFF).map fun e =>
          let t := s.install (unit - 8192) none e
          if bit leaf 0 && !s.leafAllows leaf (useOf s.args.e) va then t.addWalk unit asn va (some leaf) else t
    else if unit = enqUnit then
      if !found then some (s.addWalk unit asn va none).settleAll
      else
        (s.walkEntry asn va leaf 0 0xFF).map fun e =>
          let l := s.enqTlb.filter fun f => !(f.asn == e.asn && f.page == e.page)
          ({ s with enqTlb := e :: l } : State).settleAll
    else none) s

/-! ## Residency (R117, R368, R471, R472) -/

/-- A context that waits for a page of an address space. -/
def Ctx.awaitsPage (c : Ctx) (asn : Nat) (inPage : Nat → Bool) : Bool :=
  c.asn == asn &&
    match c.st with
    | .pageWait va _ => inPage va
    | _ => false

/-- `PAGE_RESIDENT`: a page that was not present has its present leaf.  What waits for it goes on: a parked firing becomes
ready at its region's start with its original age. -/
def execPageResident (s : State) : Host.Outcome State Fault Refusal :=
  event (fun s =>
    let asn := s.args.a
    let va := s.args.b
    let leaf : Word := BitVec.ofNat 64 (s.args.c % 2 ^ 55)
    let n := pageBytes (bit leaf 12)
    let inPage (a : Nat) : Bool := a / n == va / n
    match s.walkEntry asn va leaf 0 0xFF with
    | none => none
    | some e =>
      if !bit leaf 0 then none
      else
        let entry (f : TlbEntry) : TlbEntry :=
          if f.asn = asn ∧ f.page = e.page ∧ bit f.leaf 12 = bit leaf 12 ∧ !bit f.leaf 0 then e else f
        let wake (c : Ctx) : Ctx := if c.awaitsPage asn inPage then { c with st := .running } else c
        let slot (x : Nat × Slot) : Nat × Slot := (x.1, { x.2 with ctx := x.2.ctx.map wake })
        let ready (r : Ready) : Ready :=
          if r.ctx.any (·.awaitsPage asn inPage) then
            { r with ctx := r.ctx.map wake, blocking := false, since := s.time, raised := 0 }
          else r
        some ({ s with
          cores := s.cores.map fun x => (x.1, { x.2 with tlb := x.2.tlb.map entry })
          tiles := s.tiles.map fun x => (x.1, { x.2 with tlb := x.2.tlb.map entry })
          enqTlb := s.enqTlb.map entry
          walks := s.walks.filter fun w => !(w.asn == asn && inPage w.va)
          lostPages := s.lostPages.filter fun m => !(m.asn == asn && inPage m.va)
          slots := s.slots.map slot
          ready := s.ready.map ready } : State).settleAll) s

/-- The quota trap (R472); its resume address is set where it is taken. DEDUCED (88). -/
def quotaTrap (access va tier : Nat) : Trap :=
  { cls := 10, async := false, access := access, subcode := 0, addr := BitVec.ofNat 64 va, detail := BitVec.ofNat 64 tier,
    resume := 0, disposition := 0 }

/-- The trap of an access whose page Drone declines to make resident: the quota trap, or, where it cannot repair a line of the
page, the integrity trap at that line (R449, R485). -/
def State.declineTrap (s : State) (asn access va tier : Nat) : Trap :=
  let frame (m : PageMove) : Nat := leafFrame m.old
  match s.lostPages.find? fun m => m.asn == asn && decide (m.va ≤ va) && decide (va < m.va + m.size) with
  | none => quotaTrap access va tier
  | some m =>
    let line := (s.badLines.find? fun l => decide (frame m ≤ l) && decide (l < frame m + m.size)).getD (frame m)
    { quotaTrap access va tier with
      cls := 9, addr := BitVec.ofNat 64 (m.va + (line - frame m)), detail := BitVec.ofNat 64 (line + 5) }

/-- `QUOTA_DECLINE`: Drone declines to make the page of an address resident.  A firing that waits in its slot traps there; a
parked one traps when it takes a slot, before it issues anything (R449).  For an engine's or an enqueue's access, `d` is the
unit that asked.  Operands: address space, address, tier, unit. DEDUCED (88). -/
def execQuotaDecline (s : State) : Host.Outcome State Fault Refusal :=
  event (fun s =>
    let asn := s.args.a
    let va := s.args.b
    if 8192 ≤ s.args.d ∧ s.args.d ≤ enqUnit then some (s.addWalk s.args.d asn va (some 0)).settleAll
    else
      let trap (access : Nat) : Trap := s.declineTrap asn access va s.args.c
      let s := s.slots.foldl (fun s e =>
        match (s.slotAt e.1).ctx with
        | some c =>
          match c.st with
          | .pageWait a access =>
            if c.asn = asn ∧ a = va ∧ c.vstream = [] then
              s.takeTrap (.slot e.1) c { trap access with resume := c.pc }
            else s
          | _ => s
        | none => s) s
      let ready (r : Ready) : Ready :=
        match r.ctx with
        | some c =>
          match c.st with
          | .pageWait a access =>
            if c.asn = asn ∧ a = va then
              { r with
                ctx := some { c with st := .running, asyncs := trap access :: c.asyncs }
                blocking := false, since := s.time, raised := 0 }
            else r
          | _ => r
        | none => r
      some { s with ready := s.ready.map ready }) s

/-! ## Page migration (R179, R485) -/

/-- A leaf of a page of tiers 1 to `top`. -/
def leafWithin (top : Nat) (leaf : Word) : Bool :=
  bit leaf 0 &&
    match tierOf (leafFrame leaf) with
    | some t => decide (1 ≤ t) && decide (t ≤ top)
    | none => false

/-- A tile's pools have a free frame of `n` bytes in a tier. -/
def State.hasFrame (s : State) (tier : Option Nat) (n tile : Nat) : Bool :=
  s.pools.any fun p => p.onTile tile && tier == some p.tier && p.free.any fun b => decide (n ≤ 2 ^ b.2)

/-- A page of a tile that leaves compute role goes, once the tile's firings and messages have gone, to free frames of its tier at a
destination of the recast, or, if there are none, to tier 4 (R90). -/
def State.moveFits (s : State) (old new n : Nat) : Bool :=
  s.recasts.all fun r =>
    !(regionOf old == 2 && tileOfPa old == r.tile) || r.step < 2 ||
      r.left && (if tierOf new = some 4 then !r.dests.any (s.hasFrame (tierOf old) n)
       else tierOf new == tierOf old && r.dests.contains (tileOfPa new))

/-- A page frame meets a bank's state region, which Drone grants to no page (R226, R228). -/
def frameOfBank (frame n : Nat) : Bool := (List.range (n / 1024)).any fun i => bankState (frame + 1024 * i)

/-- Bytes of a page that goes from a tile to tier 4 or 5, as the census of its district counts them (R80).
DESIGN CHOICE (90). -/
def State.countSpill (s : State) (old new n : Nat) : State :=
  match s.homeTile old with
  | some t =>
    if tierOf new = some 4 ∨ tierOf new = some 5 then
      let k := s.census.get (districtOfTile t) {}
      { s with census := s.census.set (districtOfTile t) { k with spill := k.spill + n } {} }
    else s
  | none => s

/-- An entry of a translation lookaside buffer for a page, made non-present with its fpolicy (R110, R485). -/
def PageMove.lose (m : PageMove) (e : TlbEntry) : TlbEntry :=
  if e.asn = m.asn ∧ e.page = m.va ∧ bit e.leaf 12 = bit m.old 12 then { e with leaf := setField e.leaf 0 1 0 } else e

/-- A promotion from tier 5 ends since its source cannot be read: Drone makes the page non-present, and its fpolicy applies
(R485). -/
def State.losePage (s : State) (m : PageMove) : State :=
  { s with
    pageMoves := s.pageMoves.filter fun q => !(q.asn == m.asn && q.va == m.va)
    lostPages := m :: s.lostPages
    cores := s.cores.map fun x => (x.1, { x.2 with tlb := x.2.tlb.map m.lose })
    tiles := s.tiles.map fun x => (x.1, { x.2 with tlb := x.2.tlb.map m.lose })
    enqTlb := s.enqTlb.map m.lose }

/-- The page goes from tier 5 to tier 4 (R485). -/
def PageMove.promotes (m : PageMove) : Bool := tierOf (leafFrame m.old) == some 5 && tierOf (leafFrame m.new) == some 4

/-- The bytes, race tags and uncorrectable lines of a page copied to its new frame. -/
def State.copyPage (s : State) (m : PageMove) : State :=
  let n := pageBytes (bit m.old 12)
  let old := leafFrame m.old
  let new := leafFrame m.new
  let inside (a : Nat) : Bool := decide (old ≤ a) && decide (a < old + n)
  let z := s.zeroFill new n
  { z with
    mem := (s.mem.filter fun e => inside e.1).foldl (fun t e => t.set (e.1 - old + new) e.2 0) z.mem
    unseen := z.unseen ++ (s.unseen.filter fun u => inside u.pa).map fun u => { u with pa := u.pa - old + new }
    tags := (s.tags.filter fun e => inside e.1).foldl (fun t e => t.set (e.1 - old + new) e.2 0) z.tags
    badLines := z.badLines ++ (s.badLines.filter inside).map fun l => l - old + new }

/-- `PAGE_MIGRATION`: system software begins the migration of a page of tiers 1 to 4, or the promotion of one of tier 5 (R485), from
which time accesses to it wait; and, once every line committed to it is at the old frame, copies it with its lock bits and has the
change announced.  A promotion whose write check fails, as the flag says, is abandoned, and one whose source has a line that cannot
be read loses the page.  Operands: address space, page address, new leaf, old leaf, district. -/
def execPageMigration (s : State) : Host.Outcome State Fault Refusal :=
  event (fun s =>
    let asn := s.args.a
    let va := s.args.b
    let new : Word := BitVec.ofNat 64 (s.args.c % 2 ^ 55)
    let old : Word := BitVec.ofNat 64 (s.args.d % 2 ^ 55)
    let n := pageBytes (bit old 12)
    match s.pageMoves.find? fun m => m.asn == asn && m.va == va with
    | none =>
      let m : PageMove := { asn := asn, va := va, size := n, old := old, new := new, phase := 0 }
      if (leafWithin 4 old ∨ (bit old 0 ∧ m.promotes = true)) ∧ leafWithin 5 new ∧
          s.moveFits (leafFrame old) (leafFrame new) n ∧ s.frameFree (leafFrame new) n ∧
          frameOfBank (leafFrame new) n = false ∧ bit old 12 = bit new 12 ∧
          va % n = 0 ∧ leafFrame old ≠ leafFrame new ∧ (s.walkEntry asn va new 0 0xFF).isSome then
        some { s.takeFrame (leafFrame new) n with pageMoves := s.pageMoves ++ [m] }
      else none
    | some m =>
      let inside (a : Nat) : Bool := a / m.size == leafFrame m.old / m.size
      if m.phase ≠ 0 ∨ (s.flights.any fun f => inside f.line.home) then none
      else if m.promotes ∧ s.args.flag then
        some ({ s with pageMoves := s.pageMoves.filter fun q => !(q.asn == asn && q.va == va) }.giveFrame (leafFrame m.new) m.size)
      else if m.promotes ∧ s.badLines.any inside then some ((s.losePage m).giveFrame (leafFrame m.new) m.size)
      else if s.lockTaken m then none
      else
        let move (q : PageMove) : PageMove := if q.asn = asn ∧ q.va = va then { q with phase := 1 } else q
        let t := ((s.copyPage m).moveLocks m).countSpill (leafFrame m.old) (leafFrame m.new) m.size
        some (({ t with pageMoves := t.pageMoves.map move } : State).announce
          (hubAnnounce 4 (s.args.e % 64) asn va []))) s

end Sys2Proof.Machine
end

