-- ==== Sys2Proof/Machine/Select.lean ====
section
/-! DEFINITION. Memory-side selection: SEL entries, the parts of a scan and their merge (R239 to R245, R394 to R396). -/

namespace Sys2Proof.Machine

/-! ## Elements and predicates (R239, R240) -/

/-- The size of an element of a format code. -/
def selSize (fmt : Nat) : Nat :=
  match fmt with
  | 0 | 3 | 6 => 4
  | 5 | 8 => 1
  | _ => 2

/-- The floating-point format of a code 0 to 2. -/
def selFmt (fmt : Nat) : Fmt := if fmt = 0 then f32 else if fmt = 1 then f16 else bf16

/-- A value's place in the order of its domain: a NaN above every number, infinities at the ends, −0 equal to +0. -/
def rankOf : FV → Int
  | .nan => 2 ^ 400
  | .inf neg => if neg then -(2 ^ 390) else 2 ^ 390
  | .fin s m e => alignTo s m e (-149)

/-- A value as a predicate sees it: its place in the order, whether it is a NaN, and its raw bits. -/
structure SelVal where
  rank : Int
  nan : Bool
  raw : Nat
deriving DecidableEq, Repr

/-- Raw bits of a format code as a value. -/
def selVal (fmt raw : Nat) : SelVal :=
  if fmt ≤ 2 then
    let v := (selFmt fmt).decode raw
    { rank := rankOf v, nan := v.isNan, raw := raw }
  else
    let w := 8 * selSize fmt
    { rank := if fmt ≤ 5 then signed w raw else raw, nan := false, raw := raw }

/-- A predicate holds for a value (R240); a comparison with a NaN operand is false, and ne true (R184). -/
def selHolds (op : Nat) (v a b : SelVal) : Bool :=
  if op = 8 then v.nan
  else if v.nan then false
  else if op = 7 then Nat.land v.raw a.raw != 0
  else if op = 3 then a.nan || v.rank != a.rank
  else if a.nan then false
  else
    match op with
    | 0 => decide (v.rank < a.rank)
    | 1 => decide (v.rank ≤ a.rank)
    | 2 => v.rank == a.rank
    | 4 => decide (a.rank ≤ v.rank)
    | 5 => decide (a.rank < v.rank)
    | _ => !b.nan && decide (a.rank ≤ v.rank) && decide (v.rank ≤ b.rank)

/-- The row modes score whole rows. -/
def Sel.rows (p : Sel) : Bool := decide (2 ≤ p.mode)

/-- The top-k modes. -/
def Sel.topk (p : Sel) : Bool := p.mode % 2 == 1

/-- A value qualifies (R240). -/
def Sel.qualifies (p : Sel) (v : SelVal) : Bool :=
  let f := if p.rows then 0 else p.fmt
  let h0 := selHolds p.op0 v (selVal f p.a0) (selVal f p.b0)
  let h1 := selHolds p.op1 v (selVal f p.a1) (selVal f p.b1)
  if p.op0 = 0xFF then !v.nan
  else if p.op1 = 0xFF then h0
  else if p.comb = 0 then h0 && h1 else h0 || h1

/-- The value of a pair, as f32 (R242). -/
def Sel.widen (p : Sel) (v : SelVal) : Nat :=
  if p.rows ∨ p.fmt ≤ 2 then f32.rne ((if p.rows then f32 else selFmt p.fmt).decode v.raw) else (toF32 v.rank 0).1

/-- The score of a row (R241). -/
def rowScore (row query : List FV) : Nat :=
  (List.range ((row.length + 31) / 32)).foldl (fun acc b =>
    let ps := (((row.zip query).drop (32 * b)).take 32).map fun p => p.1.mul p.2
    (f32.add 0 (f32.decode acc) (dotSum ps).1).1) 0

/-! ## The entry (R395, R396) -/

/-- The fields of an entry and its parameter block. -/
def selOf (b q : List Byte) : Sel :=
  let f := listNat b
  let g := listNat q
  { mode := f 1 1, fmt := f 2 1, qfmt := f 3 1, rowlen := f 4 4, base := f 8 8, rowcount := f 0x10 4, params := f 0x18 8,
    stride := g 0 8, op0 := g 8 1, op1 := g 9 1, comb := g 0xA 1, k := g 0xC 2, a0 := g 0x10 8, b0 := g 0x18 8,
    a1 := g 0x20 8, b1 := g 0x28 8, query := g 0x30 8, out := g 0x38 8, outkind := g 0x40 1, cap := g 0x44 4,
    count := g 0x48 8 }

/-- The limits of an entry and its block (R395, R396); reserved fields are checked with the bytes. -/
def Sel.ok (p : Sel) (b q : List Byte) : Bool :=
  let size := selSize p.fmt
  let bits := if p.rows then 32 else 8 * size
  decide (p.mode ≤ 3) && decide (p.fmt ≤ (if p.rows then 2 else 8)) && decide (p.qfmt ≤ (if p.rows then 2 else 0)) &&
    decide (1 ≤ p.rowlen) && (!p.rows || decide (p.rowlen ≤ 256)) && decide (1 ≤ p.rowcount) &&
    (p.rows || decide (p.rowlen * p.rowcount ≤ 2 ^ 32)) && listNat b 0x14 4 == 0 && p.stride % size == 0 &&
    (p.rowcount == 1 || decide (p.rowlen * size ≤ p.stride)) && (decide (p.op0 ≤ 8) || p.op0 == 0xFF) &&
    (decide (p.op1 ≤ 8) || p.op1 == 0xFF) && (p.op0 != 0xFF || p.op1 == 0xFF) && decide (p.comb ≤ 1) &&
    listNat q 0xB 1 == 0 && (if p.topk then decide (1 ≤ p.k) && decide (p.k ≤ 1024) else p.k == 0) &&
    listNat q 0xE 2 == 0 && [p.a0, p.b0, p.a1, p.b1].all (fun v => decide (v < 2 ^ bits)) && decide (p.outkind ≤ 1) &&
    listNat q 0x41 3 == 0

/-- The alignment that fields of the entry require. -/
def Sel.aligned (p : Sel) : Bool :=
  p.base % selSize p.fmt == 0 && p.params % 16 == 0 && (p.outkind == 1 || p.out % 8 == 0) && p.count % 4 == 0

/-- Tiers that a scan may read its region from (R239). -/
def tiers345 (key : Nat) : Bool := keyTier key == some 3 || keyTier key == some 4 || keyTier key == some 5

/-- The selector that owns a byte (R243), by number: of a logical block in tier 3, else of a channel or controller. -/
def ownerOf (pa : Nat) : Nat :=
  match regionOf pa with
  | 0 => 1088 + pa / 256 % 256
  | 1 => 1344 + pa / 4096 % 12
  | _ => 0x10000 + pa / 2 ^ 23 % 2 ^ 26

/-- The address of row `r`. -/
def Sel.row (p : Sel) (r : Nat) : Nat := p.base + r * p.stride

/-- Addresses that meet every granule of a row: its bytes at steps of 64, and its last one. -/
def Sel.granules (p : Sel) (r : Nat) : List Nat :=
  let n := p.rowlen * selSize p.fmt
  (List.range (n / 64 + 2)).map fun i => Nat.min (p.row r + 64 * i) (p.row r + n - 1)

/-- The result pipe or output is one that the entry may name. -/
def State.outputOk (s : State) (e : Eng) (p : Sel) : Except EStop Unit := do
  if p.outkind = 1 then
    match (s.launchOf e.origin.launch e.origin.gen).bind fun l => l.pipes[p.out]? with
    | some q => if q.recSize < 8 then .error (.code errPipe)
    | none => .error (.code errPipe)
  else
    let key ← s.engKey e .store p.out
    if !tiers1to5 key then .error (.code errPlace)
  if p.count ≠ 0 then
    let key ← s.engKey e .store p.count
    if !tiers1to5 key then .error (.code errPlace)

/-- The engine at work on a part. -/
def Scan.eng (sc : Scan) : Eng := { path := 4, tile := sc.origin.tile, origin := sc.origin, engine := 4 }

/-- The 1 KiB units of the region, by number: no page is smaller (R110). -/
def Sel.pageNumbers (p : Sel) : List Nat :=
  (((List.range p.rowcount).flatMap p.granules).map (· / 1024)).eraseDups

/-- The addresses whose owners have a part: the first byte of every row, or every granule (R243). -/
def Sel.ownedAt (p : Sel) : List Nat :=
  if p.rows then (List.range p.rowcount).map p.row else (List.range p.rowcount).flatMap p.granules

/-- The frame that decides the owner of an address, and its home now. -/
def Scan.place (sc : Scan) (va : Nat) : Nat × Nat :=
  let f := sc.pages.get (va / 1024) (0, 0)
  (f.1 + va % 1024, f.2 + va % 1024)

/-- The units of the region that can be translated now are (R239): their tiers are checked, and the last one divides the region
among its owners (R243).  A large region is translated in several steps. -/
def State.mapScan (s : State) (sc : Scan) : Scan :=
  let step (r : Scan) (n : Nat) : Scan :=
    if r.failed ≠ 0 ∨ (r.pages.get? n).isSome then r
    else
      match s.engKey r.eng .load (1024 * n) with
      | .error .wait => r
      | .error (.code c) => { r with failed := c }
      | .ok key =>
        if tiers345 key then { r with pages := r.pages.insert n (key, key) } else { r with failed := errPlace }
  let ns := sc.sel.pageNumbers
  let sc := ns.foldl step sc
  if sc.failed ≠ 0 then { sc with mapped := true }
  else if ns.all fun n => (sc.pages.get? n).isSome then
    { sc with mapped := true, owners := (sc.sel.ownedAt.map fun a => ownerOf (sc.place a).1).eraseDups }
  else sc

/-- `CHAIN_SEL` (R243, R394 to R396): the entry is checked and its parts are started.  A misaligned address ends it with ALIGN, and
one in a wrong tier with PLACE. DESIGN CHOICE (175). -/
def execChainSel (s : State) : Host.Outcome State Fault Refusal :=
  chainEvent 8 (fun s c b => do
    let e := c.eng
    let params := listNat b 0x18 8
    if params % 16 ≠ 0 then .error (.code errAlign) else
    let q ← s.engBytes e blockPlace params 80
    let p := selOf b q
    if !p.ok b q then .error (.code errRange) else
    if !p.aligned then .error (.code errAlign) else
    s.outputOk e p
    if p.rows then
      let key ← s.engKey e .load p.query
      if !(tiers134 key || keyTier key == some 5) then .error (.code errPlace)
    let sc := s.mapScan
      { id := s.nextId, chain := c.id, origin := c.origin, entry := c.entry, sel := p, owners := [], pairs := [], count := 0,
        failed := 0, sorted := false }
    if sc.failed ≠ 0 then .error (.code sc.failed)
    else .ok ({ s with nextId := s.nextId + 1, scans := s.scans ++ [sc] }.integrityAll e params 80)) s

/-! ## Parts (R243) -/

/-- The bytes of an element or row, each read once at its home (R245). -/
def State.scanBytes (s : State) (sc : Scan) (va n : Nat) : List Byte :=
  (List.range n).map fun i => s.keyByte sc.eng (sc.place (va + i)).2 (va + i)

/-- The values of an owner's part: index and value. -/
def State.partValues (s : State) (sc : Scan) (owner : Nat) (query : List FV) (items : List (Nat × Nat)) :
    List (Nat × SelVal) :=
  let p := sc.sel
  let size := selSize p.fmt
  (items.filter fun e => ownerOf (sc.place e.2).1 == owner).map fun e =>
    if p.rows then
      let b := s.scanBytes sc e.2 (p.rowlen * size)
      (e.1, selVal 0 (rowScore ((List.range p.rowlen).map fun j => (selFmt p.fmt).decode (listNat b (size * j) size)) query))
    else (e.1, selVal p.fmt (listNat (s.scanBytes sc e.2 size) 0 size))

/-- Index and address of every element, or of every row. -/
def Sel.items (p : Sel) : List (Nat × Nat) :=
  if p.rows then (List.range p.rowcount).map fun r => (r, p.row r)
  else (List.range p.rowcount).flatMap fun r => (List.range p.rowlen).map fun c =>
    (r * p.rowlen + c, p.row r + c * selSize p.fmt)

/-- The query of a row mode. -/
def State.scanQuery (s : State) (sc : Scan) : Except EStop (List FV) :=
  let p := sc.sel
  let size := if p.qfmt = 0 then 4 else 2
  if p.rows then do
    let b ← s.engBytes sc.eng (fun k => tiers134 k || keyTier k == some 5) p.query (p.rowlen * size)
    .ok ((List.range p.rowlen).map fun j =>
      (if p.qfmt = 0 then f32 else if p.qfmt = 1 then f16 else bf16).decode (listNat b (size * j) size))
  else .ok []

/-- The traps for uncorrectable lines in an owner's part: its own lines, or its rows whole, and the query (R243, R484). -/
def State.integrityPart (s : State) (sc : Scan) (owner : Nat) : State :=
  if s.badLines = [] then s
  else
    let p := sc.sel
    let mine (a : Nat) : Bool := ownerOf (sc.place a).1 == owner
    let lines := (List.range p.rowcount).flatMap fun r =>
      if p.rows then if mine (p.row r) then p.granules r else [] else (p.granules r).filter mine
    let s := lines.foldl (fun s a =>
      let pa := (sc.place a).2
      if s.badLines.contains (lineOf pa) then s.integrity sc.eng a pa else s) s
    if p.rows then s.integrityBlocks sc.eng [(p.query, p.rowlen * (if p.qfmt = 0 then 4 else 2))] else s

/-- A page of the region is being migrated (R179). -/
def State.scanMoving (s : State) (sc : Scan) : Bool := sc.pages.any fun e => s.migrating e.2.2

/-- A part over a block that is being moved waits until the move is over (R89). -/
def State.partHeld (s : State) (owner : Nat) : Bool :=
  decide (0x10000 ≤ owner) &&
    s.roles.any fun e => field e.2 0 2 == 1 && bit e.2 5 && decide (2 ≤ field e.2 2 3) &&
      (field e.2 16 16 * 2 ^ 10 + field e.2 6 10) == owner - 0x10000

def State.setScan (s : State) (sc : Scan) : State :=
  { s with scans := s.scans.map fun t => if t.id = sc.id then sc else t }

/-- `SCAN_PART` (R239 to R243): one owner's part, whose qualifying values go to the merging selector; before the parts have
started, further pages of the region are translated. -/
def execScanPart (s : State) : Host.Outcome State Fault Refusal :=
  event (fun s =>
    match s.scans.find? (·.id == s.args.a) with
    | none => none
    | some sc =>
      let owner := s.args.b
      if !sc.mapped then some (s.setScan (s.mapScan sc))
      else if !sc.owners.contains owner || s.partHeld owner || s.scanMoving sc then none
      else
        let rest := sc.owners.filter (· != owner)
        match s.scanQuery sc with
        | .error .wait => none
        | .error (.code e) => some (s.setScan { sc with owners := rest, failed := e })
        | .ok q =>
          let l := (s.partValues sc owner q sc.sel.items).filter fun v => sc.sel.qualifies v.2
          some ((s.setScan { sc with
            owners := rest
            pairs := sc.pairs ++ l.map fun v => (v.2.rank, sc.sel.widen v.2, v.1)
            count := sc.count + l.length }).integrityPart sc owner)) s

/-! ## The merge (R242, R244) -/

/-- One result comes before another: by descending value, then ascending index; or by index alone. -/
def pairBefore (topk : Bool) (a b : Int × Nat × Nat) : Bool :=
  if topk then decide (b.1 < a.1) || (a.1 == b.1 && decide (a.2.2 < b.2.2)) else decide (a.2.2 < b.2.2)

/-- A pair put into its place. -/
def insertPair (topk : Bool) (p : Int × Nat × Nat) : List (Int × Nat × Nat) → List (Int × Nat × Nat)
  | [] => [p]
  | q :: l => if pairBefore topk p q then p :: q :: l else q :: insertPair topk p l

def sortPairs (topk : Bool) (l : List (Int × Nat × Nat)) : List (Int × Nat × Nat) := l.foldr (insertPair topk) []

/-- The merging selector orders the pairs and keeps those that are written. -/
def Scan.order (sc : Scan) : Scan :=
  let p := sc.sel
  let l := (sortPairs p.topk sc.pairs).take (if p.topk then p.k else p.cap)
  { sc with pairs := l, count := if p.topk then l.length else sc.count, sorted := true }

/-- The bytes of a result (R242). -/
def pairBytes (q : Int × Nat × Nat) : List Byte := ((List.range 4).map (byteOf q.2.1)) ++ (List.range 4).map (byteOf q.2.2)

/-- The count's write. -/
def Scan.countBytes (sc : Scan) : List (Nat × Byte) :=
  if sc.sel.count = 0 then [] else numberAt sc.sel.count 4 sc.count

/-- The report reaches the sequencer: the chain goes on, or ends with the error (R394). DEDUCED (60). -/
def State.scanDone (s : State) (sc : Scan) (code : Nat) : State :=
  let s := { s with scans := s.scans.filter (·.id != sc.id) }
  match s.chainOf sc.chain with
  | none => s
  | some c =>
    if code ≠ 0 then s.chainFail c code
    else
      let beyond := !sc.sel.topk && decide (sc.sel.cap < sc.count)
      s.chainNext { c with reports := if beyond then Nat.lor c.reports 1 else c.reports }

/-- Results go into the records of a pipe while it has room (R242); once its launch has completed or been killed, they are
dropped and the scan ends. DEDUCED (60). DESIGN CHOICE (147). -/
def State.scanPipe (s : State) (sc : Scan) : State × Scan :=
  match s.launchOf sc.origin.launch sc.origin.gen with
  | none => (s, { sc with pairs := [] })
  | some l =>
    match if l.killed then none else l.pipes[sc.sel.out]? with
    | none => (s, { sc with pairs := [] })
    | some e =>
      let key := sc.origin.pipes + sc.sel.out
      let room := e.depth - ((l.records.get key []).length + l.reservedCount.get key 0)
      let recs := (sc.pairs.take room).map fun q => pairBytes q ++ (List.range (e.recSize - 8)).map fun _ => (0 : Byte)
      (s.setLaunch sc.origin.launch { l with records := l.records.set key (l.records.get key [] ++ recs) [] },
        { sc with pairs := sc.pairs.drop room })

/-- `SCAN_MERGE` (R242, R244): with every part's pairs in hand, the output and the count are written. -/
def execScanMerge (s : State) : Host.Outcome State Fault Refusal :=
  event (fun s =>
    match s.scans.find? (·.id == s.args.a) with
    | none => none
    | some sc =>
      if sc.owners ≠ [] ∨ !sc.mapped then none
      else if sc.failed ≠ 0 then some (s.scanDone sc sc.failed)
      else
        let sc := if sc.sorted then sc else sc.order
        if sc.sel.outkind = 0 then
          let out := bytesAt sc.sel.out (sc.pairs.flatMap pairBytes)
          match s.engStore sc.eng tiers1to5 (out ++ sc.countBytes) with
          | .error () => none
          | .ok (t, 0) => some (t.scanDone sc 0)
          | .ok (_, e) => some (s.scanDone sc e)
        else
          let (t, sc') := s.scanPipe sc
          if sc'.pairs ≠ [] then some (t.setScan sc')
          else
            match t.engStore sc.eng tiers1to5 sc.countBytes with
            | .error () => some (t.setScan sc')
            | .ok (t, e) => some (t.scanDone sc' e)) s

end Sys2Proof.Machine
end

