-- ==== Sys2Proof/Machine/Traps.lean ====
section
/-! DEFINITION. Delivery of queued traps to system cores, and escalation (R451 to R453). -/

namespace Sys2Proof.Machine

/-- The trap that stops an issuer. -/
def State.trapOf (s : State) (n : Nat) : Option Trap :=
  match s.ctxOf (Issuer.ofNumber n) with
  | some c =>
    match c.st with
    | .trapped t _ => some t
    | _ => none
  | none => none

/-- A fault of a system core before its `TACK`: it is not delivered but escalates (R453). -/
def State.escalates (s : State) (n : Nat) : Bool :=
  match Issuer.ofNumber n with
  | .sys m => (s.sysAt m).latch.isSome
  | .slot _ => false

/-- A system core that serves a class, holds no latch and is not itself stopped by a trap (R451). DEDUCED (30).
DEDUCED (100). -/
def State.eligible (s : State) (cls n : Nat) : Bool :=
  let k := s.sysAt n
  k.latch.isNone && !k.retired.getLsbD cls && decide (k.ctx.st = .running) && decide (4 ≤ s.host.stage)

/-- A system core takes a trap (R452): it latches the three words and begins at the entry of its landing SRAM. -/
def State.land (s : State) (n from_ : Nat) (t : Trap) : State :=
  let k := s.sysAt n
  let inc := if from_ < 65536 then (s.slotAt from_).inc.toNat else 0
  s.setSys n { k with
    latch := some { cause := t.cause from_ inc, addr := t.addr, detail := t.detail }
    serving := from_ :: k.serving
    ctx := { k.ctx with pc := Config.landingEntry n } }

/-- `TRAP_DELIVERY`: the oldest queued trap goes to the lowest-numbered eligible system core; while the firings are stopped, theirs
stay queued (R457). DEDUCED (100). -/
def execTrapDelivery (s : State) : Host.Outcome State Fault Refusal :=
  event (fun s => do
    let k ← s.trapq.find? fun k => !s.escalates k && (decide (65536 ≤ k) || !s.halted)
    let t ← s.trapOf k
    let n ← (List.range 16).find? (s.eligible t.cls)
    some (({ s with trapq := s.trapq.erase k } : State).land n k t)) s

/-- `TRAP_ESCALATION` (R453): a system core that holds a latch has met a fault.  Chanter keeps the latch, retires the core
from the class, and puts the trap that it served at the head of the queue. -/
def execTrapEscalation (s : State) : Host.Outcome State Fault Refusal :=
  event (fun s =>
    let n := s.args.a
    let k := s.sysAt n
    match k.latch, k.serving, s.trapOf (65536 + n) with
    | some _, j :: rest, some _ =>
      if 16 ≤ n then none
      else
        let cls := ((s.trapOf j).map (·.cls)).getD 0
        let q := j :: (s.trapq.filter fun m => m != 65536 + n)
        some ({ s with trapq := q }.setSys n { k with serving := rest, retired := k.retired ||| BitVec.ofNat 32 (2 ^ cls) })
    | _, _, _ => none) s

end Sys2Proof.Machine
end

