-- ==== Sys2Proof/Machine/Transc.lean ====
section
/-! DEFINITION. The four transcendental instructions (R200 to R204): tables, procedures, and their flags.  Every table
entry is the exact value of R200 rounded to the nearest integer. -/

namespace Sys2Proof.Machine

def tableE0 : List Nat := [
   1152921504606846976, 1165475996665667822, 1178167198179750971, 1190996597817460745,
   1203965700457697123, 1217076027366416898, 1230329116375077029, 1243726522061021107,
   1257269815929830109, 1270960586599658813, 1284800439987579512, 1298790999497954876,
   1312933906212862055, 1327230819084590373, 1341683415130235180, 1356293389628410688]

def tableE1 : List Nat := [
   1371062456318104878, 1385992347599699789, 1401084814738180775, 1416341628068558570,
   1431764577203528246, 1447355471243389432, 1463116138988252419, 1479048429152555028,
   1495154210581915421, 1511435372472346285, 1527893824591856095, 1544531497504463463,
   1561350342796650841, 1578352333306284143, 1595539463354025138, 1612913748977263761]

def tableE2 : List Nat := [
   1630477228166597777, 1648231961104887538, 1666180030408913885, 1684323541373667519,
   1702664622219298520, 1721205424340754960, 1739948122560139915, 1758894915381816449,
   1778048025250290524, 1797409698810902060, 1816982207173354740, 1836767846178115468,
   1856768936665714716, 1876987824748979379, 1897426882088230027, 1918088506169474884]

def tableE3 : List Nat := [
   1938975120585633119, 1960089175320820471, 1981433147037730539, 2003009539368145444,
   2024820883206609954, 2046869737007303498, 2069158687084144917, 2091690347914165133,
   2114467362444183334, 2137492402400822641, 2160768168603901625, 2184297391283238439,
   2208082830398904710, 2232127275964966775, 2256433548376752231, 2281004498741680175]

/-- E[i], 2^60 × 2^(i/64) (R200). -/
def tableE : List Nat := tableE0 ++ tableE1 ++ tableE2 ++ tableE3

/-- B1 to B5, 2^60 × (ln 2)^k / k! (R200). -/
def tableB : List Int := [
   799144290325165979, 276962305849733589, 63991880473708028, 11088947882269934,
   1537254591994316]

def tableQ0 : List Nat := [
   1152921504606846976, 1135184250689818561, 1117984489315730401, 1101298153654301589,
   1085102592571150095, 1069376468041133427, 1054099661354831521, 1039253187251242345,
   1024819115206086201, 1010780497189564472, 997121301281597385, 983826350597842753,
   970881267037344822, 958272419413483201, 945986875574848801, 934012358162508943]

def tableQ1 : List Nat := [
   922337203685477581, 910950324627632179, 899841174327295201, 888999714395641042,
   878416384462359601, 868082074056920076, 857988096451607052, 848126164308485132,
   838488366986797801, 829067149380204567, 819855292164868961, 810845893349870401,
   802032351030850070, 793408347256324801, 784967832923810707, 776705013629875858]

def tableQ2 : List Nat := [
   768614336404564651, 760690477266373263, 752928329539165372, 745322992877153601,
   737869762948382065, 730564121731071351, 723401728380766730, 716378410629497150,
   709490156681136601, 702733107569887681, 696103549951303835, 689597909297553331,
   683212743470724134, 676944736649891802, 670790693589438241, 664747534187731590]

def tableQ3 : List Nat := [
   658812288346769701, 652982091104762889, 647254178024896548, 641625880824680056,
   636094623231363849, 630657917049899201, 625313358430832258, 620058624326371483,
   614891469123651721, 609809721444943855, 604811281105231201, 599894116218196801,
   595056260442243601, 590295810358705652, 585610922974906401, 580999813345182728]

/-- Q[i], 2^60 × 64 / (64 + i) (R200). -/
def tableQ : List Nat := tableQ0 ++ tableQ1 ++ tableQ2 ++ tableQ3

def tableL0 : List Nat := [
   0, 25788332651530406, 51182934886444090, 76195648900823467,
   100837790531531112, 125120179995327398, 149053170416303219, 172646674329879364,
   195910188333191412, 218852816035280480, 241483289445896830, 263809988928679417,
   285840961832812868, 307583939906821491, 329046355588796001, 350235357258939190]

def tableL1 : List Nat := [
   371157823532753600, 391820376666382824, 412229395139475350, 432391025475392781,
   452311193353568813, 471995614064284711, 491449802352011305, 510679081689732512,
   529688593023271872, 548483303021556867, 567068011865945012, 585447360609173402,
   603625838132155180, 621607787724710351, 639397413314365170, 656998785365566468]

def tableL2 : List Nat := [
   674415846470019194, 691652416647353188, 708712198373946214, 725598781356463284,
   742315647065507199, 758866173043702895, 775253637001550306, 791481220713469788,
   807552013725623783, 823469016886322413, 839235145709103587, 854853233577914885,
   870326034803210606, 885656227537208736, 900846416556025471, 915899135915916024]

def tableL3 : List Nat := [
   930816851490396595, 945601963394600808, 960256808302832062, 974783661664908780,
   989184739826560294, 1003462202058815195, 1017618152501029530, 1031654642021927707,
   1045573670002772794, 1059377186046543743, 1073067091616773679, 1086645241609494544,
   1100113445861538133, 1113473470598260799, 1126727039823588007, 1139875836655114673]

/-- Lt[i], 2^60 × log2(1 + i/64) (R200). -/
def tableL : List Nat := tableL0 ++ tableL1 ++ tableL2 ++ tableL3

/-- A1 to A5, 2^60 × (−1)^(k+1) / (k × ln 2) (R200). -/
def tableA : List Int := [
   1663314137230540311, -831657068615270156, 554438045743513437, -415828534307635078,
   332662827446108062]

def tableS0 : List Nat := [
   1143984128602142736, 1126518722058598572, 1109578590899822654, 1093140389553158614,
   1077182135691068708, 1061683112155945417, 1046623777231747609, 1031985682445289601,
   1017751397170182158, 1003904439385553829, 990429212011251093, 977310944302492801,
   964535637841022307, 952090016707589761, 939961481462907089, 928138066601738446]

def tableS1 : List Nat := [
   916608401178114366, 905361672329303147, 894387591452584321, 883676362812433610,
   873218654376783508, 863005570699862064, 853028627685990826, 843279729083865217,
   833751144574443011, 824435489327801190, 815325704915339298, 806415041473641601,
   797697041025277908, 789165521869927342, 780814563966541867, 772638495233907921]

def tableS2 : List Nat := [
   764631878702986595, 756789500459879041, 749106358323230522, 741577651204404085,
   734198769102867726, 726965283692987256, 719872939461836161, 712917645360755618,
   706095466936250780, 699402618908419019, 692835458167494896, 686390477161285642,
   680064297648278401, 673853664793042981, 667755441582246212, 661766603541149834]

def tableS3 : List Nat := [
   655884233731895169, 650105518016195652, 644427740566272546, 638848279608988801,
   633364603389169154, 627974266339048566, 622674905441672628, 617464236776888757,
   612340052239321215, 607300216418421452, 602342663631332298, 597465395099904506,
   592666476263760694, 587944034221818378, 583296255295163687, 578721382704613384]

/-- S[i], 2^60 × 128 / (129 + 2i) (R200). -/
def tableS : List Nat := tableS0 ++ tableS1 ++ tableS2 ++ tableS3

def tableZ0 : List Nat := [
   1148444122626057558, 1139643654834080986, 1131042447700248189, 1122633093521718011,
   1114408564493545040, 1106362188020953859, 1098487623964570611, 1090778843642260544,
   1083230110429527857, 1075835961816617250, 1068591192794786910, 1061490840456934146,
   1054530169709049285, 1047704659999024946, 1041009992978307458, 1034442041019875718]

def tableZ1 : List Nat := [
   1027996856523184133, 1021670661943109415, 1015459840485682361, 1009360927418540883,
   1003370601948675555, 997485679624211760, 991703105220734108, 986019946076053870,
   980433385840388259, 974940718611696247, 969539343428429992, 964226759094241161,
   959000559311251468, 953858428100378130, 948798135488916637, 943817533447142148]

def tableZ2 : List Nat := [
   938914552057112074, 934087195898149465, 929333540634671584, 924651729793111415,
   920039971715671325, 915496536679556328, 911019754171167143, 906608010305497415,
   902259745381681328, 897973451566283032, 893747670696512866, 889580992196101882,
   885472051097069782, 881419526161085804, 877422138094550708, 873478647851923885]

def tableZ3 : List Nat := [
   869587855022185481, 865748596293661890, 861959743992756184, 858220204692415201,
   854528917886433960, 850884854725947470, 847287016814691534, 843734435059829120,
   840226168575338704, 836761303635146750, 833338952673359412, 829958253329109440,
   826618367533684276, 823318480637741043, 820057800576544514, 816835557071285782]

def tableZ4 : List Nat := [
   812072626922720235, 805849756469399798, 799767784578676518, 793821473213638401,
   788005852965751688, 782316205598002571, 776748047954846129, 771297117114263262,
   765959356670171866, 760730904044881672, 755608078741415207, 750587371454505762,
   745665433967069539, 740839069766056703, 736105225317921427, 731460981949606878]

def tableZ5 : List Nat := [
   726903548285997853, 722430253199321436, 718038539230035850, 713725956442392866,
   709490156681136601, 705328888198752152, 701239990625337349, 697221390255571613,
   693271095629425343, 689387193385216099, 685567844365395800, 681811279957065458,
   678115798650677783, 674479762801718253, 670901595581365648, 667379778103235342]

def tableZ6 : List Nat := [
   663912846714313632, 660499390439108526, 657138048566880192, 653827508372580300,
   650566502962830577, 647353809238913116, 644188245969333801, 641068671965060584,
   637993984351034622, 634963116928008527, 631975038619185656, 629028751996520855,
   626123291881899151, 623257724018737301, 620431143809856153, 617642675117751742]

def tableZ7 : List Nat := [
   614891469123651721, 612176703241983047, 609497580087098369, 606853326489313662,
   604243192557499895, 601666450785647816, 599122395200988700, 596610340551405882,
   594129621530013218, 591679592034907967, 589259624462227837, 586869109030755767,
   584507453136422008, 582174080735151921, 579868431752600088, 577589961519397328]

/-- Z[j], 2^60 / √(2^p × (1 + (2c + 1)/128)), c = j mod 64, p = j div 64 (R200). -/
def tableZ : List Nat := tableZ0 ++ tableZ1 ++ tableZ2 ++ tableZ3 ++ tableZ4 ++ tableZ5 ++ tableZ6 ++ tableZ7

/-- Floor division by a power of two (R200). -/
def shr (a : Int) (k : Nat) : Int := a / 2 ^ k

/-- The polynomial both procedures evaluate, from the last coefficient down (R201, R202). -/
def horner (g : Int) : List Int → Int
  | [] => 0
  | [b] => b
  | b :: bs => b + shr (horner g bs * g) 60

/-- `decompose(x)` of ±m × 2^k, m ≠ 0: M with 2^23 ≤ M < 2^24, and e with |x| = M × 2^(e − 23) (R200).  The input is an f32
value, so M is exact. -/
def decompose (m : Nat) (k : Int) : Nat × Int :=
  let n := bitLength m
  (if n ≤ 24 then m * 2 ^ (24 - n) else m / 2 ^ (n - 24), k + n - 1)

/-- The result of a procedure: an f32 result given outright with its flags, or the value v before its final conversion,
±m × 2^k, and whether the procedure left its exact case (R200). -/
inductive Raw where
  | done (bits flags : Nat)
  | value (neg : Bool) (m : Nat) (k : Int) (inexact : Bool)

/-- `VEXP2` (R201). -/
def exp2Raw : FV → Raw
  | .nan => .done f32.nan 0
  | .inf neg => if neg then .done 0 0 else .done (f32.inf false) 0
  | .fin neg m e =>
    -- x < −150 and x ≥ 128, on exact values
    if FV.lt (.fin neg m e) (.fin true 150 0) then .done 0 (flagUf ||| flagNx)
    else if !FV.lt (.fin neg m e) (.fin false 128 0) then .done (f32.inf false) (flagOf ||| flagNx)
    else
      let v : Int := if neg then -(m : Int) else m
      let x : Int := if 0 ≤ e + 60 then v * 2 ^ (e + 60).toNat else shr v (-(e + 60)).toNat
      let n := shr x 60
      let fr := x - n * 2 ^ 60
      let i := shr fr 54
      let g := fr - i * 2 ^ 54
      let t := horner g tableB
      let p := 2 ^ 60 + shr (t * g) 60
      let r := shr ((tableE.getD i.toNat 0 : Int) * p) 60
      .value false r.toNat (n - 60) (decide (fr ≠ 0))

/-- `VLOG2` (R202). -/
def log2Raw : FV → Raw
  | .nan => .done f32.nan 0
  | .inf neg => if neg then .done f32.nan flagNv else .done (f32.inf false) 0
  | .fin neg m k =>
    if m = 0 then .done (f32.inf true) flagDz
    else if neg then .done f32.nan flagNv
    else
      let (mm, e) := decompose m k
      let i := mm / 2 ^ 17 - 64
      let z : Int := shr ((mm * 2 ^ 37 : Nat) * (tableQ.getD i 0 : Int)) 60 - 2 ^ 60
      let t := horner z tableA
      let l : Int := e * 2 ^ 60 + (tableL.getD i 0 : Int) + shr (t * z) 60
      .value (decide (l < 0)) l.natAbs (-60) (decide (mm ≠ 2 ^ 23))

/-- One step of the reciprocal iteration (R203). -/
def rcpStep (a y : Int) : Int := shr (y * (2 ^ 61 - shr (a * y) 60)) 60

/-- `VRCP` (R203). -/
def rcpRaw : FV → Raw
  | .nan => .done f32.nan 0
  | .inf neg => .done (f32.zero neg) 0
  | .fin neg m k =>
    if m = 0 then .done (f32.inf neg) flagDz
    else
      let (mm, e) := decompose m k
      let a : Int := mm * 2 ^ 37
      let y : Int := if mm = 2 ^ 23 then 2 ^ 60 else rcpStep a (rcpStep a (tableS.getD (mm / 2 ^ 17 - 64) 0 : Int))
      .value neg y.natAbs (-60 - e) (decide (mm ≠ 2 ^ 23))

/-- One step of the reciprocal square root iteration (R204). -/
def rsqStep (a y : Int) : Int := shr (y * (3 * 2 ^ 60 - shr (shr (y * y) 60 * a) 60)) 61

/-- `VRSQ` (R204). -/
def rsqRaw : FV → Raw
  | .nan => .done f32.nan 0
  | .inf neg => if neg then .done f32.nan flagNv else .done 0 0
  | .fin neg m k =>
    if m = 0 then .done (f32.inf neg) flagDz
    else if neg then .done f32.nan flagNv
    else
      let (mm, e) := decompose m k
      let p := e % 2
      let h := e - p
      let a : Int := mm * 2 ^ (37 + p.toNat)
      let exact := mm = 2 ^ 23 ∧ p = 0
      let y : Int := if exact then 2 ^ 60 else
        rsqStep a (rsqStep a (tableZ.getD (mm / 2 ^ 17 - 64 + 64 * p.toNat) 0 : Int))
      .value false y.natAbs (-60 - h / 2) (!decide exact)

/-- The final conversion to f32, and to the lane type where that is a 16-bit one, with the flags of R200: of when the
conversion overflows, nx when it changes v or the procedure left its exact case, uf when v is tiny in the result format and
the result is inexact in either sense. -/
def finishRaw (f : Fmt) : Raw → Nat × Nat
  | .done b fl => if f = f32 then (b, fl) else
      let (r, fl') := f.round 0 (f32.decode b)
      (r, fl ||| fl')
  | .value neg m k inexact =>
    let (b, fl) := f32.roundTo 0 neg m k false
    let (r, fl') := if f = f32 then (b, 0) else f.round 0 (f32.decode b)
    let nx := inexact || Nat.testBit fl 12 || Nat.testBit fl' 12
    let tiny := decide (m ≠ 0) && decide (k + bitLength m - 1 < f.low + f.fbits)
    let of := Nat.testBit fl 10 || Nat.testBit fl' 10
    (r, (if nx then flagNx else 0) ||| (if tiny && nx then flagUf else 0) ||| (if of then flagOf else 0))

/-- A transcendental operation of a lane: the input is widened exactly to f32 (R200). -/
def transc (p : FV → Raw) (t a : Nat) : Nat × Nat :=
  let v := (fmtOf t).decode a
  -- widening is exact: the f32 value is the value itself
  finishRaw (fmtOf t) (p v)

end Sys2Proof.Machine
end

