-- ==== Sys2Proof/Machine/VecAlu.lean ====
section
/-! DEFINITION. The vector instructions other than loads and stores: majors 0x20 to 0x2B and the 16-bit form (R343 to
R363). -/

namespace Sys2Proof.Machine

/-! ## Compact operations (R348, R349) -/

/-- A binary operation of a lane: the floating result, or the integer result modulo 2^w. -/
def laneOp (t : Nat) (ff : Fmt → Nat × Nat) (fi : Int) : Nat × Nat :=
  if laneFloat t then ff (fmtOf t) else (toLane (laneWidth t) fi, 0)

/-- `VADD` (R348). -/
def laneAdd (t rm a b : Nat) : Nat × Nat :=
  laneOp t (fun f => f.add rm (f.decode a) (f.decode b)) (laneInt t a + laneInt t b)

/-- `VSUB` (R184, R348): a − b is the addition of a and −b. -/
def laneSub (t rm a b : Nat) : Nat × Nat :=
  laneOp t (fun f => f.add rm (f.decode a) (f.decode b).neg) (laneInt t a - laneInt t b)

/-- `VMUL` (R348). -/
def laneMul (t rm a b : Nat) : Nat × Nat :=
  laneOp t (fun f => f.mul rm (f.decode a) (f.decode b)) (laneInt t a * laneInt t b)

/-- `VMIN` (R348, R349). -/
def laneMin (t a b : Nat) : Nat :=
  if laneFloat t then (fmtOf t).min a b else if laneInt t b < laneInt t a then b else a

/-- `VMAX` (R348, R349). -/
def laneMax (t a b : Nat) : Nat :=
  if laneFloat t then (fmtOf t).maxOf a b else if laneInt t a < laneInt t b then b else a

/-- `VABS` (R348). -/
def laneAbs (t a : Nat) : Nat :=
  if laneFloat t then
    if ((fmtOf t).decode a).isNan then (fmtOf t).nan else a % 2 ^ (laneWidth t - 1)
  else toLane (laneWidth t) (laneInt t a).natAbs

/-- `VNEG` (R348). -/
def laneNeg (t a : Nat) : Nat :=
  if laneFloat t then
    if ((fmtOf t).decode a).isNan then (fmtOf t).nan else Nat.xor a (2 ^ (laneWidth t - 1))
  else toLane (laneWidth t) (-(laneInt t a))

/-- `VSRA` (R348): copies of bit w − 1 in, in every type. -/
def laneSra (t a b : Nat) : Nat := toLane (laneWidth t) (signed (laneWidth t) a / 2 ^ (b % laneWidth t))

/-- The fused multiply-adds (R348, R350): round(a × b + c), or modulo 2^w. -/
def laneFma (t rm a b c : Nat) : Nat × Nat :=
  laneOp t (fun f => f.fma rm (f.decode a) (f.decode b) (f.decode c)) (laneInt t a * laneInt t b + laneInt t c)

/-- round(a × b − c). -/
def laneFms (t rm a b c : Nat) : Nat × Nat :=
  laneOp t (fun f => f.fma rm (f.decode a) (f.decode b) (f.decode c).neg) (laneInt t a * laneInt t b - laneInt t c)

/-- round(c − a × b): the product with its sign inverted is the first operand. -/
def laneFnma (t rm a b c : Nat) : Nat × Nat :=
  laneOp t (fun f => f.fma rm (f.decode a).neg (f.decode b) (f.decode c)) (laneInt t c - laneInt t a * laneInt t b)

/-- A lane operation that raises no flag. -/
def quiet (v : Nat) : Nat × Nat := (v, 0)

/-- The 16-bit form (R292, R293, R348): a is vd, b is vs, the lane type is `cr.status.ltype`.  `k` is the lane of `v15`. -/
def compact16 (i : Instr) (m : BitVec 3) (s d : BitVec 4) (shift : Bool) (f : Nat → Nat → Nat → Nat → Nat → Nat × Nat)
    (st : State) : Host.Outcome State Fault Refusal :=
  vissue { len := 2 } i (fun w => !(shift && laneFloat (statusLtype w))) (fun v x =>
    let t := statusLtype v.status
    let w := laneWidth t
    let a := x.c.vreg d.toNat
    let b := x.c.vreg s.toNat
    let k := x.c.vreg 15
    x.writeLanes t (x.c.mask m.toNat) (d.setWidth 5) fun j =>
      f t (statusRm v.status) (lane a w j) (lane b w j) (lane k w j)) st

/-- The 32-bit form with two sources (R303, R348). -/
def compact32 (i : Instr) (t m : BitVec 3) (b a d : BitVec 5) (f : Nat → Nat → Nat → Nat → Nat → Nat × Nat)
    (st : State) : Host.Outcome State Fault Refusal :=
  vissue { dest := some d } i (fun _ => true) (fun v x => do
    let w := laneWidth t.toNat
    let (va, vb, x) ← x.readVV a b
    let k := x.c.vreg 15
    x.writeLanes t.toNat (x.c.mask m.toNat) d fun j =>
      f t.toNat (statusRm v.status) (lane va w j) (lane vb w j) (lane k w j)) st

/-- An operation with one vector source (R303, R348, R352). -/
def unary32 (i : Instr) (t m : BitVec 3) (a d : BitVec 5) (f : Nat → Nat → Nat × Nat)
    (st : State) : Host.Outcome State Fault Refusal :=
  vissue { dest := some d } i (fun _ => true) (fun _ x => do
    let w := laneWidth t.toNat
    let (va, x) ← x.readV a
    x.writeLanes t.toNat (x.c.mask m.toNat) d fun j => f t.toNat (lane va w j)) st

/-- `VADD`, 16-bit form (R292, R348). -/
def execVadd16 (m : BitVec 3) (s d : BitVec 4) (st : State) : Host.Outcome State Fault Refusal :=
  compact16 (.vadd16 m s d) m s d false (fun t rm a b _ => laneAdd t rm a b) st

/-- `VSUB`, 16-bit form (R292, R348). -/
def execVsub16 (m : BitVec 3) (s d : BitVec 4) (st : State) : Host.Outcome State Fault Refusal :=
  compact16 (.vsub16 m s d) m s d false (fun t rm a b _ => laneSub t rm a b) st

/-- `VRSUB`, 16-bit form (R292, R348). -/
def execVrsub16 (m : BitVec 3) (s d : BitVec 4) (st : State) : Host.Outcome State Fault Refusal :=
  compact16 (.vrsub16 m s d) m s d false (fun t rm a b _ => laneSub t rm b a) st

/-- `VMUL`, 16-bit form (R292, R348). -/
def execVmul16 (m : BitVec 3) (s d : BitVec 4) (st : State) : Host.Outcome State Fault Refusal :=
  compact16 (.vmul16 m s d) m s d false (fun t rm a b _ => laneMul t rm a b) st

/-- `VMIN`, 16-bit form (R292, R348). -/
def execVmin16 (m : BitVec 3) (s d : BitVec 4) (st : State) : Host.Outcome State Fault Refusal :=
  compact16 (.vmin16 m s d) m s d false (fun t _ a b _ => quiet (laneMin t a b)) st

/-- `VMAX`, 16-bit form (R292, R348). -/
def execVmax16 (m : BitVec 3) (s d : BitVec 4) (st : State) : Host.Outcome State Fault Refusal :=
  compact16 (.vmax16 m s d) m s d false (fun t _ a b _ => quiet (laneMax t a b)) st

/-- `VAND`, 16-bit form (R292, R348). -/
def execVand16 (m : BitVec 3) (s d : BitVec 4) (st : State) : Host.Outcome State Fault Refusal :=
  compact16 (.vand16 m s d) m s d false (fun _ _ a b _ => quiet (Nat.land a b)) st

/-- `VOR`, 16-bit form (R292, R348). -/
def execVor16 (m : BitVec 3) (s d : BitVec 4) (st : State) : Host.Outcome State Fault Refusal :=
  compact16 (.vor16 m s d) m s d false (fun _ _ a b _ => quiet (Nat.lor a b)) st

/-- `VXOR`, 16-bit form (R292, R348). -/
def execVxor16 (m : BitVec 3) (s d : BitVec 4) (st : State) : Host.Outcome State Fault Refusal :=
  compact16 (.vxor16 m s d) m s d false (fun _ _ a b _ => quiet (Nat.xor a b)) st

/-- `VMOV`, 16-bit form (R292, R348). -/
def execVmov16 (m : BitVec 3) (s d : BitVec 4) (st : State) : Host.Outcome State Fault Refusal :=
  compact16 (.vmov16 m s d) m s d false (fun _ _ _ b _ => quiet b) st

/-- `VABS`, 16-bit form (R292, R348). -/
def execVabs16 (m : BitVec 3) (s d : BitVec 4) (st : State) : Host.Outcome State Fault Refusal :=
  compact16 (.vabs16 m s d) m s d false (fun t _ _ b _ => quiet (laneAbs t b)) st

/-- `VNEG`, 16-bit form (R292, R348). -/
def execVneg16 (m : BitVec 3) (s d : BitVec 4) (st : State) : Host.Outcome State Fault Refusal :=
  compact16 (.vneg16 m s d) m s d false (fun t _ _ b _ => quiet (laneNeg t b)) st

/-- `VSHL`, 16-bit form (R292, R348). -/
def execVshl16 (m : BitVec 3) (s d : BitVec 4) (st : State) : Host.Outcome State Fault Refusal :=
  compact16 (.vshl16 m s d) m s d true (fun t _ a b _ => quiet (a * 2 ^ (b % laneWidth t))) st

/-- `VSHR`, 16-bit form (R292, R348). -/
def execVshr16 (m : BitVec 3) (s d : BitVec 4) (st : State) : Host.Outcome State Fault Refusal :=
  compact16 (.vshr16 m s d) m s d true (fun t _ a b _ => quiet (a / 2 ^ (b % laneWidth t))) st

/-- `VSRA`, 16-bit form (R292, R348). -/
def execVsra16 (m : BitVec 3) (s d : BitVec 4) (st : State) : Host.Outcome State Fault Refusal :=
  compact16 (.vsra16 m s d) m s d true (fun t _ a b _ => quiet (laneSra t a b)) st

/-- `VFMAK`, 16-bit form (R292, R348). -/
def execVfmak16 (m : BitVec 3) (s d : BitVec 4) (st : State) : Host.Outcome State Fault Refusal :=
  compact16 (.vfmak16 m s d) m s d false (fun t rm a b k => laneFma t rm b k a) st

/-- `VADD`, 32-bit form (R303, R348). -/
def execVadd32 (t m : BitVec 3) (b a d : BitVec 5) (st : State) : Host.Outcome State Fault Refusal :=
  compact32 (.vadd32 t m b a d) t m b a d (fun t rm a b _ => laneAdd t rm a b) st

/-- `VSUB`, 32-bit form (R303, R348). -/
def execVsub32 (t m : BitVec 3) (b a d : BitVec 5) (st : State) : Host.Outcome State Fault Refusal :=
  compact32 (.vsub32 t m b a d) t m b a d (fun t rm a b _ => laneSub t rm a b) st

/-- `VRSUB`, 32-bit form (R303, R348). -/
def execVrsub32 (t m : BitVec 3) (b a d : BitVec 5) (st : State) : Host.Outcome State Fault Refusal :=
  compact32 (.vrsub32 t m b a d) t m b a d (fun t rm a b _ => laneSub t rm b a) st

/-- `VMUL`, 32-bit form (R303, R348). -/
def execVmul32 (t m : BitVec 3) (b a d : BitVec 5) (st : State) : Host.Outcome State Fault Refusal :=
  compact32 (.vmul32 t m b a d) t m b a d (fun t rm a b _ => laneMul t rm a b) st

/-- `VMIN`, 32-bit form (R303, R348). -/
def execVmin32 (t m : BitVec 3) (b a d : BitVec 5) (st : State) : Host.Outcome State Fault Refusal :=
  compact32 (.vmin32 t m b a d) t m b a d (fun t _ a b _ => quiet (laneMin t a b)) st

/-- `VMAX`, 32-bit form (R303, R348). -/
def execVmax32 (t m : BitVec 3) (b a d : BitVec 5) (st : State) : Host.Outcome State Fault Refusal :=
  compact32 (.vmax32 t m b a d) t m b a d (fun t _ a b _ => quiet (laneMax t a b)) st

/-- `VAND`, 32-bit form (R303, R348). -/
def execVand32 (t m : BitVec 3) (b a d : BitVec 5) (st : State) : Host.Outcome State Fault Refusal :=
  compact32 (.vand32 t m b a d) t m b a d (fun _ _ a b _ => quiet (Nat.land a b)) st

/-- `VOR`, 32-bit form (R303, R348). -/
def execVor32 (t m : BitVec 3) (b a d : BitVec 5) (st : State) : Host.Outcome State Fault Refusal :=
  compact32 (.vor32 t m b a d) t m b a d (fun _ _ a b _ => quiet (Nat.lor a b)) st

/-- `VXOR`, 32-bit form (R303, R348). -/
def execVxor32 (t m : BitVec 3) (b a d : BitVec 5) (st : State) : Host.Outcome State Fault Refusal :=
  compact32 (.vxor32 t m b a d) t m b a d (fun _ _ a b _ => quiet (Nat.xor a b)) st

/-- `VMOV`, 32-bit form (R303, R348). -/
def execVmov32 (t m : BitVec 3) (a d : BitVec 5) (st : State) : Host.Outcome State Fault Refusal :=
  unary32 (.vmov32 t m a d) t m a d (fun _ a => quiet a) st

/-- `VABS`, 32-bit form (R303, R348). -/
def execVabs32 (t m : BitVec 3) (a d : BitVec 5) (st : State) : Host.Outcome State Fault Refusal :=
  unary32 (.vabs32 t m a d) t m a d (fun t a => quiet (laneAbs t a)) st

/-- `VNEG`, 32-bit form (R303, R348). -/
def execVneg32 (t m : BitVec 3) (a d : BitVec 5) (st : State) : Host.Outcome State Fault Refusal :=
  unary32 (.vneg32 t m a d) t m a d (fun t a => quiet (laneNeg t a)) st

/-- `VSHL`, 32-bit form (R303, R348). -/
def execVshl32 (t m : BitVec 3) (b a d : BitVec 5) (st : State) : Host.Outcome State Fault Refusal :=
  compact32 (.vshl32 t m b a d) t m b a d (fun t _ a b _ => quiet (a * 2 ^ (b % laneWidth t))) st

/-- `VSHR`, 32-bit form (R303, R348). -/
def execVshr32 (t m : BitVec 3) (b a d : BitVec 5) (st : State) : Host.Outcome State Fault Refusal :=
  compact32 (.vshr32 t m b a d) t m b a d (fun t _ a b _ => quiet (a / 2 ^ (b % laneWidth t))) st

/-- `VSRA`, 32-bit form (R303, R348). -/
def execVsra32 (t m : BitVec 3) (b a d : BitVec 5) (st : State) : Host.Outcome State Fault Refusal :=
  compact32 (.vsra32 t m b a d) t m b a d (fun t _ a b _ => quiet (laneSra t a b)) st

/-- `VFMAK`, 32-bit form (R303, R348). -/
def execVfmak32 (t m : BitVec 3) (b a d : BitVec 5) (st : State) : Host.Outcome State Fault Refusal :=
  compact32 (.vfmak32 t m b a d) t m b a d (fun t rm a b k => laneFma t rm b k a) st

/-! ## Fused multiply-adds (R350) -/

/-- Three sources, of which the third is a register (R296). -/
def fused (i : Instr) (t m : BitVec 3) (c : BitVec 4) (b a d : BitVec 5)
    (f : Nat → Nat → Nat → Nat → Nat → Nat × Nat) (st : State) : Host.Outcome State Fault Refusal :=
  vissue { dest := some d } i (fun _ => true) (fun v x => do
    let w := laneWidth t.toNat
    let (va, vb, x) ← x.readVV a b
    let vc := x.c.vreg c.toNat
    x.writeLanes t.toNat (x.c.mask m.toNat) d fun j =>
      f t.toNat (statusRm v.status) (lane va w j) (lane vb w j) (lane vc w j)) st

/-- `VFMA` (R350). -/
def execVfma (t m : BitVec 3) (c : BitVec 4) (b a d : BitVec 5) (st : State) : Host.Outcome State Fault Refusal :=
  fused (.vfma t m c b a d) t m c b a d laneFma st

/-- `VFMS` (R350). -/
def execVfms (t m : BitVec 3) (c : BitVec 4) (b a d : BitVec 5) (st : State) : Host.Outcome State Fault Refusal :=
  fused (.vfms t m c b a d) t m c b a d laneFms st

/-- `VFNMA` (R350). -/
def execVfnma (t m : BitVec 3) (c : BitVec 4) (b a d : BitVec 5) (st : State) : Host.Outcome State Fault Refusal :=
  fused (.vfnma t m c b a d) t m c b a d laneFnma st

/-! ## Compares (R351) -/

/-- The comparison that a condition code names (R184, R303, R351). -/
def laneCompare (c t a b : Nat) : Bool :=
  let fa := (fmtOf t).decode a
  let fb := (fmtOf t).decode b
  let lt := if laneFloat t then fa.lt fb else decide (laneInt t a < laneInt t b)
  let gt := if laneFloat t then fb.lt fa else decide (laneInt t b < laneInt t a)
  let eq := if laneFloat t then fa.eq fb else decide (laneInt t a = laneInt t b)
  match c with
  | 0 => eq
  | 1 => !eq
  | 2 => lt
  | 3 => lt || eq
  | 4 => gt
  | _ => gt || eq

/-- Bits of a mask from a predicate on lanes below `n`. -/
def maskOf (n : Nat) (p : Nat → Bool) : Word :=
  BitVec.ofNat 64 ((List.range n).foldl (fun a j => if p j then a + 2 ^ j else a) 0)

/-- `VCMP` (R351). -/
def execVcmp (t m : BitVec 3) (c : BitVec 4) (b a d : BitVec 5) (st : State) : Host.Outcome State Fault Refusal :=
  vissue {} (.vcmp t m c b a d) (fun _ => true) (fun _ x => do
    let w := laneWidth t.toNat
    let (va, vb, x) ← x.readVV a b
    let mask := x.c.mask m.toNat
    .ok { x with c := x.c.setM d.toNat (maskOf (laneCount t.toNat) fun j =>
      enabled mask j && laneCompare c.toNat t.toNat (lane va w j) (lane vb w j)) }) st

/-! ## Unary operations (R352, R353) -/

/-- `VNOT`: raw lane bits, in every type. -/
def execVnot (t m : BitVec 3) (a d : BitVec 5) (st : State) : Host.Outcome State Fault Refusal :=
  unary32 (.vnot t m a d) t m a d (fun t a => quiet (2 ^ laneWidth t - 1 - a)) st

/-- `VEXP2` (R200, R201). -/
def execVexp2 (t m : BitVec 3) (a d : BitVec 5) (st : State) : Host.Outcome State Fault Refusal :=
  unary32 (.vexp2 t m a d) t m a d (transc exp2Raw) st

/-- `VLOG2` (R200, R202). -/
def execVlog2 (t m : BitVec 3) (a d : BitVec 5) (st : State) : Host.Outcome State Fault Refusal :=
  unary32 (.vlog2 t m a d) t m a d (transc log2Raw) st

/-- `VRCP` (R200, R203). -/
def execVrcp (t m : BitVec 3) (a d : BitVec 5) (st : State) : Host.Outcome State Fault Refusal :=
  unary32 (.vrcp t m a d) t m a d (transc rcpRaw) st

/-- `VRSQ` (R200, R204). -/
def execVrsq (t m : BitVec 3) (a d : BitVec 5) (st : State) : Host.Outcome State Fault Refusal :=
  unary32 (.vrsq t m a d) t m a d (transc rsqRaw) st

/-- `VIOTA`: lane j := j, exactly. -/
def execViota (t m : BitVec 3) (d : BitVec 5) (st : State) : Host.Outcome State Fault Refusal :=
  vissue { dest := some d } (.viota t m d) (fun _ => true) (fun _ x =>
    x.writeLanes t.toNat (x.c.mask m.toNat) d fun j =>
      quiet (if laneFloat t.toNat then (fmtOf t.toNat).rne (.fin false j 0) else j)) st

/-- The conversion of a lane (R191, R353). DEDUCED (26). -/
def convert (dt st rm a : Nat) : Nat × Nat :=
  let (lo, hi) := typeRange dt
  if laneFloat dt then
    if laneFloat st then (fmtOf dt).round rm ((fmtOf st).decode a)
    else
      let v := laneInt st a
      (fmtOf dt).roundTo rm (decide (v < 0)) v.natAbs 0 false
  else if laneFloat st then
    match (fmtOf st).decode a with
    | .nan => (0, flagNv)
    | .inf neg => (toLane (laneWidth dt) (if neg then lo else hi), flagNv)
    | .fin neg m e =>
      let (v, nx) := roundInt rm neg m e
      let c := clampInt lo hi v
      (toLane (laneWidth dt) c, (if c = v then 0 else flagNv) ||| (if nx then flagNx else 0))
  else
    let v := laneInt st a
    let c := clampInt lo hi v
    (toLane (laneWidth dt) c, if c = v then 0 else flagNv)

/-- `VCVT` (R353): lane j converts to lane j; between widths, lanes 0 to 31. -/
def execVcvt (t m s : BitVec 3) (a d : BitVec 5) (st : State) : Host.Outcome State Fault Refusal :=
  vissue { dest := some d } (.vcvt t m s a d) (fun _ => true) (fun v x => do
    let (va, x) ← x.readV a
    let n := Nat.min (laneCount t.toNat) (laneCount s.toNat)
    let (r, fl) := laneResults (laneWidth t.toNat) n (x.c.mask m.toNat) (x.c.prior d) fun j =>
      convert t.toNat s.toNat (statusRm v.status) (lane va (laneWidth s.toNat) j)
    ({ x with c := x.c.raiseFlags fl }).writeV d r) st

/-! ## Lane structure (R354 to R356) -/

/-- `VSEL`: every lane is written. -/
def execVsel (t m : BitVec 3) (b a d : BitVec 5) (st : State) : Host.Outcome State Fault Refusal :=
  vissue { dest := some d } (.vsel t m b a d) (fun _ => true) (fun _ x => do
    let w := laneWidth t.toNat
    let (va, vb, x) ← x.readVV a b
    let mask := x.c.mask m.toNat
    x.writeLanes t.toNat (BitVec.allOnes 64) d fun j => quiet (if enabled mask j then lane va w j else lane vb w j)) st

/-- `VPERM`: the low log₂N bits of each lane of vb select a lane of va. -/
def execVperm (t m : BitVec 3) (b a d : BitVec 5) (st : State) : Host.Outcome State Fault Refusal :=
  vissue { dest := some d } (.vperm t m b a d) (fun _ => true) (fun _ x => do
    let w := laneWidth t.toNat
    let (va, vb, x) ← x.readVV a b
    x.writeLanes t.toNat (x.c.mask m.toNat) d fun j => quiet (lane va w (lane vb w j % laneCount t.toNat))) st

/-- `VSLIDE.up`: zeros below the distance. -/
def execVslideUp (t m : BitVec 3) (b a d : BitVec 5) (st : State) : Host.Outcome State Fault Refusal :=
  vissue { ops := [b], dest := some d } (.vslideUp t m b a d) (fun _ => true) (fun v x => do
    let w := laneWidth t.toNat
    let (va, x) ← x.readV a
    x.writeLanes t.toNat (x.c.mask m.toNat) d fun j =>
      quiet (if v.x.toNat ≤ j then lane va w (j - v.x.toNat) else 0)) st

/-- `VSLIDE.dn`: zeros from N − d up. -/
def execVslideDn (t m : BitVec 3) (b a d : BitVec 5) (st : State) : Host.Outcome State Fault Refusal :=
  vissue { ops := [b], dest := some d } (.vslideDn t m b a d) (fun _ => true) (fun v x => do
    let w := laneWidth t.toNat
    let (va, x) ← x.readV a
    x.writeLanes t.toNat (x.c.mask m.toNat) d fun j =>
      quiet (if j + v.x.toNat < laneCount t.toNat then lane va w (j + v.x.toNat) else 0)) st

/-- `VCOMPRESS`: the enabled lanes in ascending order, then zeros. -/
def execVcompress (t m : BitVec 3) (a d : BitVec 5) (st : State) : Host.Outcome State Fault Refusal :=
  vissue { dest := some d } (.vcompress t m a d) (fun _ => true) (fun _ x => do
    let w := laneWidth t.toNat
    let (va, x) ← x.readV a
    let mask := x.c.mask m.toNat
    let kept := ((List.range (laneCount t.toNat)).filter (enabled mask)).map (lane va w)
    x.writeV d (ofLanes w kept)) st

/-- sgn(b) × a (R356). -/
def signTimes (b a : Int) : Int := if 0 < b then a else if b < 0 then -a else 0

/-- `VADDS` (R356): in `.i32`, two 16-bit pairs feed each lane. -/
def execVadds (t m : BitVec 3) (b a d : BitVec 5) (st : State) : Host.Outcome State Fault Refusal :=
  vissue { dest := some d } (.vadds t m b a d) (fun _ => true) (fun _ x => do
    let (va, vb, x) ← x.readVV a b
    let old := x.c.prior d
    let half (v : Vec) (j : Nat) : Int := signed 16 (lane v 16 j)
    x.writeLanes t.toNat (x.c.mask m.toNat) d fun j =>
      if t.toNat = 4 then quiet (toLane 16 (half old j + signTimes (half vb j) (half va j)))
      else quiet (toLane 32 (signed 32 (lane old 32 j) + signTimes (half vb (2 * j)) (half va (2 * j)) +
        signTimes (half vb (2 * j + 1)) (half va (2 * j + 1))))) st

/-- The running value of a prefix over enabled lanes (R355): the lanes from `j` on, with their results. -/
def scanFrom (op : Nat → Nat → Nat × Nat) (first : Nat → Nat) (v : Vec) (w : Nat) (mask : Word) :
    Option Nat → List Nat → List (Option (Nat × Nat))
  | _, [] => []
  | s, j :: js =>
    if enabled mask j then
      let r := match s with
        | none => (first (lane v w j), 0)
        | some s => op s (lane v w j)
      some r :: scanFrom op first v w mask (some r.1) js
    else none :: scanFrom op first v w mask s js

/-- A lane taken as it is; a NaN becomes the canonical NaN (R355, R357). -/
def canonical (t a : Nat) : Nat := if laneFloat t && ((fmtOf t).decode a).isNan then (fmtOf t).nan else a

/-- `VSCANP` (R355). -/
def scanPrefix (i : Instr) (t m : BitVec 3) (a d : BitVec 5) (op : Nat → Nat → Nat → Nat → Nat × Nat) (st : State) :
    Host.Outcome State Fault Refusal :=
  vissue { dest := some d } i (fun _ => true) (fun v x => do
    let w := laneWidth t.toNat
    let (va, x) ← x.readV a
    let mask := x.c.mask m.toNat
    let r := scanFrom (op t.toNat (statusRm v.status)) (canonical t.toNat) va w mask none (List.range (laneCount t.toNat))
    x.writeLanes t.toNat mask d fun j => (r.getD j none).getD (0, 0)) st

/-- `VSCANP.add`. -/
def execVscanpAdd (t m : BitVec 3) (a d : BitVec 5) (st : State) : Host.Outcome State Fault Refusal :=
  scanPrefix (.vscanpAdd t m a d) t m a d laneAdd st

/-- `VSCANP.min`. -/
def execVscanpMin (t m : BitVec 3) (a d : BitVec 5) (st : State) : Host.Outcome State Fault Refusal :=
  scanPrefix (.vscanpMin t m a d) t m a d (fun t _ a b => quiet (laneMin t a b)) st

/-- `VSCANP.max`. -/
def execVscanpMax (t m : BitVec 3) (a d : BitVec 5) (st : State) : Host.Outcome State Fault Refusal :=
  scanPrefix (.vscanpMax t m a d) t m a d (fun t _ a b => quiet (laneMax t a b)) st

/-! ## Reductions (R357, R358) -/

/-- The enabled lanes, in ascending order. -/
def enabledLanes (t : Nat) (v : Vec) (mask : Word) : List Nat :=
  ((List.range (laneCount t)).filter (enabled mask)).map (lane v (laneWidth t))

/-- A floating lane widened exactly to f32 (R357). -/
def widen (t a : Nat) : Nat := f32.rne ((fmtOf t).decode a)

/-- `VRED.add` of floating lanes: the first exactly, each later one added and rounded to f32 in rm. -/
def reduceAddF (rm : Nat) : List Nat → Nat × Nat
  | [] => (0, 0)
  | a :: l => l.foldl (fun s b =>
      let (r, fl) := f32.add rm (f32.decode s.1) (f32.decode b)
      (r, s.2 ||| fl)) (a, 0)

/-- An integer lane extended to 64 bits (R357). -/
def extended (t a : Nat) : Int := laneInt t a

/-- A reduction to a register or a scalar queue (R357). -/
def reduce (i : Instr) (t m : BitVec 3) (q : BitVec 1) (a d : BitVec 5) (f : Nat → Nat → List Nat → Word × Nat)
    (st : State) : Host.Outcome State Fault Refusal :=
  vissue { writes := if q = 1 then none else some d, pushes := namesQueue q d } i (fun _ => true) (fun v x => do
    let (va, x) ← x.readV a
    let (r, fl) := f t.toNat (statusRm v.status) (enabledLanes t.toNat va (x.c.mask m.toNat))
    ({ x with c := x.c.raiseFlags fl }).writeVS q d r) st

/-- `VRED.add`. -/
def redAdd (t rm : Nat) (l : List Nat) : Word × Nat :=
  if laneFloat t then
    let (r, fl) := reduceAddF rm (l.map fun a => widen t a)
    (BitVec.ofNat 64 r, fl)
  else (BitVec.ofInt 64 ((l.map (extended t)).sum), 0)

/-- `VRED.min` and `VRED.max`: with no enabled lane, the identity of the operation (R357). -/
def redExtreme (big : Bool) (t : Nat) (l : List Nat) : Word × Nat :=
  if laneFloat t then
    match l.map (widen t) with
    | [] => (BitVec.ofNat 64 (f32.inf big), 0)
    | a :: l => (BitVec.ofNat 64 (l.foldl (fun s b => if big then f32.maxOf s b else f32.min s b) (canonical 0 a)), 0)
  else
    let (lo, hi) := typeRange t
    match l with
    | [] => (BitVec.ofInt 64 (if big then lo else hi), 0)
    | a :: l => (BitVec.ofInt 64 (extended t (l.foldl (fun s b => if big then laneMax t s b else laneMin t s b) a)), 0)

/-- `VRED.and`, `.or`, `.xor`: raw lane bits, then zero-extended (R357). -/
def redBits (f : Nat → Nat → Nat) (none : Nat) (l : List Nat) : Word × Nat := (BitVec.ofNat 64 (l.foldl f none), 0)

/-- `VRED.add` (R357). -/
def execVredAdd (t m : BitVec 3) (q : BitVec 1) (a d : BitVec 5) (st : State) : Host.Outcome State Fault Refusal :=
  reduce (.vredAdd t m q a d) t m q a d redAdd st

/-- `VRED.min` (R357). -/
def execVredMin (t m : BitVec 3) (q : BitVec 1) (a d : BitVec 5) (st : State) : Host.Outcome State Fault Refusal :=
  reduce (.vredMin t m q a d) t m q a d (fun t _ l => redExtreme false t l) st

/-- `VRED.max` (R357). -/
def execVredMax (t m : BitVec 3) (q : BitVec 1) (a d : BitVec 5) (st : State) : Host.Outcome State Fault Refusal :=
  reduce (.vredMax t m q a d) t m q a d (fun t _ l => redExtreme true t l) st

/-- `VRED.and` (R357). -/
def execVredAnd (t m : BitVec 3) (q : BitVec 1) (a d : BitVec 5) (st : State) : Host.Outcome State Fault Refusal :=
  reduce (.vredAnd t m q a d) t m q a d (fun t _ l => redBits Nat.land (2 ^ laneWidth t - 1) l) st

/-- `VRED.or` (R357). -/
def execVredOr (t m : BitVec 3) (q : BitVec 1) (a d : BitVec 5) (st : State) : Host.Outcome State Fault Refusal :=
  reduce (.vredOr t m q a d) t m q a d (fun _ _ l => redBits Nat.lor 0 l) st

/-- `VRED.xor` (R357). -/
def execVredXor (t m : BitVec 3) (q : BitVec 1) (a d : BitVec 5) (st : State) : Host.Outcome State Fault Refusal :=
  reduce (.vredXor t m q a d) t m q a d (fun _ _ l => redBits Nat.xor 0 l) st

/-- `VDOT` (R358). -/
def redDot (t rm : Nat) (ps : List (Nat × Nat)) : Word × Nat :=
  if laneFloat t then
    let f := fmtOf t
    let (v, fl) := dotSum (ps.map fun p => (f.decode p.1).mul (f.decode p.2))
    let (r, fl') := f32.round rm v
    (BitVec.ofNat 64 r, fl ||| fl')
  else (BitVec.ofInt 64 ((ps.map fun p => extended t p.1 * extended t p.2).sum), 0)

/-- `VDOT` (R358). -/
def execVdot (t m : BitVec 3) (q : BitVec 1) (b a d : BitVec 5) (st : State) : Host.Outcome State Fault Refusal :=
  vissue { writes := if q = 1 then none else some d, pushes := namesQueue q d } (.vdot t m q b a d) (fun _ => true)
    (fun v x => do
      let (va, vb, x) ← x.readVV a b
      let mask := x.c.mask m.toNat
      let (r, fl) := redDot t.toNat (statusRm v.status)
        ((enabledLanes t.toNat va mask).zip (enabledLanes t.toNat vb mask))
      ({ x with c := x.c.raiseFlags fl }).writeVS q d r) st

/-! ## Moves between the streams (R359) -/

/-- `VBCAST`: every lane. -/
def execVbcast (t : BitVec 3) (a d : BitVec 5) (st : State) : Host.Outcome State Fault Refusal :=
  vissue { ops := [a], dest := some d } (.vbcast t a d) (fun _ => true) (fun v x =>
    x.writeLanes t.toNat (BitVec.allOnes 64) d fun _ => quiet (v.x.toNat % 2 ^ laneWidth t.toNat)) st

/-- `VINS`: lane (sb mod N). -/
def execVins (t : BitVec 3) (b a d : BitVec 5) (st : State) : Host.Outcome State Fault Refusal :=
  vissue { ops := [a, b], dest := some d } (.vins t b a d) (fun _ => true) (fun v x =>
    x.writeLanes t.toNat (BitVec.ofNat 64 (2 ^ (v.y.toNat % laneCount t.toNat))) d fun _ =>
      quiet (v.x.toNat % 2 ^ laneWidth t.toNat)) st

/-- `VEXT`: sign-extended for `.i`, zero-extended otherwise. -/
def execVext (t : BitVec 3) (b a d : BitVec 5) (st : State) : Host.Outcome State Fault Refusal :=
  vissue { ops := [b], writes := some d } (.vext t b a d) (fun _ => true) (fun v x => do
    let (va, x) ← x.readV a
    let r := lane va (laneWidth t.toNat) (v.x.toNat % laneCount t.toNat)
    .ok { x with c := x.c.setS d (BitVec.ofInt 64 (if laneSigned t.toNat then signed (laneWidth t.toNat) r else r)) }) st

/-! ## UNPK (R197, R360, R361) -/

/-- Trit `k` of a T5 byte as an int16 lane (R197); a byte that is no code gives 0 (R361). -/
def trit (x : Nat) (k : Nat) : Nat :=
  let d := x / 3 ^ k % 3
  if 243 ≤ x then 0 else if d = 0 then 0 else if d = 1 then 1 else 0xFFFF

/-- An `UNPK`: `n` lanes from lane8 × 8 up (R360). -/
def unpack (i : Instr) (l : BitVec 3) (a d : BitVec 5) (n : Nat) (f : Nat → Nat → Nat) (t5 : Bool) (st : State) :
    Host.Outcome State Fault Refusal :=
  vissue { ops := [a], dest := some d } i (fun _ => true) (fun v x =>
    let first := l.toNat * 8
    let mask : Word := BitVec.ofNat 64 ((2 ^ n - 1) * 2 ^ first)
    let bad := (List.range 8).find? fun b => decide (243 ≤ (byteOf v.x.toNat b).toNat)
    let x := match t5, bad with
      | true, some p => { x with c := x.c.setStatus (statusTx x.c.regs.status p) }
      | _, _ => x
    x.writeLanes 4 mask d fun j => quiet (f v.x.toNat (j - first))) st

/-- `UNPK.t5` (R197, R360, R361). -/
def execUnpkT5 (l : BitVec 3) (a d : BitVec 5) (st : State) : Host.Outcome State Fault Refusal :=
  unpack (.unpkT5 l a d) l a d 40 (fun v i => trit (byteOf v (i / 5)).toNat (i % 5)) true st

/-- `UNPK.i8`. -/
def execUnpkI8 (l : BitVec 3) (a d : BitVec 5) (st : State) : Host.Outcome State Fault Refusal :=
  unpack (.unpkI8 l a d) l a d 8 (fun v i => toLane 16 (signed 8 (byteOf v i).toNat)) false st

/-- `UNPK.n8`. -/
def execUnpkN8 (l : BitVec 3) (a d : BitVec 5) (st : State) : Host.Outcome State Fault Refusal :=
  unpack (.unpkN8 l a d) l a d 8 (fun v i => (byteOf v i).toNat) false st

/-- `UNPK.i4`. -/
def execUnpkI4 (l : BitVec 3) (a d : BitVec 5) (st : State) : Host.Outcome State Fault Refusal :=
  unpack (.unpkI4 l a d) l a d 16 (fun v i => toLane 16 (signed 4 (v / 16 ^ i % 16))) false st

/-- `UNPK.n4`. -/
def execUnpkN4 (l : BitVec 3) (a d : BitVec 5) (st : State) : Host.Outcome State Fault Refusal :=
  unpack (.unpkN4 l a d) l a d 16 (fun v i => v / 16 ^ i % 16) false st

/-! ## Masks and VTYPE (R362, R363) -/

/-- A mask operation: all 64 bits. -/
def maskOp (i : Instr) (b a d : BitVec 5) (f : Word → Word → Word) (st : State) : Host.Outcome State Fault Refusal :=
  vissue {} i (fun _ => true) (fun _ x =>
    .ok { x with c := x.c.setM d.toNat (f (x.c.mask a.toNat) (x.c.mask b.toNat)) }) st

/-- `MAND`. -/
def execMand (b a d : BitVec 5) (st : State) : Host.Outcome State Fault Refusal :=
  maskOp (.mand b a d) b a d (fun u v => u &&& v) st

/-- `MOR`. -/
def execMor (b a d : BitVec 5) (st : State) : Host.Outcome State Fault Refusal :=
  maskOp (.mor b a d) b a d (fun u v => u ||| v) st

/-- `MXOR`. -/
def execMxor (b a d : BitVec 5) (st : State) : Host.Outcome State Fault Refusal :=
  maskOp (.mxor b a d) b a d (fun u v => u ^^^ v) st

/-- `MNOT`. -/
def execMnot (a d : BitVec 5) (st : State) : Host.Outcome State Fault Refusal :=
  maskOp (.mnot a d) a a d (fun u _ => ~~~u) st

/-- `MPOP`: among bits N − 1:0. -/
def execMpop (t : BitVec 3) (a d : BitVec 5) (st : State) : Host.Outcome State Fault Refusal :=
  vissue { writes := some d } (.mpop t a d) (fun _ => true) (fun _ x =>
    let m := x.c.mask a.toNat
    .ok { x with c := x.c.setS d (BitVec.ofNat 64 ((List.range (laneCount t.toNat)).filter (enabled m)).length) }) st

/-- `VTYPE` (R293, R363): it takes effect at its place in program order. -/
def execVtype (t : BitVec 3) (st : State) : Host.Outcome State Fault Refusal :=
  issueOn { meets := .beside [] none } (.vtype t)
    (fun x => .ok ({ x with c := x.c.setStatus (setField x.c.regs.status 2 3 t.toNat) }.next 4)) st

end Sys2Proof.Machine
end

