-- ==== Sys2Proof/Machine/Dispatch.lean ====
section
/-! DEFINITION. One arm for each constructor of `Instr`: a direct call of its meaning. -/

namespace Sys2Proof.Machine

/-- The meaning of an instruction or event. -/
def exec (i : Instr) (s : State) : Host.Outcome State Fault Refusal :=
  match i with
  | .add z y x b a d => Sys2Proof.Machine.execAdd z y x b a d s
  | .sub z y x b a d => Sys2Proof.Machine.execSub z y x b a d s
  | .and z y x b a d => Sys2Proof.Machine.execAnd z y x b a d s
  | .or z y x b a d => Sys2Proof.Machine.execOr z y x b a d s
  | .xor z y x b a d => Sys2Proof.Machine.execXor z y x b a d s
  | .andn z y x b a d => Sys2Proof.Machine.execAndn z y x b a d s
  | .shl z y x b a d => Sys2Proof.Machine.execShl z y x b a d s
  | .shr z y x b a d => Sys2Proof.Machine.execShr z y x b a d s
  | .sra z y x b a d => Sys2Proof.Machine.execSra z y x b a d s
  | .mul z y x b a d => Sys2Proof.Machine.execMul z y x b a d s
  | .mulh z y x b a d => Sys2Proof.Machine.execMulh z y x b a d s
  | .mulhn z y x b a d => Sys2Proof.Machine.execMulhn z y x b a d s
  | .div z y x b a d => Sys2Proof.Machine.execDiv z y x b a d s
  | .divn z y x b a d => Sys2Proof.Machine.execDivn z y x b a d s
  | .rem z y x b a d => Sys2Proof.Machine.execRem z y x b a d s
  | .remn z y x b a d => Sys2Proof.Machine.execRemn z y x b a d s
  | .min z y x b a d => Sys2Proof.Machine.execMin z y x b a d s
  | .max z y x b a d => Sys2Proof.Machine.execMax z y x b a d s
  | .minn z y x b a d => Sys2Proof.Machine.execMinn z y x b a d s
  | .maxn z y x b a d => Sys2Proof.Machine.execMaxn z y x b a d s
  | .slt z y x b a d => Sys2Proof.Machine.execSlt z y x b a d s
  | .sltn z y x b a d => Sys2Proof.Machine.execSltn z y x b a d s
  | .seq z y x b a d => Sys2Proof.Machine.execSeq z y x b a d s
  | .csel z y b a d => Sys2Proof.Machine.execCsel z y b a d s
  | .clz y x a d => Sys2Proof.Machine.execClz y x a d s
  | .ctz y x a d => Sys2Proof.Machine.execCtz y x a d s
  | .popc y x a d => Sys2Proof.Machine.execPopc y x a d s
  | .sext w y x a d => Sys2Proof.Machine.execSext w y x a d s
  | .zext w y x a d => Sys2Proof.Machine.execZext w y x a d s
  | .addi fi a d => Sys2Proof.Machine.execAddi fi a d s
  | .andi fi a d => Sys2Proof.Machine.execAndi fi a d s
  | .ori fi a d => Sys2Proof.Machine.execOri fi a d s
  | .xori fi a d => Sys2Proof.Machine.execXori fi a d s
  | .shli fi a d => Sys2Proof.Machine.execShli fi a d s
  | .shri fi a d => Sys2Proof.Machine.execShri fi a d s
  | .srai fi a d => Sys2Proof.Machine.execSrai fi a d s
  | .slti fi a d => Sys2Proof.Machine.execSlti fi a d s
  | .lui fi d => Sys2Proof.Machine.execLui fi d s
  | .addpc fi d => Sys2Proof.Machine.execAddpc fi d s
  | .ld fs fi a d => Sys2Proof.Machine.execLd fs fi a d s
  | .st fs fi a c => Sys2Proof.Machine.execSt fs fi a c s
  | .ldx fs z y x b a d => Sys2Proof.Machine.execLdx fs z y x b a d s
  | .stx fs z y x b a c => Sys2Proof.Machine.execStx fs z y x b a c s
  | .pref fi a => Sys2Proof.Machine.execPref fi a s
  | .alloc t a d => Sys2Proof.Machine.execAlloc t a d s
  | .free a d => Sys2Proof.Machine.execFree a d s
  | .beq h fi b a => Sys2Proof.Machine.execBeq h fi b a s
  | .bne h fi b a => Sys2Proof.Machine.execBne h fi b a s
  | .blt h fi b a => Sys2Proof.Machine.execBlt h fi b a s
  | .bge h fi b a => Sys2Proof.Machine.execBge h fi b a s
  | .bltn h fi b a => Sys2Proof.Machine.execBltn h fi b a s
  | .bgen h fi b a => Sys2Proof.Machine.execBgen h fi b a s
  | .loop h fi a => Sys2Proof.Machine.execLoop h fi a s
  | .jal fi d => Sys2Proof.Machine.execJal fi d s
  | .jalr fi a d => Sys2Proof.Machine.execJalr fi a d s
  | .realign n => Sys2Proof.Machine.execRealign n s
  | .fin => Sys2Proof.Machine.execFin s
  | .nop => Sys2Proof.Machine.execNop s
  | .vadd16 m fs d => Sys2Proof.Machine.execVadd16 m fs d s
  | .vsub16 m fs d => Sys2Proof.Machine.execVsub16 m fs d s
  | .vrsub16 m fs d => Sys2Proof.Machine.execVrsub16 m fs d s
  | .vmul16 m fs d => Sys2Proof.Machine.execVmul16 m fs d s
  | .vmin16 m fs d => Sys2Proof.Machine.execVmin16 m fs d s
  | .vmax16 m fs d => Sys2Proof.Machine.execVmax16 m fs d s
  | .vand16 m fs d => Sys2Proof.Machine.execVand16 m fs d s
  | .vor16 m fs d => Sys2Proof.Machine.execVor16 m fs d s
  | .vxor16 m fs d => Sys2Proof.Machine.execVxor16 m fs d s
  | .vmov16 m fs d => Sys2Proof.Machine.execVmov16 m fs d s
  | .vabs16 m fs d => Sys2Proof.Machine.execVabs16 m fs d s
  | .vneg16 m fs d => Sys2Proof.Machine.execVneg16 m fs d s
  | .vshl16 m fs d => Sys2Proof.Machine.execVshl16 m fs d s
  | .vshr16 m fs d => Sys2Proof.Machine.execVshr16 m fs d s
  | .vsra16 m fs d => Sys2Proof.Machine.execVsra16 m fs d s
  | .vfmak16 m fs d => Sys2Proof.Machine.execVfmak16 m fs d s
  | .vadd32 t m b a d => Sys2Proof.Machine.execVadd32 t m b a d s
  | .vsub32 t m b a d => Sys2Proof.Machine.execVsub32 t m b a d s
  | .vrsub32 t m b a d => Sys2Proof.Machine.execVrsub32 t m b a d s
  | .vmul32 t m b a d => Sys2Proof.Machine.execVmul32 t m b a d s
  | .vmin32 t m b a d => Sys2Proof.Machine.execVmin32 t m b a d s
  | .vmax32 t m b a d => Sys2Proof.Machine.execVmax32 t m b a d s
  | .vand32 t m b a d => Sys2Proof.Machine.execVand32 t m b a d s
  | .vor32 t m b a d => Sys2Proof.Machine.execVor32 t m b a d s
  | .vxor32 t m b a d => Sys2Proof.Machine.execVxor32 t m b a d s
  | .vmov32 t m a d => Sys2Proof.Machine.execVmov32 t m a d s
  | .vabs32 t m a d => Sys2Proof.Machine.execVabs32 t m a d s
  | .vneg32 t m a d => Sys2Proof.Machine.execVneg32 t m a d s
  | .vshl32 t m b a d => Sys2Proof.Machine.execVshl32 t m b a d s
  | .vshr32 t m b a d => Sys2Proof.Machine.execVshr32 t m b a d s
  | .vsra32 t m b a d => Sys2Proof.Machine.execVsra32 t m b a d s
  | .vfmak32 t m b a d => Sys2Proof.Machine.execVfmak32 t m b a d s
  | .vfma t m c b a d => Sys2Proof.Machine.execVfma t m c b a d s
  | .vfms t m c b a d => Sys2Proof.Machine.execVfms t m c b a d s
  | .vfnma t m c b a d => Sys2Proof.Machine.execVfnma t m c b a d s
  | .vcmp t m c b a d => Sys2Proof.Machine.execVcmp t m c b a d s
  | .vnot t m a d => Sys2Proof.Machine.execVnot t m a d s
  | .vexp2 t m a d => Sys2Proof.Machine.execVexp2 t m a d s
  | .vlog2 t m a d => Sys2Proof.Machine.execVlog2 t m a d s
  | .vrcp t m a d => Sys2Proof.Machine.execVrcp t m a d s
  | .vrsq t m a d => Sys2Proof.Machine.execVrsq t m a d s
  | .viota t m d => Sys2Proof.Machine.execViota t m d s
  | .vcvt t m fs a d => Sys2Proof.Machine.execVcvt t m fs a d s
  | .vsel t m b a d => Sys2Proof.Machine.execVsel t m b a d s
  | .vperm t m b a d => Sys2Proof.Machine.execVperm t m b a d s
  | .vslideUp t m b a d => Sys2Proof.Machine.execVslideUp t m b a d s
  | .vslideDn t m b a d => Sys2Proof.Machine.execVslideDn t m b a d s
  | .vcompress t m a d => Sys2Proof.Machine.execVcompress t m a d s
  | .vadds t m b a d => Sys2Proof.Machine.execVadds t m b a d s
  | .vscanpAdd t m a d => Sys2Proof.Machine.execVscanpAdd t m a d s
  | .vscanpMin t m a d => Sys2Proof.Machine.execVscanpMin t m a d s
  | .vscanpMax t m a d => Sys2Proof.Machine.execVscanpMax t m a d s
  | .vredAdd t m q a d => Sys2Proof.Machine.execVredAdd t m q a d s
  | .vredMin t m q a d => Sys2Proof.Machine.execVredMin t m q a d s
  | .vredMax t m q a d => Sys2Proof.Machine.execVredMax t m q a d s
  | .vredAnd t m q a d => Sys2Proof.Machine.execVredAnd t m q a d s
  | .vredOr t m q a d => Sys2Proof.Machine.execVredOr t m q a d s
  | .vredXor t m q a d => Sys2Proof.Machine.execVredXor t m q a d s
  | .vdot t m q b a d => Sys2Proof.Machine.execVdot t m q b a d s
  | .vbcast t a d => Sys2Proof.Machine.execVbcast t a d s
  | .vins t b a d => Sys2Proof.Machine.execVins t b a d s
  | .vext t b a d => Sys2Proof.Machine.execVext t b a d s
  | .unpkT5 l a d => Sys2Proof.Machine.execUnpkT5 l a d s
  | .unpkI8 l a d => Sys2Proof.Machine.execUnpkI8 l a d s
  | .unpkN8 l a d => Sys2Proof.Machine.execUnpkN8 l a d s
  | .unpkI4 l a d => Sys2Proof.Machine.execUnpkI4 l a d s
  | .unpkN4 l a d => Sys2Proof.Machine.execUnpkN4 l a d s
  | .mand b a d => Sys2Proof.Machine.execMand b a d s
  | .mor b a d => Sys2Proof.Machine.execMor b a d s
  | .mxor b a d => Sys2Proof.Machine.execMxor b a d s
  | .mnot a d => Sys2Proof.Machine.execMnot a d s
  | .mpop t a d => Sys2Proof.Machine.execMpop t a d s
  | .vtype t => Sys2Proof.Machine.execVtype t s
  | .vld t m fi a d => Sys2Proof.Machine.execVld t m fi a d s
  | .vst t m fi a c => Sys2Proof.Machine.execVst t m fi a c s
  | .vlds t m b a d => Sys2Proof.Machine.execVlds t m b a d s
  | .vsts t m b a c => Sys2Proof.Machine.execVsts t m b a c s
  | .vgath t m b a d => Sys2Proof.Machine.execVgath t m b a d s
  | .vscat t m b a c => Sys2Proof.Machine.execVscat t m b a c s
  | .vldIndexed t m b a d => Sys2Proof.Machine.execVldIndexed t m b a d s
  | .vstIndexed t m b a c => Sys2Proof.Machine.execVstIndexed t m b a c s
  | .mma n b a k => Sys2Proof.Machine.execMma n b a k s
  | .mmag n b g k => Sys2Proof.Machine.execMmag n b g k s
  | .mzero k => Sys2Proof.Machine.execMzero k s
  | .mldb a b => Sys2Proof.Machine.execMldb a b s
  | .mdrn fi c a f k => Sys2Proof.Machine.execMdrn fi c a f k s
  | .mcfg a n => Sys2Proof.Machine.execMcfg a n s
  | .pfx q g b a => Sys2Proof.Machine.execPfx q g b a s
  | .ecopy fi a => Sys2Proof.Machine.execEcopy fi a s
  | .barinit b a => Sys2Proof.Machine.execBarinit b a s
  | .baradd b a => Sys2Proof.Machine.execBaradd b a s
  | .cabcfg fi c k => Sys2Proof.Machine.execCabcfg fi c k s
  | .cabpush m v k w => Sys2Proof.Machine.execCabpush m v k w s
  | .cabmrg k d => Sys2Proof.Machine.execCabmrg k d s
  | .cabrd c k fi => Sys2Proof.Machine.execCabrd c k fi s
  | .cabdrn fi c k => Sys2Proof.Machine.execCabdrn fi c k s
  | .cabclr k => Sys2Proof.Machine.execCabclr k s
  | .scan fi a => Sys2Proof.Machine.execScan fi a s
  | .amoAdd c z fs b a d => Sys2Proof.Machine.execAmoAdd c z fs b a d s
  | .amoAnd c z fs b a d => Sys2Proof.Machine.execAmoAnd c z fs b a d s
  | .amoOr c z fs b a d => Sys2Proof.Machine.execAmoOr c z fs b a d s
  | .amoXor c z fs b a d => Sys2Proof.Machine.execAmoXor c z fs b a d s
  | .amoMin c z fs b a d => Sys2Proof.Machine.execAmoMin c z fs b a d s
  | .amoMax c z fs b a d => Sys2Proof.Machine.execAmoMax c z fs b a d s
  | .amoMinn c z fs b a d => Sys2Proof.Machine.execAmoMinn c z fs b a d s
  | .amoMaxn c z fs b a d => Sys2Proof.Machine.execAmoMaxn c z fs b a d s
  | .amoSwap c z fs b a d => Sys2Proof.Machine.execAmoSwap c z fs b a d s
  | .cas c z fs b a d => Sys2Proof.Machine.execCas c z fs b a d s
  | .ldlk z a d => Sys2Proof.Machine.execLdlk z a d s
  | .stul z b a => Sys2Proof.Machine.execStul z b a s
  | .acq z fs a d => Sys2Proof.Machine.execAcq z fs a d s
  | .rel z fs b a => Sys2Proof.Machine.execRel z fs b a s
  | .scld z fs a d => Sys2Proof.Machine.execScld z fs a d s
  | .scst z fs b a => Sys2Proof.Machine.execScst z fs b a s
  | .fence fs => Sys2Proof.Machine.execFence fs s
  | .fenceP fs q p => Sys2Proof.Machine.execFenceP fs q p s
  | .cmt => Sys2Proof.Machine.execCmt s
  | .trig => Sys2Proof.Machine.execTrig s
  | .waitList c fs a d => Sys2Proof.Machine.execWaitList c fs a d s
  | .waitBar c fs a d => Sys2Proof.Machine.execWaitBar c fs a d s
  | .waitPipe c fs b a d => Sys2Proof.Machine.execWaitPipe c fs b a d s
  | .waitJoin c fs a d => Sys2Proof.Machine.execWaitJoin c fs a d s
  | .waitEvq c fs d => Sys2Proof.Machine.execWaitEvq c fs d s
  | .waitNotice c fs d => Sys2Proof.Machine.execWaitNotice c fs d s
  | .waitProd c fs d => Sys2Proof.Machine.execWaitProd c fs d s
  | .waitMem z o c fs b a d => Sys2Proof.Machine.execWaitMem z o c fs b a d s
  | .send fs a d => Sys2Proof.Machine.execSend fs a d s
  | .htag a t => Sys2Proof.Machine.execHtag a t s
  | .spawn a => Sys2Proof.Machine.execSpawn a s
  | .join fs a => Sys2Proof.Machine.execJoin fs a s
  | .launch fs a d => Sys2Proof.Machine.execLaunch fs a d s
  | .wid fi d => Sys2Proof.Machine.execWid fi d s
  | .ppush a p => Sys2Proof.Machine.execPpush a p s
  | .ppop a p => Sys2Proof.Machine.execPpop a p s
  | .ppeek p d => Sys2Proof.Machine.execPpeek p d s
  | .migr a d => Sys2Proof.Machine.execMigr a d s
  | .lease b c a d => Sys2Proof.Machine.execLease b c a d s
  | .unlease b a d => Sys2Proof.Machine.execUnlease b a d s
  | .role x a d => Sys2Proof.Machine.execRole x a d s
  | .nack a d => Sys2Proof.Machine.execNack a d s
  | .boost a d => Sys2Proof.Machine.execBoost a d s
  | .crr r d => Sys2Proof.Machine.execCrr r d s
  | .crrEvq d => Sys2Proof.Machine.execCrrEvq d s
  | .crw r a => Sys2Proof.Machine.execCrw r a s
  | .trap n => Sys2Proof.Machine.execTrap n s
  | .sysc n => Sys2Proof.Machine.execSysc n s
  | .bkpt n => Sys2Proof.Machine.execBkpt n s
  | .eret => Sys2Proof.Machine.execEret s
  | .tack => Sys2Proof.Machine.execTack s
  | .tlbw b a => Sys2Proof.Machine.execTlbw b a s
  | .tlbi fs a => Sys2Proof.Machine.execTlbi fs a s
  | .powerUp => Sys2Proof.Machine.execPowerUp s
  | .bootGo => Sys2Proof.Machine.execBootGo s
  | .chanterBoot => Sys2Proof.Machine.execChanterBoot s
  | .droneReady => Sys2Proof.Machine.execDroneReady s
  | .hostAccess => Sys2Proof.Machine.execHostAccess s
  | .registerWrite => Sys2Proof.Machine.execRegisterWrite s
  | .doorbell => Sys2Proof.Machine.execDoorbell s
  | .completionDoorbell => Sys2Proof.Machine.execCompletionDoorbell s
  | .qcplWrite => Sys2Proof.Machine.execQcplWrite s
  | .launchEnqueueResume => Sys2Proof.Machine.execLaunchEnqueueResume s
  | .launchAdmission => Sys2Proof.Machine.execLaunchAdmission s
  | .rackLaunch => Sys2Proof.Machine.execRackLaunch s
  | .residencyReport => Sys2Proof.Machine.execResidencyReport s
  | .dispatch => Sys2Proof.Machine.execDispatch s
  | .pipeActorFire => Sys2Proof.Machine.execPipeActorFire s
  | .priorityAge => Sys2Proof.Machine.execPriorityAge s
  | .fitStarvation => Sys2Proof.Machine.execFitStarvation s
  | .migrationComplete => Sys2Proof.Machine.execMigrationComplete s
  | .forwardingExpire => Sys2Proof.Machine.execForwardingExpire s
  | .pageResident => Sys2Proof.Machine.execPageResident s
  | .quotaDecline => Sys2Proof.Machine.execQuotaDecline s
  | .tlbMiss => Sys2Proof.Machine.execTlbMiss s
  | .regionTimeCommit => Sys2Proof.Machine.execRegionTimeCommit s
  | .intervalTimeClose => Sys2Proof.Machine.execIntervalTimeClose s
  | .loadDataReturn => Sys2Proof.Machine.execLoadDataReturn s
  | .postedLineAtHome => Sys2Proof.Machine.execPostedLineAtHome s
  | .storeAck => Sys2Proof.Machine.execStoreAck s
  | .checkedAccessAtHome => Sys2Proof.Machine.execCheckedAccessAtHome s
  | .lockGrant => Sys2Proof.Machine.execLockGrant s
  | .pageMigration => Sys2Proof.Machine.execPageMigration s
  | .panpipeDelivery => Sys2Proof.Machine.execPanpipeDelivery s
  | .roleMapAck => Sys2Proof.Machine.execRoleMapAck s
  | .staleRequestReturn => Sys2Proof.Machine.execStaleRequestReturn s
  | .injectionSend => Sys2Proof.Machine.execInjectionSend s
  | .messageDelivery => Sys2Proof.Machine.execMessageDelivery s
  | .handlerCreate => Sys2Proof.Machine.execHandlerCreate s
  | .recordPass => Sys2Proof.Machine.execRecordPass s
  | .firingRetire => Sys2Proof.Machine.execFiringRetire s
  | .subtileRelease => Sys2Proof.Machine.execSubtileRelease s
  | .launchComplete => Sys2Proof.Machine.execLaunchComplete s
  | .completionJoinResume => Sys2Proof.Machine.execCompletionJoinResume s
  | .launchEndWrite => Sys2Proof.Machine.execLaunchEndWrite s
  | .waitConditionMet => Sys2Proof.Machine.execWaitConditionMet s
  | .waitTimeout => Sys2Proof.Machine.execWaitTimeout s
  | .realignTimeout => Sys2Proof.Machine.execRealignTimeout s
  | .censusSample => Sys2Proof.Machine.execCensusSample s
  | .recastProposal => Sys2Proof.Machine.execRecastProposal s
  | .recastDeadline => Sys2Proof.Machine.execRecastDeadline s
  | .storageCopyDone => Sys2Proof.Machine.execStorageCopyDone s
  | .computeRecastRebind => Sys2Proof.Machine.execComputeRecastRebind s
  | .recastFinish => Sys2Proof.Machine.execRecastFinish s
  | .leaseExpire => Sys2Proof.Machine.execLeaseExpire s
  | .matrixGrant => Sys2Proof.Machine.execMatrixGrant s
  | .matrixCommandDone => Sys2Proof.Machine.execMatrixCommandDone s
  | .copyChainStart => Sys2Proof.Machine.execCopyChainStart s
  | .scanChainStart => Sys2Proof.Machine.execScanChainStart s
  | .chainCopy => Sys2Proof.Machine.execChainCopy s
  | .chainMcast => Sys2Proof.Machine.execChainMcast s
  | .chainDeal => Sys2Proof.Machine.execChainDeal s
  | .chainLoop => Sys2Proof.Machine.execChainLoop s
  | .chainIfz => Sys2Proof.Machine.execChainIfz s
  | .chainIfnz => Sys2Proof.Machine.execChainIfnz s
  | .chainSignal => Sys2Proof.Machine.execChainSignal s
  | .chainEnd => Sys2Proof.Machine.execChainEnd s
  | .chainSel => Sys2Proof.Machine.execChainSel s
  | .mcastLineArrival => Sys2Proof.Machine.execMcastLineArrival s
  | .scanPart => Sys2Proof.Machine.execScanPart s
  | .scanMerge => Sys2Proof.Machine.execScanMerge s
  | .cabArrival => Sys2Proof.Machine.execCabArrival s
  | .budgetDivision => Sys2Proof.Machine.execBudgetDivision s
  | .allocationEffect => Sys2Proof.Machine.execAllocationEffect s
  | .peakCapReached => Sys2Proof.Machine.execPeakCapReached s
  | .voltageStep => Sys2Proof.Machine.execVoltageStep s
  | .boostExpire => Sys2Proof.Machine.execBoostExpire s
  | .regulatorTimeout => Sys2Proof.Machine.execRegulatorTimeout s
  | .trapDelivery => Sys2Proof.Machine.execTrapDelivery s
  | .trapEscalation => Sys2Proof.Machine.execTrapEscalation s
  | .journalRetry => Sys2Proof.Machine.execJournalRetry s
  | .journalDiscard => Sys2Proof.Machine.execJournalDiscard s
  | .freezeStart => Sys2Proof.Machine.execFreezeStart s
  | .rackFreeze => Sys2Proof.Machine.execRackFreeze s
  | .freezeTargetTimeout => Sys2Proof.Machine.execFreezeTargetTimeout s
  | .freezeComplete => Sys2Proof.Machine.execFreezeComplete s
  | .freezeResume => Sys2Proof.Machine.execFreezeResume s
  | .resumeComplete => Sys2Proof.Machine.execResumeComplete s
  | .attest => Sys2Proof.Machine.execAttest s
  | .identity => Sys2Proof.Machine.execIdentity s
  | .release => Sys2Proof.Machine.execRelease s
  | .ceilings => Sys2Proof.Machine.execCeilings s
  | .powerOff => Sys2Proof.Machine.execPowerOff s
  | .ualinkTargetRequest => Sys2Proof.Machine.execUalinkTargetRequest s
  | .softError => Sys2Proof.Machine.execSoftError s

end Sys2Proof.Machine
end

