-- ==== Sys2Proof/Machine/Fetch.lean ====
section
/-! DEFINITION. Fetching an instruction (R291, R316, R471), and what the model sets up so that a word is the next
instruction fetched. -/

namespace Sys2Proof.Machine

/-- The step before which the writes of a line are in what the issuer fetches of it (R316). DEDUCED (155). -/
def Cx.fetchUpTo (x : Cx) (key : Nat) : Nat := (x.c.code.get? (lineOf key)).getD (x.s.fetchedTo x.c.uid key)

/-- What a firing has fetched of a line it goes on fetching (R316). DEDUCED (155). -/
def Cx.noteFetch (x : Cx) (key : Nat) : Cx :=
  if x.isFiring && (x.c.code.get? (lineOf key)).isNone then
    { x with c := { x.c with code := x.c.code.insert (lineOf key) (x.fetchUpTo key) } }
  else x

/-- One halfword of an instruction, through translation with exec permission, on the core path (R291, R316, R471).  A
fault on either halfword is reported at the instruction's address, and an integrity trap at its line's (R449). DEDUCED (19). -/
def Cx.fetchHalf (x : Cx) (va : Nat) : Except Stop (List Byte × Cx) :=
  match x.reach .fetch true va 2 with
  | .ok (p, x) =>
    match x.who with
    | .sys n =>
      if n < 16 ∧ Config.inLanding n p.key then .ok ((List.range 2).map fun i => x.s.landingByte n (p.key + i), x)
      else .ok ((List.range 2).map fun i => x.s.fetchByte x.c.uid (x.fetchUpTo p.key) (p.key + i), x.noteFetch p.key)
    | .slot _ =>
      .ok ((List.range 2).map fun i => x.s.fetchByte x.c.uid (x.fetchUpTo p.key) (p.key + i), x.noteFetch p.key)
  | .error (.raise t) => .error (.raise (if t.cls = 9 then t else { t with addr := x.c.pc }))
  | .error e => .error e

/-- The bytes of the instruction at the pc: two or four (R291). DEDUCED (19). -/
def Cx.fetch (x : Cx) : Except Stop (List Byte × Cx) := do
  let (h, x) ← x.fetchHalf x.c.pc.toNat
  if ((h.headD 0).getLsbD 0) then
    let (h', x) ← x.fetchHalf (x.c.pc + 2).toNat
    .ok (h ++ h', x)
  else .ok (h, x)

/-- Bytes as a number, the first lowest (R9). -/
def bytesNat : List Byte → Nat
  | [] => 0
  | b :: l => b.toNat + 256 * bytesNat l

/-- The illegal-encoding trap of bytes that are no instruction (R314, R449). -/
def Cx.badEncoding (x : Cx) (bytes : List Byte) : Stop :=
  .raise (x.trap 4 3 x.c.pc (BitVec.ofNat 64 (bytesNat bytes)))

/-! ## What goes on around a step -/

/-- A scalar stream is about to issue: a suspended boost lease of its firing is tried (R259), and a load or atomic that it
issues is served in a later step, or not (R160, R398). -/
def State.poised (s : State) (late : Bool) : State := { s.reboost with late := late }

/-- After a step, commands whose issuers' lines have arrived go on (R131), every wait is evaluated (R57), and every quad takes its
target (R255). -/
def State.after (s : State) : State := s.commandsArrive.wake.retargetAll

/-- A step's outcome with what follows it. -/
def follow : Host.Outcome State Fault Refusal → Host.Outcome State Fault Refusal
  | .next s => .next s.after
  | o => o

/-- A list of bytes at consecutive addresses, as newest values on every path. -/
def State.place (s : State) (pa : Nat) : List Byte → State
  | [] => s
  | b :: l => ({ s with mem := s.mem.set pa b 0, unseen := s.unseen.filter (·.pa != pa) }).place (pa + 1) l

/-- A work actor at entry 0 that uses no pipe. -/
def plainActor : Actor :=
  { entry := 0, kind := 0, tag := 0, hprio := 0, inPipe := [255, 255, 255, 255], inRate := [0, 0, 0, 0],
    emitPipe := [255, 255, 255, 255], emitRate := [0, 0, 0, 0] }

/-- A launch with one work actor at entry 0 and nothing else. -/
def plainLaunch : Launch :=
  { gen := 1, asn := 0, depth := 1, parent := none, prio := 0, cls := 0, gang := false, dependent := false,
    noticeActor := 255, widths := [64, 0, 0, 0, 0, 0], extents := [1, 0, 0, 0, 0, 0], tiles := 1, leaseAllow := 0,
    quota := [0xFFFFFFFF, 0xFFFFFFFF, 0xFFFFFFFF, 0xFFFFFFFF, 0xFFFFFFFF], codeBase := 0,
    actors := [plainActor],
    pipes := [], producers := [], compKind := 0, compAddr := 0, launcher := {}, scope := 0, queue := 0,
    admitted := true, binds := [(0, 0)], work := 1, made := 1, triggered := 0, records := [], reservedCount := [],
    serials := [], charge := [], killed := false, notice := 0 }

/-- The leaf of the page from which `withFetchWord` has its instruction fetched: the first 2 MiB of tier 4, readable,
writable, executable, for firings (R110). -/
def codeLeaf : Word := 0x109F

/-- A firing of launch 0 in slot 0 at address 0, whose code page is in the core TLB, with nothing scheduled before it. -/
def State.withFiring (s : State) : State :=
  { s with
    cur := .slot 0
    inputs := []
    vecTurn := false
    late := false
    nextUid := s.nextUid + 1
    host := { s.host with frzState := 0 }
    pageMoves := []
    kreserved := []
    badLines := s.badLines.filter (· != 0)
    flights := []
    launches := s.launches.insert 0 plainLaunch
    slots := s.slots.set 0 { s.slotAt 0 with ctx := some { uid := s.nextUid, launch := 0, gen := 1, interval := s.time } } {}
    cores := s.cores.set 0 { s.coreAt 0 with tlb := [{ asn := 0, page := 0, leaf := codeLeaf }], span := [] } {} }

end Sys2Proof.Machine
end

