-- ==== Sys2Proof/Machine/Step.lean ====
section
/-! DEFINITION. One step of the package: the schedule names who moves next; with an empty schedule the current issuer
issues. -/

namespace Sys2Proof.Machine

/-- The current issuer's scalar stream fetches, decodes and issues (R291, R314). -/
def stepScalar (s : State) : Host.Outcome State Fault Refusal :=
  match s.hand with
  | none => .next s
  | some x =>
    match x.fetch with
    | .error e => x.conclude s (.error e)
    | .ok (bytes, x) =>
      match decode bytes with
      | .ok (i, _) => exec i x.put
      | .error _ => x.conclude s (.error (x.badEncoding bytes))

/-- The forwarded vector instructions of the current issuer. -/
def State.forwarded (s : State) : List Deferred := ((s.ctxOf s.cur).map (·.vstream)).getD []

/-- The current issuer's vector stream runs its oldest forwarded instruction (R343). -/
def stepVector (s : State) : Host.Outcome State Fault Refusal :=
  match s.forwarded with
  | [] => .next s
  | d :: _ => exec d.instr { s with vecTurn := true }

/-- With nothing scheduled: the vector stream's oldest instruction if it can run, else the scalar stream. -/
def stepIssuer (s : State) : Host.Outcome State Fault Refusal :=
  if s.forwarded = [] then stepScalar s
  else
    match stepVector s with
    | .next t => if t.forwarded.length < s.forwarded.length then .next t else stepScalar s
    | o => o

/-- Each step has a number of its own, to which free values are applied. -/
def State.tick (s : State) : State := { s with fresh := s.fresh + 1 }

/-- The act that a step does: with nothing scheduled the current issuer's; otherwise the ticks of the next entry of the schedule
pass, the waits that they end go on, and its act is done.  An instruction is no event.  DESIGN CHOICE (42).
DESIGN CHOICE (43). -/
def stepAct (s : State) : Host.Outcome State Fault Refusal :=
  match s.inputs with
  | [] => stepIssuer (s.poised false)
  | i :: rest =>
    let s := ({ s with inputs := rest, time := s.time + i.ticks } : State).wake
    match i.act with
    | .issue who late => stepScalar (({ s with cur := who } : State).poised late)
    | .vector k late => stepVector { s with cur := .slot k, late := late }
    | .event e args => if e.isEvent then exec e { s with args := args, late := false } else .next s

/-- One step: an act, and what follows from it. -/
def step (s : State) : Host.Outcome State Fault Refusal := follow (stepAct s.tick)

/-- The state with an instruction where step fetches its next one: a firing in slot 0 at address 0, whose code page is the
first page of tier 4 (log entry 15). -/
def State.withFetchWord (s : State) (nbits w : Nat) : State :=
  s.withFiring.place 0 ((List.range (if nbits ≤ 16 ∧ w % 2 = 0 then 2 else 4)).map (byteOf (w % 2 ^ nbits)))

end Sys2Proof.Machine
end

