-- ==== Sys2Proof/Safety.lean ====
section
/-! DEFINITION. What counts as a safe run, in the terms that statements use. -/

namespace Sys2Proof.Machine

/-- Memory in canonical form: addresses strictly rising, no entry equal to what an unlisted address reads as. -/
def Memory.wf (m : Map Byte) : Bool := m.wf 0

/-- The memory of a state and those of the images that freezes have captured are in canonical form. -/
def State.memoryWf (s : State) : Prop := Memory.wf s.mem = true ∧ ∀ e ∈ s.images, Memory.wf e.2.mem = true

/-- A step stops the machine. -/
def stops (o : Host.Outcome State Fault Refusal) : Bool :=
  match o with
  | .next _ => false
  | .fault _ => true
  | .refused _ => true

/-- A run of `n` steps ends in a state: nothing stopped it. -/
def runs (n : Nat) (s t : State) : Prop :=
  match n with
  | 0 => t = s
  | n + 1 => ∃ u, step s = .next u ∧ runs n u t

/-- It is the turn of an issuer's scalar stream, and nothing holds the next instruction back: the issuer runs and may
issue, no forwarded vector instruction and no asynchronous trap waits, no register is still to receive a value, and an access to
a home is served at once. -/
def turn (s : State) (who : Issuer) (c : Ctx) : Prop :=
  s.cur = who ∧ s.ctxOf who = some c ∧ c.st = .running ∧ s.mayIssue who = true ∧ c.vstream = [] ∧ c.asyncs = [] ∧
    s.vecTurn = false ∧ c.regs.due = [] ∧ c.regs.vdue = [] ∧ s.late = false

/-- As `turn`, and no format prefix is pending. -/
def issues (s : State) (who : Issuer) (c : Ctx) : Prop := turn s who c ∧ bit c.regs.status 5 = false

/-- As `issues`, for the firing in a slot. -/
def issuesIn (s : State) (k : Nat) (c : Ctx) : Prop := issues s (.slot k) c

/-- The state after a context has been changed and the issuer has gone on to the next instruction. -/
def wrote (s : State) (who : Issuer) (c : Ctx) (len : Nat) : State :=
  s.putCtx who { c with pc := c.pc + BitVec.ofNat 64 len, verdicts := [], stalled := false }

end Sys2Proof.Machine
end

