-- ==== Sys2Proof/Certificates/Slice0/Obligations.lean ====
section
/-! DEFINITION. The statements for the provers, with the tables that they range over. -/

set_option linter.unusedVariables false

open Sys2Proof Sys2Proof.Machine

namespace Sys2Proof.Tables

/-- A precise trap that the firing survives: class, access, resume address, address word and detail word (R449). -/
def trap (cls access : Nat) (resume addr detail : Word) : Trap :=
  { cls := cls, async := false, access := access, subcode := 0, addr := addr, detail := detail, resume := resume,
    disposition := 0 }

/-- The three-register operations with two sources and their results (R319, R320). -/
def threeRegister :
    List ((BitVec 1 → BitVec 1 → BitVec 1 → BitVec 5 → BitVec 5 → BitVec 5 → Instr) × (Word → Word → Word)) :=
  [(.add, fun a b => a + b), (.sub, fun a b => a - b), (.and, fun a b => a &&& b), (.or, fun a b => a ||| b),
   (.xor, fun a b => a ^^^ b), (.andn, fun a b => a &&& ~~~b),
   (.shl, fun a b => BitVec.ofNat 64 (a.toNat * 2 ^ (b.toNat % 64))),
   (.shr, fun a b => BitVec.ofNat 64 (a.toNat / 2 ^ (b.toNat % 64))),
   (.sra, fun a b => BitVec.ofInt 64 (a.toInt / 2 ^ (b.toNat % 64))),
   (.mul, fun a b => BitVec.ofNat 64 (a.toNat * b.toNat)),
   (.mulh, fun a b => BitVec.ofInt 64 (a.toInt * b.toInt / 2 ^ 64)),
   (.mulhn, fun a b => BitVec.ofNat 64 (a.toNat * b.toNat / 2 ^ 64)),
   (.div, fun a b => if b = 0 then 0xFFFFFFFFFFFFFFFF else BitVec.ofInt 64 (a.toInt.tdiv b.toInt)),
   (.divn, fun a b => if b = 0 then 0xFFFFFFFFFFFFFFFF else BitVec.ofNat 64 (a.toNat / b.toNat)),
   (.rem, fun a b => if b = 0 then a else BitVec.ofInt 64 (a.toInt - b.toInt * a.toInt.tdiv b.toInt)),
   (.remn, fun a b => if b = 0 then a else BitVec.ofNat 64 (a.toNat - b.toNat * (a.toNat / b.toNat))),
   (.min, fun a b => BitVec.ofInt 64 (min a.toInt b.toInt)), (.max, fun a b => BitVec.ofInt 64 (max a.toInt b.toInt)),
   (.minn, fun a b => BitVec.ofNat 64 (min a.toNat b.toNat)), (.maxn, fun a b => BitVec.ofNat 64 (max a.toNat b.toNat)),
   (.slt, fun a b => if a.toInt < b.toInt then 1 else 0), (.sltn, fun a b => if a.toNat < b.toNat then 1 else 0),
   (.seq, fun a b => if a = b then 1 else 0)]

/-- The unary operations of major 0x00 and their results (R319). -/
def unary : List ((BitVec 1 → BitVec 1 → BitVec 5 → BitVec 5 → Instr) × (Word → Word)) :=
  [(.clz, fun a => BitVec.ofNat 64 (((List.range 64).find? fun n => a.getLsbD (63 - n)).getD 64)),
   (.ctz, fun a => BitVec.ofNat 64 (((List.range 64).find? fun n => a.getLsbD n).getD 64)),
   (.popc, fun a => BitVec.ofNat 64 ((List.range 64).filter fun n => a.getLsbD n).length),
   (.sext 0, fun a => (a.setWidth 8).signExtend 64), (.sext 1, fun a => (a.setWidth 16).signExtend 64),
   (.sext 2, fun a => (a.setWidth 32).signExtend 64), (.zext 0, fun a => (a.setWidth 8).setWidth 64),
   (.zext 1, fun a => (a.setWidth 16).setWidth 64), (.zext 2, fun a => (a.setWidth 32).setWidth 64)]

/-- The immediate operations and their results from the register and the sign-extended immediate (R321). -/
def immediate : List ((BitVec 12 → BitVec 5 → BitVec 5 → Instr) × (Word → Word → Word)) :=
  [(.addi, fun a i => a + i), (.andi, fun a i => a &&& i), (.ori, fun a i => a ||| i), (.xori, fun a i => a ^^^ i),
   (.shli, fun a i => BitVec.ofNat 64 (a.toNat * 2 ^ (i.toNat % 64))),
   (.shri, fun a i => BitVec.ofNat 64 (a.toNat / 2 ^ (i.toNat % 64))),
   (.srai, fun a i => BitVec.ofInt 64 (a.toInt / 2 ^ (i.toNat % 64))),
   (.slti, fun a i => if a.toInt < i.toInt then 1 else 0)]

/-- The conditional branches and their tests (R334). -/
def branches : List ((BitVec 1 → BitVec 11 → BitVec 5 → BitVec 5 → Instr) × (Word → Word → Bool)) :=
  [(.beq, fun a b => decide (a = b)), (.bne, fun a b => decide (a ≠ b)), (.blt, fun a b => decide (a.toInt < b.toInt)),
   (.bge, fun a b => decide (b.toInt ≤ a.toInt)), (.bltn, fun a b => decide (a.toNat < b.toNat)),
   (.bgen, fun a b => decide (b.toNat ≤ a.toNat))]

end Sys2Proof.Tables

/-- For every three-register operation with two sources of major 0x00 (ADD to SEQ), every setting of its queue flags
and every operand field that the encoding admits: if it is the issuer's turn, the sources can be read and the
destination can be written, then exec answers a next state, in which the destination holds the result that R319 and
R320 give for the two values read, the sources' queues have lost what was popped, the pc is 4 further, and the
issuer's context is otherwise as the reads left it. It holds for firings and for system and hub cores. (R317, R318,
R319, R320) -/
def Obligations.ThreeRegisterOperations : Prop :=
  ∀ p ∈ Tables.threeRegister, ∀ (z y x : BitVec 1) (b a d : BitVec 5) (s : State) (who : Issuer) (c : Ctx)
      (va vb : Word) (k k' : Cx),
    issues s who c → (p.1 z y x b a d).wellFormed = true →
    (Cx.mk s who c).readSS y a z b = .ok (va, vb, k) → k.writeS x d (p.2 va vb) = .ok k' →
    exec (p.1 z y x b a d) s = .next (wrote k'.s who k'.c 4)

/-- If it is the issuer's turn and the sources of CSEL can be read, exec answers the next state in which the
destination register (s0 excepted, which discards) holds the first value read where the old value of F1 is not zero
and the second otherwise, and the pc is 4 further. (R300, R318, R319) -/
def Obligations.ConditionalSelect : Prop :=
  ∀ (z y : BitVec 1) (b a d : BitVec 5) (s : State) (who : Issuer) (c : Ctx) (va vb : Word) (k : Cx),
    issues s who c → (Instr.csel z y b a d).wellFormed = true → (Cx.mk s who c).readSS y a z b = .ok (va, vb, k) →
    exec (.csel z y b a d) s = .next (wrote k.s who (k.c.setS d (if k.c.sreg d = 0 then vb else va)) 4)

/-- For CLZ, CTZ, POPC and for SEXT and ZEXT of each width, with every queue flag: if it is the issuer's turn, the
source can be read and the destination can be written, exec answers a next state in which the destination holds the
count of leading zeros, trailing zeros or ones of the value read (64 leading and trailing zeros for 0), or its low
8, 16 or 32 bits with the sign or zeros extended, and the pc is 4 further. (R317, R318, R319) -/
def Obligations.UnaryOperations : Prop :=
  ∀ p ∈ Tables.unary, ∀ (y x : BitVec 1) (a d : BitVec 5) (s : State) (who : Issuer) (c : Ctx) (va : Word) (k k' : Cx),
    issues s who c → (p.1 y x a d).wellFormed = true →
    (Cx.mk s who c).readS y a = .ok (va, k) → k.writeS x d (p.2 va) = .ok k' →
    exec (p.1 y x a d) s = .next (wrote k'.s who k'.c 4)

/-- For every operand and every issuer whose turn it is, ADDI, ANDI, ORI, XORI, SHLI, SHRI, SRAI and SLTI set sd to
the operation of R321 on sa and the sign-extended immediate, LUI sets sd to the sign-extended imm20 shifted left by
12, and ADDPC sets sd to the pc with bits 2:0 cleared plus 8 times imm20; exec answers that next state, with the pc
4 further and nothing else changed. (R321, R322) -/
def Obligations.ImmediateOperations : Prop :=
  ∀ (s : State) (who : Issuer) (c : Ctx), issues s who c →
    (∀ p ∈ Tables.immediate, ∀ (i : BitVec 12) (a d : BitVec 5),
      exec (p.1 i a d) s = .next (wrote s who (c.setS d (p.2 (c.sreg a) (i.signExtend 64))) 4)) ∧
    (∀ (i : BitVec 20) (d : BitVec 5),
      exec (.lui i d) s = .next (wrote s who (c.setS d (BitVec.ofInt 64 (i.toInt * 4096))) 4) ∧
      exec (.addpc i d) s =
        .next (wrote s who (c.setS d (BitVec.ofNat 64 (c.pc.toNat / 8 * 8) + BitVec.ofInt 64 (i.toInt * 8))) 4))

/-- Without its flag a source reads its register (s0 reads zero) and a destination is set (s0 discards), and nothing
else changes. With its flag, a source reads the oldest entry of its queue and removes it, and a destination appends
an entry while its queue holds fewer than 8. A three-register operation whose source queue is empty or whose oldest
entry is still outstanding, or whose destination queue is full, changes nothing: it waits. (R289, R297, R298, R317)
-/
def Obligations.ScalarOperandReads : Prop :=
  (∀ (x : Cx) (r : BitVec 5) (v : Word),
    x.readS 0 r = .ok (if r = 0 then 0 else x.c.regs.s.get r.toNat 0, x) ∧
    x.writeS 0 r v = .ok { x with c := x.c.setS r v } ∧ x.c.setS 0 v = x.c ∧
    (r ≠ 0 → (x.c.setS r v).sreg r = v) ∧ ∀ r', r' ≠ r → (x.c.setS r v).sreg r' = x.c.sreg r') ∧
  (∀ (x : Cx) (r : BitVec 5) (v : Word) (rest : List (QEnt Word)),
    x.c.regs.sq.get r.toNat [] = .val v :: rest → x.c.region.pops.get r.toNat 0 < 32 →
    ∃ y, x.readS 1 r = .ok (v, y) ∧ y.s = x.s ∧ y.c.regs.sq.get r.toNat [] = rest ∧
      y.c.regs.s = x.c.regs.s ∧ y.c.regs.v = x.c.regs.v ∧ y.c.regs.status = x.c.regs.status) ∧
  (∀ (x : Cx) (r : BitVec 5) (v : Word), (x.c.regs.sq.get r.toNat []).length < 8 →
    ∃ y, x.writeS 1 r v = .ok y ∧ y.s = x.s ∧ y.c.regs.sq.get r.toNat [] = x.c.regs.sq.get r.toNat [] ++ [.val v] ∧
      y.c.regs.s = x.c.regs.s) ∧
  (∀ p ∈ Tables.threeRegister, ∀ (z y x : BitVec 1) (b a d : BitVec 5) (s : State) (who : Issuer) (c : Ctx) (va vb : Word)
      (k : Cx), issues s who c → (p.1 z y x b a d).wellFormed = true →
    ((Cx.mk s who c).readSS y a z b = .error .stall ∨
      ((Cx.mk s who c).readSS y a z b = .ok (va, vb, k) ∧ 8 ≤ (k.c.regs.sq.get d.toNat []).length ∧ x = 1)) →
    exec (p.1 z y x b a d) s = .next s)

/-- Frame of the three-register, unary and immediate operations, CSEL, LUI, ADDPC, the branches, LOOP, JAL and JALR,
for register operands: whenever it is the issuer's turn and exec answers a next state, every scalar register other
than the destination (for LOOP: other than its counter), every vector and mask register, every queue, cr.status and
every other bit of it, cr.pfx, the items, the share, the pending operations and the open region are unchanged, every
byte reads as before on every path, and every other slot, core, tile, launch and system core is unchanged. The pc
may change. (R318, R319, R321, R322, R334, R335, R337) -/
def Obligations.ScalarFrame : Prop :=
  ∀ (s t : State) (who : Issuer) (c : Ctx) (i : Instr) (d : BitVec 5), issues s who c → i.wellFormed = true →
    ((∃ p ∈ Tables.threeRegister, ∃ b a, i = p.1 0 0 0 b a d) ∨ (∃ b a, i = .csel 0 0 b a d) ∨
      (∃ p ∈ Tables.unary, ∃ a, i = p.1 0 0 a d) ∨ (∃ p ∈ Tables.immediate, ∃ m a, i = p.1 m a d) ∨
      (∃ m, i = .lui m d) ∨ (∃ m, i = .addpc m d) ∨ (∃ m, i = .jal m d) ∨ (∃ m a, i = .jalr m a d) ∨
      (∃ h m, i = .loop h m d) ∨ (∃ p ∈ Tables.branches, ∃ h m b a, i = p.1 h m b a)) →
    exec i s = .next t →
    ∃ c', t = s.putCtx who c' ∧ (∀ r, r ≠ d → c'.sreg r = c.sreg r) ∧ c'.regs.v = c.regs.v ∧ c'.regs.m = c.regs.m ∧
      c'.regs.vq = c.regs.vq ∧ c'.regs.sq = c.regs.sq ∧ c'.regs.status = c.regs.status ∧ c'.regs.pfx = c.regs.pfx ∧
      c'.items = c.items ∧ c'.share = c.share ∧ c'.pend = c.pend ∧ c'.region = c.region ∧ c'.loads = c.loads ∧
      c'.notice = c.notice ∧ c'.req = c.req ∧
      (∀ path pa me acc, t.readByte path pa me acc = s.readByte path pa me acc)

/-- For every operand, either hint and every issuer whose turn it is, BEQ, BNE, BLT, BGE, BLTN and BGEN answer a
next state that differs only in the pc: pc + 2 × imm11 (the branch's own address plus the sign-extended immediate)
where the test of R334 holds for the values of F1 and F2, and pc + 4 otherwise. (R334) -/
def Obligations.Branches : Prop :=
  ∀ p ∈ Tables.branches, ∀ (h : BitVec 1) (i : BitVec 11) (b a : BitVec 5) (s : State) (who : Issuer) (c : Ctx),
    issues s who c →
    ∃ c', exec (p.1 h i b a) s = .next (s.putCtx who c') ∧
      c'.pc = (if p.2 (c.sreg a) (c.sreg b) then c.pc + BitVec.ofInt 64 (i.toInt * 2) else c.pc + 4) ∧
      c'.regs = c.regs ∧ c'.st = .running ∧ c'.region = c.region ∧ c'.share = c.share ∧ c'.pend = c.pend

/-- For every operand and every issuer whose turn it is: LOOP of a register that holds zero leaves it zero and goes
on to pc + 4; otherwise it writes the value less one, and branches to pc + 2 × imm11 unless that is zero. JAL writes
pc + 4 to sd and goes to pc + 2 × imm20. JALR writes pc + 4 to sd and goes to (sa + imm12) with bit 0 cleared, where
sa is read before sd is written. (R318, R335, R336, R337) -/
def Obligations.LoopsAndJumps : Prop :=
  ∀ (s : State) (who : Issuer) (c : Ctx), issues s who c →
    (∀ (h : BitVec 1) (i : BitVec 11) (a : BitVec 5), ∃ c', exec (.loop h i a) s = .next (s.putCtx who c') ∧
      c'.regs = (c.setS a (if c.sreg a = 0 then 0 else c.sreg a - 1)).regs ∧
      c'.pc = (if c.sreg a = 0 ∨ c.sreg a = 1 then c.pc + 4 else c.pc + BitVec.ofInt 64 (i.toInt * 2)) ∧
      c'.st = .running ∧ c'.region = c.region) ∧
    (∀ (i : BitVec 20) (d : BitVec 5), ∃ c', exec (.jal i d) s = .next (s.putCtx who c') ∧
      c'.regs = (c.setS d (c.pc + 4)).regs ∧ c'.pc = c.pc + BitVec.ofInt 64 (i.toInt * 2) ∧ c'.st = .running) ∧
    (∀ (i : BitVec 12) (a d : BitVec 5), ∃ c', exec (.jalr i a d) s = .next (s.putCtx who c') ∧
      c'.regs = (c.setS d (c.pc + 4)).regs ∧ c'.pc = (c.sreg a + BitVec.ofInt 64 i.toInt) &&& ~~~1 ∧ c'.st = .running)

/-- When it is the issuer's turn, NOP answers the state with the pc 4 further and nothing else changed. When it is a
firing's turn: REALIGN 0 does the same; REALIGN n with n from 1 puts the firing into a realign wait of n clocks (100
n hundredths) at its address from now on, after which the realign waits of its tile are tested; FIN answers the
state in which the firing's end has taken place. For a firing with no operation pending and no checked interval,
that leaves its context ended, with empty registers and region, no outstanding access but the atomics that it has
issued, no lock, no boost lease and no reserved records, and a lock bit that it held is free again. (R338, R339,
R340, R342) -/
def Obligations.RealignFinNop : Prop :=
  (∀ (s : State) (who : Issuer) (c : Ctx), issues s who c → exec .nop s = .next (wrote s who c 4)) ∧
  ∀ (s : State) (k : Nat) (c : Ctx), issuesIn s k c →
    exec (.realign 0) s = .next (wrote s (.slot k) c 4) ∧
    (∀ n : BitVec 12, n ≠ 0 → exec (.realign n) s =
      .next ((s.putCtx (.slot k) { c with st := .realign (100 * n.toNat) s.time }).realignTest (tileOf (coreOf k)))) ∧
    exec .fin s = .next ((Cx.mk s (.slot k) c).finish false false) ∧
    (c.pend = [] → c.checkedSince = none → ∃ c',
      (((Cx.mk s (.slot k) c).finish false false).slotAt k).ctx = some c' ∧ c'.st = .ended false ∧ c'.regs = {} ∧
      c'.region = {} ∧ c'.loads = c.loads.filter (·.atomic) ∧ c'.lock = none ∧ c'.boost = none ∧ c'.reserved = [] ∧
      ∀ l va, c.lock = some (l, va) → (((Cx.mk s (.slot k) c).finish false false).lockAt l).owner = none)

/-- After REALIGN n (n from 1) of a firing in a slot whose tile's other slots hold peers (running firings of the
same launch not in a WAIT): if every peer is in a realign wait at the same address, each of them and the firing
itself is running at pc + 4 in the next state; if some peer is not, the firing is in its realign wait at its
address. (R338) -/
def Obligations.RealignWaitsForPeers : Prop :=
  ∀ (s : State) (k : Nat) (c : Ctx) (n : BitVec 12), issuesIn s k c → n ≠ 0 → ∃ t, exec (.realign n) s = .next t ∧
    ((∀ j d, j / 64 = k / 64 → j ≠ k → (s.slotAt j).ctx = some d → d.realigns c.launch c.gen = true →
        d.realignAt c.pc = true) →
      (t.slotAt k).ctx = some { c with st := .running, pc := c.pc + 4 } ∧
      ∀ j d, j / 64 = k / 64 → j ≠ k → (s.slotAt j).ctx = some d → d.realigns c.launch c.gen = true →
        (t.slotAt j).ctx = some { d with st := .running, pc := d.pc + 4 }) ∧
    (∀ j d, j / 64 = k / 64 → j ≠ k → (s.slotAt j).ctx = some d → d.realigns c.launch c.gen = true →
        d.realignAt c.pc = false → (t.slotAt k).ctx = some { c with st := .realign (100 * n.toNat) s.time })

/-- When it is a firing's turn: LD, whose address sa + imm12 can be reached and whose bytes can be loaded, answers a
next state with sd set to the value read, sign-extended from 8 n bits for func3 0 to 3 and zero-extended for 4 to 6,
and the pc 4 further. LDX does the same at the sum of its two operands, for every queue flag on them, into a
register, and, flagged, takes a place in its scalar queue. PREF changes nothing but the pc. For a system or hub
core, whose physical addresses and whose trap at a reserved address are the model's (log entries 14, PRESUMED, and
113, DEDUCED): LD at an address of tier 4 whose line is correctable and, for a hub core, not reserved for the
kernel, reads memory on the core path, or, where a system core has its landing SRAM there (log entry 18), that; at a
reserved address a hub core takes the permission trap. (R301, R318, R324, R325, R330) -/
def Obligations.LoadsComplete : Prop :=
  (∀ (f : BitVec 3) (i : BitVec 12) (a d : BitVec 5) (s : State) (k : Nat) (c : Ctx) (p : Place) (x' x'' : Cx) (v : Nat),
    issuesIn s k c → (Instr.ld f i a d).wellFormed = true →
    (Cx.mk s (.slot k) c).reach .load true (c.sreg a + i.signExtend 64).toNat (2 ^ (f.toNat % 4)) = .ok (p, x') →
    x'.loadAt p (c.sreg a + i.signExtend 64).toNat (2 ^ (f.toNat % 4)) = .ok (v, x'') →
    exec (.ld f i a d) s = .next (wrote x''.s (.slot k) (x''.c.setS d
      (if f.toNat < 4 then BitVec.ofInt 64 (signed (8 * 2 ^ f.toNat) (v % 256 ^ 2 ^ f.toNat)) else BitVec.ofNat 64 v)) 4)) ∧
  (∀ (f : BitVec 3) (z y x : BitVec 1) (b a d : BitVec 5) (s : State) (k : Nat) (c : Ctx) (ua ub va vb w : Word)
      (x0 x1 x2 x3 x4 : Cx), issuesIn s k c → (Instr.ldx f z y x b a d).wellFormed = true →
    (Cx.mk s (.slot k) c).readSS y a z b = .ok (ua, ub, x0) →
    (Cx.mk s (.slot k) c).prepare false (ua + ub) (2 ^ (f.toNat % 4)) = .ok x1 →
    x1.readSS y a z b = .ok (va, vb, x2) →
    (x = 0 → x2.scalarLoad f (va + vb) = .ok (w, x3) → x3.writeS 0 d w = .ok x4 →
      exec (.ldx f z y x b a d) s = .next (wrote x4.s x4.who x4.c 4)) ∧
    (x = 1 → x2.queueLoadS f (va + vb) d.toNat = .ok x4 →
      exec (.ldx f z y x b a d) s = .next (wrote x4.s x4.who x4.c 4))) ∧
  (∀ (i : BitVec 12) (a : BitVec 5) (s : State) (who : Issuer) (c : Ctx), issues s who c →
    exec (.pref i a) s = .next (wrote s who c 4)) ∧
  (∀ (f : BitVec 3) (i : BitVec 12) (a d : BitVec 5) (s : State) (n : Nat) (c : Ctx), issues s (.sys n) c →
    (Instr.ld f i a d).wellFormed = true →
    (c.sreg a + i.signExtend 64).toNat % 2 ^ (f.toNat % 4) = 0 → (c.sreg a + i.signExtend 64).toNat < 0x9502F90000 →
    (n < 16 ∨ s.kernelFrame (c.sreg a + i.signExtend 64).toNat = false →
      s.badLines.contains (lineOf (c.sreg a + i.signExtend 64).toNat) = false →
    exec (.ld f i a d) s = .next (wrote s (.sys n) (c.setS d (loadExtend f.toNat (2 ^ (f.toNat % 4))
      (if n < 16 ∧ Config.inLanding n (c.sreg a + i.signExtend 64).toNat = true then
        gatherBytes (s.landingByte n) (c.sreg a + i.signExtend 64).toNat (2 ^ (f.toNat % 4))
      else s.readMem 0 (c.sreg a + i.signExtend 64).toNat (2 ^ (f.toNat % 4))))) 4)) ∧
    (16 ≤ n → s.kernelFrame (c.sreg a + i.signExtend 64).toNat = true →
      exec (.ld f i a d) s = .next (((Cx.mk s (.sys n) c).raise
        (Tables.trap 2 0 c.pc (c.sreg a + i.signExtend 64) 0)).settle (Issuer.sys n).number)))

/-- A load of n bytes in the own share, or at an unchecked home, to whose line no committed line of the firing is on
its way, and, at a home, at which none of its accesses is outstanding and to which nothing that its tile or it has
sent before is on its way, gives the little-endian number of its bytes, each from the firing's write buffer where
that holds it, then from the latest of what its committed lines and pending releases are still to write there, and
otherwise from the share or from the home; the context is unchanged. A byte of the share that only the firing itself
has written is what the share holds. A return-zero page gives 0. A return-poison page gives byte (address mod 8 + k)
of 0xDEADBEEFDEADBEEF for byte k and sets pz. (R95, R114, R158, R325, R326) -/
def Obligations.LoadBytes : Prop :=
  (∀ (x : Cx) (off va n : Nat), off + n ≤ 0x2000 → x.s.inFlight x.c.uid (shareBase + off) = false →
    x.loadAt (.share off) va n = .ok (gatherBytes (fun a => (x.c.region.buffered a).getD ((x.onWay a).getD (x.shareByte (a - shareBase))))
      (shareBase + off) n, x)) ∧
  (∀ (x : Cx) (off : Nat), x.c.uid ≠ 0 → (∀ u ∈ x.s.unseen, u.pa = shareKey x.c.uid off → u.uid = x.c.uid) →
    x.shareByte off = x.c.share.get off 0) ∧
  (∀ (x : Cx) (pa va n : Nat) (leaf : Word), pa + n ≤ shareBase → bit leaf 8 = false → x.s.inFlight x.c.uid pa = false →
    x.c.awaits pa n = false → x.behind pa = false → x.loadAt (.home pa leaf) va n =
      .ok (gatherBytes (fun a => (x.c.region.buffered a).getD ((x.onWay a).getD (x.s.readByte 0 a x.c.uid))) pa n, x)) ∧
  (∀ (x : Cx) (va n : Nat), x.loadAt .zero va n = .ok (0, x)) ∧
  (∀ (x : Cx) (va n : Nat), ∃ y : Cx, x.loadAt .poison va n =
    .ok (gatherBytes (fun a => BitVec.ofNat 8 (0xDEADBEEFDEADBEEF / 256 ^ (a % 8))) va n, y) ∧
    y.c.regs.status = x.c.regs.status ||| 0x2000 ∧ y.c.regs.s = x.c.regs.s ∧ y.s = x.s)

/-- When it is a firing's turn, ST of any size, whose address can be reached for a store and whose line, if it is
checked, is already claimed, answers a next state: the write buffer holds the low n bytes of the register at the
place's bytes, lowest first, every register is as before, and every byte of memory reads as before on every path,
for every reader. STX does the same at the sum of its operands for every queue flag, when its operands can be read.
(R114, R115, R116, R318, R327) -/
def Obligations.StoresBuffer : Prop :=
  (∀ (f : BitVec 2) (i : BitVec 12) (a r : BitVec 5) (s : State) (k : Nat) (c : Ctx) (p : Place) (x' : Cx),
    issuesIn s k c → (Instr.st f i a r).wellFormed = true →
    (Cx.mk s (.slot k) c).reach .store true (c.sreg a + i.signExtend 64).toNat (2 ^ f.toNat) = .ok (p, x') →
    (∀ l, p.checkedLine = some l → x'.checkLines [(l, lineOf (c.sreg a + i.signExtend 64).toNat)] true = .ok x') →
    ∃ y : Cx, exec (.st f i a r) s = .next (wrote y.s (.slot k) y.c 4) ∧
      (∀ j, j < 2 ^ f.toNat → y.c.region.buffered (p.key + j) = some (BitVec.ofNat 8 ((c.sreg r).toNat / 256 ^ j))) ∧
      y.c.regs = c.regs ∧ y.c.pc = c.pc ∧
      ∀ path pa me acc, pa < shareBase → y.s.readByte path pa me acc = s.readByte path pa me acc) ∧
  (∀ (f : BitVec 2) (z y x : BitVec 1) (b a r : BitVec 5) (s : State) (k : Nat) (c : Ctx) (ua ub va vb vc : Word)
      (x0 x1 x2 x3 x4 : Cx), issuesIn s k c → (Instr.stx f z y x b a r).wellFormed = true →
    let k0 := (Cx.mk s (.slot k) c).popRoom
      ((namesQueue y a).toList ++ (namesQueue z b).toList ++ (namesQueue x r).toList)
    k0.readSS y a z b = .ok (ua, ub, x0) → k0.prepare true (ua + ub) (2 ^ f.toNat) = .ok x1 →
    x1.readSS y a z b = .ok (va, vb, x2) →
    (if x = 1 ∧ y = 1 ∧ r = a then vc = va ∧ x3 = x2
      else if x = 1 ∧ z = 1 ∧ r = b then vc = vb ∧ x3 = x2 else x2.readS x r = .ok (vc, x3)) →
    x3.scalarStore f (va + vb) vc = .ok x4 →
    exec (.stx f z y x b a r) s = .next (wrote x4.s x4.who x4.c 4))

/-- For a firing with nothing outstanding, pending or on its way, every size and every address of the private alias
aligned to it whose lines are correctable: after ST of a register there (the next state of exec), LD of the same
size from the same address (with the same base register and immediate) answers a next state in which sd holds the
low bytes stored, sign-extended. (R158, R325, R329) -/
def Obligations.StoreThenLoad : Prop :=
  ∀ (f : BitVec 2) (i : BitVec 12) (a r d : BitVec 5) (s t : State) (k : Nat) (c : Ctx), issuesIn s k c →
    0xFFFFFFFFFFE000 ≤ (c.sreg a + i.signExtend 64).toNat → (c.sreg a + i.signExtend 64).toNat < 2 ^ 56 →
    (c.sreg a + i.signExtend 64).toNat % 2 ^ f.toNat = 0 → s.badLines = [] →
    c.loads = [] → c.pend = [] → (∀ g ∈ s.flights, g.origin.uid ≠ c.uid) → exec (.st f i a r) s = .next t →
    ∃ u c', exec (.ld (f.setWidth 3) i a d) t = .next u ∧ (u.slotAt k).ctx = some c' ∧
      c'.sreg d = if d = 0 then 0 else
        BitVec.ofInt 64 (signed (8 * 2 ^ f.toNat) ((c.sreg r).toNat % 256 ^ 2 ^ f.toNat))

/-- When it is a firing's turn and nothing is pending at it: LD and ST (and LDX and STX with register operands)
whose address is not a multiple of their size take the alignment trap: class 3, access 0 for a load and 1 for a
store, the address word the address, the detail word the size, and the resume address the instruction's own; the
firing stops, its trap joins the queue, and no register, queue or memory byte changes. (R324, R449) -/
def Obligations.MisalignedAccessTraps : Prop :=
  ∀ (s : State) (k : Nat) (c : Ctx) (va : Word) (n : Nat) (access : Nat) (ins : Instr),
    issuesIn s k c → c.pend = [] → ins.wellFormed = true →
    ((∃ f i a d, ins = .ld f i a d ∧ va = c.sreg a + BitVec.signExtend 64 i ∧ n = 2 ^ (f.toNat % 4) ∧ access = 0) ∨
      (∃ f i a r, ins = .st f i a r ∧ va = c.sreg a + BitVec.signExtend 64 i ∧ n = 2 ^ f.toNat ∧ access = 1) ∨
      (∃ f b a d, ins = .ldx f 0 0 0 b a d ∧ va = c.sreg a + c.sreg b ∧ n = 2 ^ (f.toNat % 4) ∧ access = 0) ∨
      (∃ f b a r, ins = .stx f 0 0 0 b a r ∧ va = c.sreg a + c.sreg b ∧ n = 2 ^ f.toNat ∧ access = 1)) →
    va.toNat % n ≠ 0 →
    exec ins s = .next (s.takeTrap (.slot k) c (Tables.trap 3 access c.pc va (BitVec.ofNat 64 n)))

/-- When it is a firing's turn, LD at an aligned address below the aliases that no entry of its core's TLB and of
its tile's TLB serves, with no answer of Drone's for that address at hand, leaves every register as it was and waits
for the translation of that address: exec answers the state in which the context is waiting and nothing else has
changed. With Drone's negative answer at hand it takes the translation trap where no leaf was found, and the
permission trap otherwise. (R107, R108, R109, R111, R318) -/
def Obligations.TranslationMissStalls : Prop :=
  ∀ (f : BitVec 3) (i : BitVec 12) (a d : BitVec 5) (s : State) (k : Nat) (c : Ctx), issuesIn s k c → c.pend = [] →
    (Instr.ld f i a d).wellFormed = true →
    let ea := (c.sreg a + i.signExtend 64).toNat
    ea % 2 ^ (f.toNat % 4) = 0 → ea < 0xFFFFFFFFFFC000 →
    (tlbFind (s.coreAt (coreOf k)).tlb c.asn ea ((s.coreAt (coreOf k)).pageBit ea)).filter (s.usable · .load ea) = none →
    (tlbFind (s.tileAt (tileOf (coreOf k))).tlb c.asn ea ((s.coreAt (coreOf k)).pageBit ea)).filter (s.usable · .load ea) =
      none →
    (c.verdictAt ea = none → exec (.ld f i a d) s = .next (s.putCtx (.slot k) { c with st := .missing ea 0 })) ∧
    (∀ ans, c.verdictAt ea = some ans → exec (.ld f i a d) s = .next (s.takeTrap (.slot k) c
      (Tables.trap (if ans.isNone then 1 else 2) 0 c.pc (BitVec.ofNat 64 ea)
        (ans.getD (BitVec.ofNat 64 (2 ^ (f.toNat % 4)))))))

/-- When it is a firing's turn, CMT answers the next state at pc + 4 with a new region and an empty write buffer;
memory is not written and no register changes. Where lines of the own share have nothing to wait for (no outstanding
load, no line of the slot on its way, no release of its own to the share pending), the lines of the own share that
stand before every other line in the buffer are performed at once: each of their bytes stands in the share and every
other byte of it is unchanged (for a buffer with one entry per line, as stores make it), paths need not see that at
once, and the other buffered lines have joined the lines in flight, oldest first, after those already there.
Otherwise all buffered lines have joined them so, and the share is unchanged. (R114, R115, R116, R159, R406) -/
def Obligations.CommitMovesTheBuffer : Prop :=
  ∀ (s : State) (k : Nat) (c : Ctx), issuesIn s k c →
    ∃ t c', exec .cmt s = .next t ∧ (t.slotAt k).ctx = some c' ∧ c'.pc = c.pc + 4 ∧ c'.regs = c.regs ∧
      c'.region = { start := c.pc + 4, snap := c.regs, vsnap := [] } ∧ t.mem = s.mem ∧
      (∀ u, u.pa < shareBase → (u ∈ t.unseen ↔ u ∈ s.unseen)) ∧
      ((Cx.mk s (.slot k) c).shareWaits (c.loads.map (·.id)) = false →
        t.flights.map (·.line) = s.flights.map (·.line) ++ c.region.wbuf.dropWhile (fun l => decide (shareBase ≤ l.home)) ∧
        (c.region.wbuf.Pairwise (fun l m => l.home ≠ m.home) → (∀ l ∈ c.region.wbuf, l.home % 64 = 0) →
          ∀ off, off < 0x2000 → c'.share.get off 0 =
            ({ c.region with wbuf := c.region.wbuf.takeWhile fun l => decide (shareBase ≤ l.home) }.buffered
              (shareBase + off)).getD (c.share.get off 0))) ∧
      ((Cx.mk s (.slot k) c).shareWaits (c.loads.map (·.id)) = true →
        t.flights.map (·.line) = s.flights.map (·.line) ++ c.region.wbuf ∧ c'.share = c.share ∧ t.unseen = s.unseen)

/-- When it is a firing's turn: ALLOC commits the region and writes to sd the status of the allocation where that is
not 0, and otherwise the block's virtual address, with the block live and charged. The status is BADTIER (4) for a
tier outside 1 to 5, else BADSIZE (3) for a size of 0 or above 2^21, else QUOTA (1) where the charge would pass the
quota. FREE of an address that is no live block of the address space writes 1 and changes nothing else but the
commit; of a live block it frees it and writes 0. Both go on to pc + 4 with a new region. A block taken from a free
list for a class is at the lowest offset among the free blocks of the smallest class not below it; what is left is
the free list without that block, with one block of each class from the one asked for up to the one below the split
block's, at the offsets that follow; no block is given only where no free block is of the class or larger. (R100,
R101, R102, R331, R333) -/
def Obligations.Allocation : Prop :=
  (∀ (t : BitVec 12) (a d : BitVec 5) (s : State) (k : Nat) (c : Ctx) (l : Launch), issuesIn s k c →
    let x := (Cx.mk s (.slot k) c).commit
    x.s.launchOf x.c.launch x.c.gen = some l →
    (∀ st, x.s.allocate l (coreOf k) c.asn t.toNat (c.sreg a).toNat = .error st →
      ∃ y : Cx, exec (.alloc t a d) s = .next y.put ∧ y.who = .slot k ∧ y.c.regs = (c.setS d (BitVec.ofNat 64 st)).regs ∧
        y.c.pc = c.pc + 4 ∧ y.s = x.s.countT3 (coreOf k) t.toNat) ∧
    (∀ off p, x.s.allocate l (coreOf k) c.asn t.toNat (c.sreg a).toNat = .ok (off, p) →
      ∃ y : Cx, exec (.alloc t a d) s = .next y.put ∧ y.who = .slot k ∧ y.c.pc = c.pc + 4 ∧
        y.c.regs = (c.setS d (BitVec.ofNat 64 (((p.views.find? (·.1 == c.asn)).map (·.2)).getD 0 + off))).regs ∧
        y.s = x.s.takeLive x.c l p off (classLg (c.sreg a).toNat))) ∧
  (∀ (s : State) (l : Launch) (core asn t n : Nat),
    (t = 0 ∨ 5 < t → s.allocate l core asn t n = .error 4) ∧
    (1 ≤ t → t ≤ 5 → n = 0 ∨ 2 ^ 21 < n → s.allocate l core asn t n = .error 3) ∧
    (1 ≤ t → t ≤ 5 → 1 ≤ n → n ≤ 2 ^ 21 → l.quota.getD (t - 1) 0 ≠ 0xFFFFFFFF →
      l.quota.getD (t - 1) 0 * 65536 < l.charge.get t 0 + 2 ^ classLg n → s.allocate l core asn t n = .error 1)) ∧
  (∀ (a d : BitVec 5) (s : State) (k : Nat) (c : Ctx), issuesIn s k c → (Instr.free a d).wellFormed = true →
    let x := (Cx.mk s (.slot k) c).commit
    ∃ y : Cx, exec (.free a d) s = .next y.put ∧ y.who = .slot k ∧ y.c.pc = c.pc + 4 ∧
      (x.s.liveAt c.asn (c.sreg a).toNat = none → y.c.regs = (c.setS d 1).regs ∧ y.s = x.s) ∧
      (∀ p b, x.s.liveAt c.asn (c.sreg a).toNat = some (p, b) →
        y.c.regs = (c.setS d 0).regs ∧ y.s = x.s.release p b)) ∧
  (∀ (free : List (Nat × Nat)) (lg : Nat),
    (takeBlock free lg = none ↔ ∀ b ∈ free, b.2 < lg) ∧
    (∀ off rest, takeBlock free lg = some (off, rest) → ∃ m, (off, m) ∈ free ∧ lg ≤ m ∧
      (∀ b ∈ free, lg ≤ b.2 → m ≤ b.2) ∧ (∀ b ∈ free, b.2 = m → off ≤ b.1) ∧
      rest = free.filter (fun b => !(b.1 == off && b.2 == m)) ++
        (List.range (m - lg)).map fun i => (off + 2 ^ (lg + i), lg + i)))

namespace Sys2Proof.Tables

/-- In every lane of a type, a vector holds `f` where the mask enables the lane, and the lane of `old` elsewhere (R344). -/
def lanesAre (t : Nat) (m : Word) (old v : Vec) (f : Nat → Nat) : Prop :=
  ∀ j, j < laneCount t → lane v (laneWidth t) j =
    if enabled m j then f j % 2 ^ laneWidth t else lane old (laneWidth t) j

/-- The flags of the enabled lanes, joined (R346). -/
def flagsOf (t : Nat) (m : Word) (g : Nat → Nat) : Nat :=
  (List.range (laneCount t)).foldl (fun a j => if enabled m j then a ||| g j else a) 0

/-- A vector destination takes a value: a register, or a queue with room. -/
def roomV (c : Ctx) (d : BitVec 5) : Prop := d.toNat < 16 ∨ (c.regs.vq.get (d.toNat - 16) []).length < 4

/-- Compact operations with two sources: the 16-bit form, whether float types are illegal, the 32-bit form, and the lane
function of type, rounding mode, a, b and the lane of v15 (R348). -/
def compact : List ((BitVec 3 → BitVec 4 → BitVec 4 → Instr) × Bool ×
    (BitVec 3 → BitVec 3 → BitVec 5 → BitVec 5 → BitVec 5 → Instr) × (Nat → Nat → Nat → Nat → Nat → Nat × Nat)) :=
  [(.vadd16, false, .vadd32, fun t rm a b _ => laneAdd t rm a b), (.vsub16, false, .vsub32, fun t rm a b _ => laneSub t rm a b),
   (.vrsub16, false, .vrsub32, fun t rm a b _ => laneSub t rm b a), (.vmul16, false, .vmul32, fun t rm a b _ => laneMul t rm a b),
   (.vmin16, false, .vmin32, fun t _ a b _ => (laneMin t a b, 0)), (.vmax16, false, .vmax32, fun t _ a b _ => (laneMax t a b, 0)),
   (.vand16, false, .vand32, fun _ _ a b _ => (a &&& b, 0)), (.vor16, false, .vor32, fun _ _ a b _ => (a ||| b, 0)),
   (.vxor16, false, .vxor32, fun _ _ a b _ => (a ^^^ b, 0)),
   (.vshl16, true, .vshl32, fun t _ a b _ => (a * 2 ^ (b % laneWidth t), 0)),
   (.vshr16, true, .vshr32, fun t _ a b _ => (a / 2 ^ (b % laneWidth t), 0)),
   (.vsra16, true, .vsra32, fun t _ a b _ => (toLane (laneWidth t) (signed (laneWidth t) a / 2 ^ (b % laneWidth t)), 0)),
   (.vfmak16, false, .vfmak32, fun t rm a b k => laneFma t rm b k a)]

/-- Operations with one source: the 16-bit forms (R348). -/
def compactUnary : List ((BitVec 3 → BitVec 4 → BitVec 4 → Instr) × (Nat → Nat → Nat)) :=
  [(.vmov16, fun _ a => a), (.vabs16, laneAbs), (.vneg16, laneNeg)]

/-- Operations with one source: the 32-bit forms (R348, R352). -/
def vectorUnary : List ((BitVec 3 → BitVec 3 → BitVec 5 → BitVec 5 → Instr) × (Nat → Nat → Nat × Nat)) :=
  [(.vmov32, fun _ a => (a, 0)), (.vabs32, fun t a => (laneAbs t a, 0)), (.vneg32, fun t a => (laneNeg t a, 0)),
   (.vnot, fun t a => (2 ^ laneWidth t - 1 - a, 0)), (.vexp2, transc exp2Raw), (.vlog2, transc log2Raw),
   (.vrcp, transc rcpRaw), (.vrsq, transc rsqRaw)]

/-- The fused multiply-adds (R350). -/
def fusedOps : List ((BitVec 3 → BitVec 3 → BitVec 4 → BitVec 5 → BitVec 5 → BitVec 5 → Instr) ×
    (Nat → Nat → Nat → Nat → Nat → Nat × Nat)) := [(.vfma, laneFma), (.vfms, laneFms), (.vfnma, laneFnma)]

/-- The reductions (R357): the result and the flags from the type, the rounding mode and the enabled lanes. -/
def reductions : List ((BitVec 3 → BitVec 3 → BitVec 1 → BitVec 5 → BitVec 5 → Instr) ×
    (Nat → Nat → List Nat → Word × Nat)) :=
  [(.vredAdd, redAdd), (.vredMin, fun t _ l => redExtreme false t l), (.vredMax, fun t _ l => redExtreme true t l),
   (.vredAnd, fun t _ l => (BitVec.ofNat 64 (l.foldl (· &&& ·) (2 ^ laneWidth t - 1)), 0)),
   (.vredOr, fun _ _ l => (BitVec.ofNat 64 (l.foldl (· ||| ·) 0), 0)),
   (.vredXor, fun _ _ l => (BitVec.ofNat 64 (l.foldl (· ^^^ ·) 0), 0))]

/-- The prefixes (R355). -/
def prefixes : List ((BitVec 3 → BitVec 3 → BitVec 5 → BitVec 5 → Instr) × (Nat → Nat → Nat → Nat → Nat × Nat)) :=
  [(.vscanpAdd, laneAdd), (.vscanpMin, fun t _ a b => (laneMin t a b, 0)), (.vscanpMax, fun t _ a b => (laneMax t a b, 0))]

/-- The running value of a prefix after some lanes: the first as it is, each later one joined to it (R355). -/
def running (op : Nat → Nat → Nat × Nat) (first : Nat → Nat) : List Nat → Nat
  | [] => 0
  | a :: l => l.foldl (fun s b => (op s b).1) (first a)

/-- The mask operations with two sources (R362). -/
def maskOps : List ((BitVec 5 → BitVec 5 → BitVec 5 → Instr) × (Word → Word → Word)) :=
  [(.mand, fun a b => a &&& b), (.mor, fun a b => a ||| b), (.mxor, fun a b => a ^^^ b)]

/-- The `UNPK` kinds: lanes written, and lane i from the source (R360). -/
def unpacks : List ((BitVec 3 → BitVec 5 → BitVec 5 → Instr) × Nat × (Nat → Nat → Int)) :=
  [(.unpkI8, 8, fun v i => signed 8 (v / 256 ^ i % 256)), (.unpkN8, 8, fun v i => ((v / 256 ^ i % 256 : Nat) : Int)),
   (.unpkI4, 16, fun v i => signed 4 (v / 16 ^ i % 16)), (.unpkN4, 16, fun v i => ((v / 16 ^ i % 16 : Nat) : Int))]

end Sys2Proof.Tables

/-- When it is a firing's turn, each 16-bit form (VADD, VSUB, VRSUB, VMUL, VMIN, VMAX, VAND, VOR, VXOR, VSHL, VSHR,
VSRA, VFMAK, and VMOV, VABS, VNEG), in the lane type of cr.status.ltype, answers a next state in which vd holds in
every enabled lane the operation of R348 on the lanes of vd (a) and vs (b) (of vs alone for VMOV, VABS, VNEG) and is
unchanged in the others, the flags of the enabled lanes are set in cr.status, the pc is 2 further, and nothing else
has changed. The shifts need an integer lane type. (R292, R293, R344, R346, R348, R349) -/
def Obligations.CompactOperations16 : Prop :=
  ∀ (s : State) (k : Nat) (c : Ctx) (m : BitVec 3) (vs vd : BitVec 4), issuesIn s k c →
    let t := statusLtype c.regs.status
    let w := laneWidth t
    let mask := c.mask m.toNat
    (∀ p ∈ Tables.compact, (p.2.1 = true → laneFloat t = false) → ∃ v,
      Tables.lanesAre t mask (c.vreg vd.toNat) v (fun j => (p.2.2.2 t (statusRm c.regs.status)
        (lane (c.vreg vd.toNat) w j) (lane (c.vreg vs.toNat) w j) (lane (c.vreg 15) w j)).1) ∧
      exec (p.1 m vs vd) s = .next (wrote s (.slot k) ((c.raiseFlags (Tables.flagsOf t mask fun j =>
        (p.2.2.2 t (statusRm c.regs.status) (lane (c.vreg vd.toNat) w j) (lane (c.vreg vs.toNat) w j)
          (lane (c.vreg 15) w j)).2)).setV vd.toNat v) 2)) ∧
    (∀ p ∈ Tables.compactUnary, ∃ v,
      Tables.lanesAre t mask (c.vreg vd.toNat) v (fun j => p.2 t (lane (c.vreg vs.toNat) w j)) ∧
      exec (p.1 m vs vd) s = .next (wrote s (.slot k) (c.setV vd.toNat v) 2))

/-- When it is a firing's turn, and the vector sources can be read (a queue supplies its oldest entry), and the
destination is a register or a queue with room: each 32-bit compact operation, VFMA, VFMS and VFNMA, VNOT and the
transcendentals answer a next state in which the destination holds, in every enabled lane, the operation's result on
the lanes read (with the lanes of v15 or of vc as they stood), and in every other lane the prior value (zero for a
queue), the flags of the enabled lanes are set, and the pc is 4 further. (R303, R344, R345, R346, R348, R349, R350,
R352) -/
def Obligations.CompactOperations32 : Prop :=
  ∀ (s : State) (k : Nat) (c : Ctx) (t m : BitVec 3) (b a d : BitVec 5), issuesIn s k c →
    let w := laneWidth t.toNat
    let rm := statusRm c.regs.status
    (∀ p ∈ Tables.compact, (p.2.2.1 t m b a d).wellFormed = true → ∀ va vb x,
      (Cx.mk s (.slot k) c).readVV a b = .ok (va, vb, x) → Tables.roomV x.c d →
      ∃ (v : Vec) (y : Cx), Tables.lanesAre t.toNat (x.c.mask m.toNat) (x.c.prior d) v
          (fun j => (p.2.2.2 t.toNat rm (lane va w j) (lane vb w j) (lane (x.c.vreg 15) w j)).1) ∧
        Cx.writeV { x with c := x.c.raiseFlags (Tables.flagsOf t.toNat (x.c.mask m.toNat) fun j =>
          (p.2.2.2 t.toNat rm (lane va w j) (lane vb w j) (lane (x.c.vreg 15) w j)).2) } d v = .ok y ∧
        exec (p.2.2.1 t m b a d) s = .next (wrote y.s (.slot k) y.c 4)) ∧
    (∀ p ∈ Tables.fusedOps, ∀ r : BitVec 4, (p.1 t m r b a d).wellFormed = true → ∀ va vb x,
      (Cx.mk s (.slot k) c).readVV a b = .ok (va, vb, x) → Tables.roomV x.c d →
      ∃ (v : Vec) (y : Cx), Tables.lanesAre t.toNat (x.c.mask m.toNat) (x.c.prior d) v
          (fun j => (p.2 t.toNat rm (lane va w j) (lane vb w j) (lane (x.c.vreg r.toNat) w j)).1) ∧
        Cx.writeV { x with c := x.c.raiseFlags (Tables.flagsOf t.toNat (x.c.mask m.toNat) fun j =>
          (p.2 t.toNat rm (lane va w j) (lane vb w j) (lane (x.c.vreg r.toNat) w j)).2) } d v = .ok y ∧
        exec (p.1 t m r b a d) s = .next (wrote y.s (.slot k) y.c 4)) ∧
    (∀ p ∈ Tables.vectorUnary, (p.1 t m a d).wellFormed = true → ∀ va x,
      (Cx.mk s (.slot k) c).readV a = .ok (va, x) → Tables.roomV x.c d →
      ∃ (v : Vec) (y : Cx), Tables.lanesAre t.toNat (x.c.mask m.toNat) (x.c.prior d) v
          (fun j => (p.2 t.toNat (lane va w j)).1) ∧
        Cx.writeV { x with c := x.c.raiseFlags (Tables.flagsOf t.toNat (x.c.mask m.toNat) fun j =>
          (p.2 t.toNat (lane va w j)).2) } d v = .ok y ∧
        exec (p.1 t m a d) s = .next (wrote y.s (.slot k) y.c 4))

/-- When it is a firing's turn, and the vector sources can be read and the destination has room, exec answers the
next state at pc + 4 in which: VSEL writes every lane from va where the mask is set, else from vb; VPERM takes the
lane of va that the low bits of vb's lane name; VSLIDE.up and .dn move lanes by sb, with zeros beyond; VCOMPRESS
packs the enabled lanes from lane 0 up, then zeros; VADDS adds sgn(vb) × va to each lane of the prior vd, in .i32
two 16-bit pairs a lane; VIOTA writes j (for floating types the encoding of the exact number j); VBCAST writes every
lane from sa, VINS one lane; VEXT writes one lane to sd, sign-extended for the .i types. No flag changes. (R344,
R352, R354, R356, R359) -/
def Obligations.LaneStructure : Prop :=
  ∀ (s : State) (k : Nat) (c : Ctx) (t m : BitVec 3) (b a d : BitVec 5), issuesIn s k c →
    let T := t.toNat
    let w := laneWidth T
    (∀ va vb x, (Cx.mk s (.slot k) c).readVV a b = .ok (va, vb, x) → Tables.roomV x.c d →
      ((Instr.vsel t m b a d).wellFormed = true → ∃ (v : Vec) (y : Cx), Tables.lanesAre T (BitVec.allOnes 64) 0 v
          (fun j => if enabled (x.c.mask m.toNat) j then lane va w j else lane vb w j) ∧ x.writeV d v = .ok y ∧
        exec (.vsel t m b a d) s = .next (wrote y.s (.slot k) y.c 4)) ∧
      ((Instr.vperm t m b a d).wellFormed = true → ∃ (v : Vec) (y : Cx),
        Tables.lanesAre T (x.c.mask m.toNat) (x.c.prior d) v (fun j => lane va w (lane vb w j % laneCount T)) ∧
        x.writeV d v = .ok y ∧ exec (.vperm t m b a d) s = .next (wrote y.s (.slot k) y.c 4)) ∧
      ((Instr.vadds t m b a d).wellFormed = true → ∃ (v : Vec) (y : Cx),
        Tables.lanesAre T (x.c.mask m.toNat) (x.c.prior d) v (fun j =>
          let g (i : Nat) : Int := Int.sign (signed 16 (lane vb 16 i)) * signed 16 (lane va 16 i)
          if T = 4 then ((signed 16 (lane (x.c.prior d) 16 j) + g j) % 2 ^ 16).toNat
          else ((signed 32 (lane (x.c.prior d) 32 j) + g (2 * j) + g (2 * j + 1)) % 2 ^ 32).toNat) ∧
        x.writeV d v = .ok y ∧ exec (.vadds t m b a d) s = .next (wrote y.s (.slot k) y.c 4))) ∧
    (∀ va x, (Cx.mk s (.slot k) c).readV a = .ok (va, x) →
      (Tables.roomV x.c d → (Instr.vslideUp t m b a d).wellFormed = true → ∃ (v : Vec) (y : Cx),
        Tables.lanesAre T (x.c.mask m.toNat) (x.c.prior d) v
          (fun j => if (c.sreg b).toNat ≤ j then lane va w (j - (c.sreg b).toNat) else 0) ∧
        x.writeV d v = .ok y ∧ exec (.vslideUp t m b a d) s = .next (wrote y.s (.slot k) y.c 4)) ∧
      (Tables.roomV x.c d → (Instr.vslideDn t m b a d).wellFormed = true → ∃ (v : Vec) (y : Cx),
        Tables.lanesAre T (x.c.mask m.toNat) (x.c.prior d) v
          (fun j => if j + (c.sreg b).toNat < laneCount T then lane va w (j + (c.sreg b).toNat) else 0) ∧
        x.writeV d v = .ok y ∧ exec (.vslideDn t m b a d) s = .next (wrote y.s (.slot k) y.c 4)) ∧
      (Tables.roomV x.c d → (Instr.vcompress t m a d).wellFormed = true → ∃ (v : Vec) (y : Cx),
        Tables.lanesAre T (BitVec.allOnes 64) 0 v
          (fun j => ((enabledLanes T va (x.c.mask m.toNat))[j]?).getD 0) ∧
        x.writeV d v = .ok y ∧ exec (.vcompress t m a d) s = .next (wrote y.s (.slot k) y.c 4)) ∧
      ((Instr.vext t b a d).wellFormed = true → exec (.vext t b a d) s = .next (wrote x.s (.slot k) (x.c.setS d
        (let l := lane va w ((c.sreg b).toNat % laneCount T)
         if T = 3 ∨ T = 4 then BitVec.ofInt 64 (signed w l) else BitVec.ofNat 64 l)) 4))) ∧
    (Tables.roomV c d →
      ((Instr.viota t m d).wellFormed = true → ∃ (v : Vec) (y : Cx), Tables.lanesAre T (c.mask m.toNat) (c.prior d) v
          (fun j => if T ≤ 2 then (fmtOf T).rne (.fin false j 0) else j) ∧ (Cx.mk s (.slot k) c).writeV d v = .ok y ∧
        exec (.viota t m d) s = .next (wrote y.s (.slot k) y.c 4)) ∧
      ((Instr.vbcast t a d).wellFormed = true → ∃ (v : Vec) (y : Cx), Tables.lanesAre T (BitVec.allOnes 64) 0 v
          (fun _ => (c.sreg a).toNat) ∧ (Cx.mk s (.slot k) c).writeV d v = .ok y ∧
        exec (.vbcast t a d) s = .next (wrote y.s (.slot k) y.c 4)) ∧
      ((Instr.vins t b a d).wellFormed = true → ∃ (v : Vec) (y : Cx),
        (∀ j, j < laneCount T → lane v w j = if j = (c.sreg b).toNat % laneCount T then (c.sreg a).toNat % 2 ^ w
          else lane (c.prior d) w j) ∧ (Cx.mk s (.slot k) c).writeV d v = .ok y ∧
        exec (.vins t b a d) s = .next (wrote y.s (.slot k) y.c 4)))

/-- When it is a firing's turn, the source can be read and the destination has room, exec answers the next state at
pc + 4 in which: VCVT has written each enabled lane below the lesser lane count with the converted lane and set the
flags of those lanes, and left every other lane; UNPK.i8, .n8, .i4 and .n4 have written 8 or 16 16-bit lanes from
lane8 × 8 up with the sign- or zero-extended bytes or nibbles of sa, and left the others; UNPK.t5 has written 40
lanes with the trits of the eight bytes (0 from a byte of 243 or more), and, where some byte is 243 or more and tx
was clear, set tx and put the position of the lowest such byte into txpos. (R197, R344, R353, R360, R361) -/
def Obligations.ConversionsAndUnpacking : Prop :=
  ∀ (s : State) (k : Nat) (c : Ctx) (a d : BitVec 5), issuesIn s k c →
    (∀ (t m q : BitVec 3) (va : Vec) (x : Cx), (Instr.vcvt t m q a d).wellFormed = true →
      (Cx.mk s (.slot k) c).readV a = .ok (va, x) → Tables.roomV x.c d →
      let n := min (laneCount t.toNat) (laneCount q.toNat)
      let f := fun j => convert t.toNat q.toNat (statusRm c.regs.status) (lane va (laneWidth q.toNat) j)
      ∃ (v : Vec) (fl : Nat) (y : Cx), (∀ j, j < laneCount t.toNat → lane v (laneWidth t.toNat) j =
          if j < n ∧ enabled (x.c.mask m.toNat) j then (f j).1 % 2 ^ laneWidth t.toNat
          else lane (x.c.prior d) (laneWidth t.toNat) j) ∧
        (∀ i, fl.testBit i = true ↔ ∃ j, j < n ∧ enabled (x.c.mask m.toNat) j = true ∧ (f j).2.testBit i = true) ∧
        Cx.writeV { x with c := x.c.raiseFlags fl } d v = .ok y ∧
        exec (.vcvt t m q a d) s = .next (wrote y.s (.slot k) y.c 4)) ∧
    (∀ p ∈ Tables.unpacks, ∀ (l : BitVec 3), (p.1 l a d).wellFormed = true → Tables.roomV c d →
      ∃ (v : Vec) (y : Cx), (∀ j, j < 64 → lane v 16 j =
          if l.toNat * 8 ≤ j ∧ j < l.toNat * 8 + p.2.1 then (p.2.2 (c.sreg a).toNat (j - l.toNat * 8) % 2 ^ 16).toNat
          else lane (c.prior d) 16 j) ∧
        (Cx.mk s (.slot k) c).writeV d v = .ok y ∧ exec (p.1 l a d) s = .next (wrote y.s (.slot k) y.c 4)) ∧
    (∀ (l : BitVec 3), (Instr.unpkT5 l a d).wellFormed = true → Tables.roomV c d →
      let byte (b : Nat) := (c.sreg a).toNat / 256 ^ b % 256
      ∃ (v : Vec) (c' : Ctx) (y : Cx), (∀ j, j < 64 → lane v 16 j =
          if l.toNat * 8 ≤ j ∧ j < l.toNat * 8 + 40 then
            let x := byte ((j - l.toNat * 8) / 5)
            (if 243 ≤ x then 0 else [0, 1, 0xFFFF].getD (x / 3 ^ ((j - l.toNat * 8) % 5) % 3) 0)
          else lane (c.prior d) 16 j) ∧
        c' = { c with regs := { c.regs with status := c'.regs.status } } ∧
        ((∀ b, b < 8 → byte b < 243) ∨ bit c.regs.status 14 = true → c'.regs.status = c.regs.status) ∧
        (bit c.regs.status 14 = false → ∀ b, b < 8 → 243 ≤ byte b → (∀ e, e < b → byte e < 243) →
          bit c'.regs.status 14 = true ∧ field c'.regs.status 15 3 = b ∧
          ∀ i, i < 64 → i ≠ 14 → ¬(15 ≤ i ∧ i < 18) → bit c'.regs.status i = bit c.regs.status i) ∧
        Cx.writeV ⟨s, .slot k, c'⟩ d v = .ok y ∧ exec (.unpkT5 l a d) s = .next (wrote y.s (.slot k) y.c 4))

/-- When it is a firing's turn: VCMP, with its sources read, sets bit j of md exactly where lane j is below N,
enabled, and its comparison holds, and changes no flag; MAND, MOR, MXOR and MNOT write md from all 64 bits; MPOP
writes to sd the number of set bits among bits N − 1:0; VTYPE sets cr.status.ltype and no other bit. Each answers
that next state at pc + 4. (R293, R298, R351, R362, R363) -/
def Obligations.MasksAndCompares : Prop :=
  ∀ (s : State) (k : Nat) (c : Ctx), issuesIn s k c →
    (∀ (t m : BitVec 3) (o : BitVec 4) (b a d : BitVec 5) (va vb : Vec) (x : Cx),
      (Instr.vcmp t m o b a d).wellFormed = true → (Cx.mk s (.slot k) c).readVV a b = .ok (va, vb, x) →
      ∃ r : Word, (∀ j, j < 64 → (r.getLsbD j = true ↔ j < laneCount t.toNat ∧ enabled (x.c.mask m.toNat) j = true ∧
          laneCompare o.toNat t.toNat (lane va (laneWidth t.toNat) j) (lane vb (laneWidth t.toNat) j) = true)) ∧
        exec (.vcmp t m o b a d) s = .next (wrote x.s (.slot k) (x.c.setM d.toNat r) 4)) ∧
    (∀ p ∈ Tables.maskOps, ∀ (b a d : BitVec 5), (p.1 b a d).wellFormed = true →
      exec (p.1 b a d) s = .next (wrote s (.slot k) (c.setM d.toNat (p.2 (c.mask a.toNat) (c.mask b.toNat))) 4)) ∧
    (∀ (a d : BitVec 5), (Instr.mnot a d).wellFormed = true →
      exec (.mnot a d) s = .next (wrote s (.slot k) (c.setM d.toNat (~~~c.mask a.toNat)) 4)) ∧
    (∀ (t : BitVec 3) (a d : BitVec 5), (Instr.mpop t a d).wellFormed = true →
      exec (.mpop t a d) s = .next (wrote s (.slot k) (c.setS d (BitVec.ofNat 64
        ((List.range (laneCount t.toNat)).filter fun j => (c.mask a.toNat).getLsbD j).length)) 4)) ∧
    (∀ (t : BitVec 3), (Instr.vtype t).wellFormed = true → ∃ st : Word, statusLtype st = t.toNat ∧
      (∀ i, i < 64 → ¬(2 ≤ i ∧ i < 5) → bit st i = bit c.regs.status i) ∧
      exec (.vtype t) s = .next (wrote s (.slot k) (c.setStatus st) 4))

/-- When it is a firing's turn, the vector sources can be read, and the destination (a register, or a scalar queue
with room) can be written: VRED.add, .min, .max, .and, .or and .xor and VDOT answer the next state at pc + 4 in
which the destination holds the reduction of the enabled lanes in ascending order and its flags are set. For integer
types, VRED.add is the sum of the extended lanes and VDOT the sum of the products of the extended lanes, modulo
2^64. (R289, R345, R357, R358) -/
def Obligations.Reductions : Prop :=
  ∀ (s : State) (k : Nat) (c : Ctx) (t m : BitVec 3) (q : BitVec 1) (a d : BitVec 5), issuesIn s k c →
    let rm := statusRm c.regs.status
    (∀ p ∈ Tables.reductions, (p.1 t m q a d).wellFormed = true → ∀ va x y,
      (Cx.mk s (.slot k) c).readV a = .ok (va, x) →
      Cx.writeS { x with c := x.c.raiseFlags (p.2 t.toNat rm (enabledLanes t.toNat va (x.c.mask m.toNat))).2 } q d
        (p.2 t.toNat rm (enabledLanes t.toNat va (x.c.mask m.toNat))).1 = .ok y →
      exec (p.1 t m q a d) s = .next (wrote y.s (.slot k) y.c 4)) ∧
    (∀ b, (Instr.vdot t m q b a d).wellFormed = true → ∀ va vb x y,
      (Cx.mk s (.slot k) c).readVV a b = .ok (va, vb, x) →
      (let r := redDot t.toNat rm ((enabledLanes t.toNat va (x.c.mask m.toNat)).zip
          (enabledLanes t.toNat vb (x.c.mask m.toNat)))
       Cx.writeS { x with c := x.c.raiseFlags r.2 } q d r.1 = .ok y) →
      exec (.vdot t m q b a d) s = .next (wrote y.s (.slot k) y.c 4)) ∧
    (3 ≤ t.toNat → t.toNat ≤ 6 → ∀ va vb : Vec, ∀ mask : Word,
      redAdd t.toNat rm (enabledLanes t.toNat va mask) = (BitVec.ofInt 64
        (((List.range (laneCount t.toNat)).map fun j =>
          if enabled mask j then laneInt t.toNat (lane va (laneWidth t.toNat) j) else 0).sum), 0) ∧
      redDot t.toNat rm ((enabledLanes t.toNat va mask).zip (enabledLanes t.toNat vb mask)) = (BitVec.ofInt 64
        (((List.range (laneCount t.toNat)).map fun j => if enabled mask j then
          laneInt t.toNat (lane va (laneWidth t.toNat) j) * laneInt t.toNat (lane vb (laneWidth t.toNat) j)
          else 0).sum), 0))

/-- When it is a firing's turn, the source can be read and the destination has room: VSCANP.add, .min and .max
answer the next state at pc + 4 in which each enabled lane j holds the running value over the enabled lanes 0 to j
(the first as it is, a NaN canonical; each later one joined by the operation in the rounding mode), and each
disabled lane is unchanged. (R355) -/
def Obligations.InclusivePrefix : Prop :=
  ∀ (s : State) (k : Nat) (c : Ctx) (t m : BitVec 3) (a d : BitVec 5), issuesIn s k c →
    ∀ p ∈ Tables.prefixes, (p.1 t m a d).wellFormed = true → ∀ va x,
    (Cx.mk s (.slot k) c).readV a = .ok (va, x) → Tables.roomV x.c d →
    let mask := x.c.mask m.toNat
    let w := laneWidth t.toNat
    ∃ (v : Vec) (fl : Nat) (y : Cx), Tables.lanesAre t.toNat mask (x.c.prior d) v (fun j =>
        Tables.running (p.2 t.toNat (statusRm c.regs.status)) (canonical t.toNat)
          (((List.range (j + 1)).filter (enabled mask)).map (lane va w))) ∧
      (laneFloat t.toNat = false → fl = 0) ∧
      Cx.writeV { x with c := x.c.raiseFlags fl } d v = .ok y ∧
      exec (p.1 t m a d) s = .next (wrote y.s (.slot k) y.c 4)

/-- For VADD (32-bit form) and for VSLIDE.up, whose distance is a scalar operand, of any type, mask and operands:
where a vector source queue is empty or its oldest entry is outstanding, the scalar stream goes on (pc + 4) and the
instruction waits as the newest of the forwarded ones, with its scalar operand and the cr.status of its place in
program order; nothing else changes. Behind forwarded instructions it is forwarded likewise (VSLIDE.up unless one of
them is still to write its operand). On the vector stream's turn, the oldest forwarded instruction, once its sources
can be read, none of the registers that it reads is still to receive a value, and its destination has room, leaves
the forwarded ones and has the effect it would have had with the operand and cr.status that it brings, with the pc
unchanged; while they cannot, it stays. (R289, R343, R345, R347, R365) -/
def Obligations.VectorForwarding : Prop :=
  ∀ (s : State) (k : Nat) (c : Ctx) (t m : BitVec 3) (b a d : BitVec 5),
    let w := laneWidth t.toNat
    let fills := if 16 ≤ d.toNat then some (d.toNat - 16) else none
    let behind : Prop := s.cur = .slot k ∧ (s.slotAt k).ctx = some c ∧ c.st = .running ∧ s.halted = false ∧
      s.vecTurn = false ∧ c.asyncs = [] ∧ c.regs.due = [] ∧ bit c.regs.status 5 = false ∧ c.vstream ≠ []
    let turned : Prop := s.cur = .slot k ∧ (s.slotAt k).ctx = some c ∧ c.st = .running ∧ s.halted = false ∧ s.vecTurn = true
    let s' := { s with vecTurn := false }
    ((Instr.vadd32 t m b a d).wellFormed = true →
      let ins : Instr := .vadd32 t m b a d
      let e (pc st : Word) : Deferred := { instr := ins, pc := pc, x := 0, y := 0, status := st, fills := fills }
      (issuesIn s k c → (Cx.mk s (.slot k) c).readVV a b = .error .stall →
        exec ins s = .next (wrote s (.slot k) { c with vstream := [e c.pc c.regs.status] } 4)) ∧
      (behind → exec ins s =
        .next (wrote s (.slot k) { c with vstream := c.vstream ++ [e c.pc c.regs.status] } 4)) ∧
      (∀ pc st l, turned → c.vstream = e pc st :: l →
        (c.vwaits ins = true ∨ (Cx.mk s' (.slot k) c).readVV a b = .error .stall → exec ins s = .next s') ∧
        (∀ va vb x, c.vwaits ins = false → (Cx.mk s' (.slot k) c).readVV a b = .ok (va, vb, x) → Tables.roomV x.c d →
          ∃ (v : Vec) (y : Cx), Tables.lanesAre t.toNat (x.c.mask m.toNat) (x.c.prior d) v
              (fun j => (laneAdd t.toNat (statusRm st) (lane va w j) (lane vb w j)).1) ∧
            Cx.writeV { x with c := x.c.raiseFlags (Tables.flagsOf t.toNat (x.c.mask m.toNat) fun j =>
              (laneAdd t.toNat (statusRm st) (lane va w j) (lane vb w j)).2) } d v = .ok y ∧
            exec ins s = .next (y.s.putCtx (.slot k) { y.c with vstream := l })))) ∧
    ((Instr.vslideUp t m b a d).wellFormed = true →
      let ins : Instr := .vslideUp t m b a d
      let e (pc st n : Word) : Deferred := { instr := ins, pc := pc, x := n, y := 0, status := st, fills := fills }
      (issuesIn s k c → (Cx.mk s (.slot k) c).readV a = .error .stall →
        exec ins s = .next (wrote s (.slot k) { c with vstream := [e c.pc c.regs.status (c.sreg b)] } 4)) ∧
      (behind → (∀ g ∈ c.vstream, g.writes ≠ some b) → exec ins s =
        .next (wrote s (.slot k) { c with vstream := c.vstream ++ [e c.pc c.regs.status (c.sreg b)] } 4)) ∧
      (behind → (∃ g ∈ c.vstream, g.writes = some b) → exec ins s = .next s) ∧
      (∀ pc st n l, turned → c.vstream = e pc st n :: l →
        (c.vwaits ins = true ∨ (Cx.mk s' (.slot k) c).readV a = .error .stall → exec ins s = .next s') ∧
        (∀ va x, c.vwaits ins = false → (Cx.mk s' (.slot k) c).readV a = .ok (va, x) → Tables.roomV x.c d →
          ∃ (v : Vec) (y : Cx), Tables.lanesAre t.toNat (x.c.mask m.toNat) (x.c.prior d) v
              (fun j => if n.toNat ≤ j then lane va w (j - n.toNat) else 0) ∧ x.writeV d v = .ok y ∧
            exec ins s = .next (y.s.putCtx (.slot k) { y.c with vstream := l }))))

namespace Sys2Proof.Tables

/-- The vector loads other than gathers, with the address of element j (R364). -/
def vectorLoad (c : Ctx) (t m : BitVec 3) (d : BitVec 5) (ins : Instr) (addr : Nat → Word) : Prop :=
  (∃ (i : BitVec 9) (a : BitVec 5), ins = .vld t m i a d ∧ ∀ j, addr j = c.sreg a +
    i.signExtend 64 * BitVec.ofNat 64 (laneWidth t.toNat / 8) + BitVec.ofNat 64 (j * (laneWidth t.toNat / 8))) ∨
  (∃ b a, ins = .vldIndexed t m b a d ∧
    ∀ j, addr j = c.sreg a + c.sreg b + BitVec.ofNat 64 (j * (laneWidth t.toNat / 8))) ∨
  (∃ b a, ins = .vlds t m b a d ∧ ∀ j, addr j = c.sreg a + BitVec.ofNat 64 j * c.sreg b)

/-- The vector stores other than scatters, with the address of element j (R364). -/
def vectorStore (c : Ctx) (t m : BitVec 3) (r : BitVec 5) (ins : Instr) (addr : Nat → Word) : Prop :=
  (∃ (i : BitVec 9) (a : BitVec 5), ins = .vst t m i a r ∧ ∀ j, addr j = c.sreg a +
    i.signExtend 64 * BitVec.ofNat 64 (laneWidth t.toNat / 8) + BitVec.ofNat 64 (j * (laneWidth t.toNat / 8))) ∨
  (∃ b a, ins = .vstIndexed t m b a r ∧
    ∀ j, addr j = c.sreg a + c.sreg b + BitVec.ofNat 64 (j * (laneWidth t.toNat / 8))) ∨
  (∃ b a, ins = .vsts t m b a r ∧ ∀ j, addr j = c.sreg a + BitVec.ofNat 64 j * c.sreg b)

/-- The enabled lanes of a type with their addresses. -/
def elements (t : Nat) (mask : Word) (addr : Nat → Word) : List (Nat × Nat) :=
  ((List.range (laneCount t)).filter (enabled mask)).map fun j => (j, (addr j).toNat)

end Sys2Proof.Tables

/-- When it is a firing's turn, every enabled element of VLD (either form) or VLDS can be reached, the race checks
of its lines are done, and no committed line, no outstanding access and nothing sent before holds an element back:
with a register as destination exec answers the next state at pc + 4 in which each enabled lane holds the bytes of
its element, lowest first, and each other lane is unchanged, with pz set where an element lies on a return-poison
page; with a queue that has room as destination it answers the next state at pc + 4 in which the queue has taken one
new entry. VGATH does the same at the base plus each lane's signed offset. (R160, R167, R344, R347, R364, R365) -/
def Obligations.VectorLoads : Prop :=
  ∀ (s : State) (k : Nat) (c : Ctx) (t m : BitVec 3) (d : BitVec 5), issuesIn s k c →
    let w := laneWidth t.toNat
    let how (x : Cx) (cells : List (Nat × Nat × Nat)) : VIn :=
      { pc := x.c.pc, x := 0, y := 0, status := x.c.regs.status, cells := cells, got := x.servedLanes w cells, id := x.s.nextId }
    (∀ (ins : Instr) (addr : Nat → Word) (cells : List (Nat × Nat × Nat)) (lines : List (Nat × Nat)) (x z : Cx),
      Tables.vectorLoad c t m d ins addr → ins.wellFormed = true →
      (Cx.mk s (.slot k) c).reachLanes .load (w / 8) (Tables.elements t.toNat (c.mask m.toNat) addr) =
        .ok (cells, lines, x) →
      x.checkLines lines false = .ok z → z.lanesWait w cells = false →
      (d.toNat < 16 →
        ∃ v : Vec, (∀ j, j < laneCount t.toNat → lane v w j = match cells.find? (·.1 == j) with
            | some (_, va, code) => gatherBytes (fun i => z.codeByte va code i j) 0 (w / 8)
            | none => lane (c.vreg d.toNat) w j) ∧
          cells.map (fun e => e.1) = (List.range (laneCount t.toNat)).filter (enabled (c.mask m.toNat)) ∧
          exec ins s = .next (wrote z.s (.slot k) ((z.poisoned cells).c.setV d.toNat v) 4)) ∧
      (16 ≤ d.toNat → (c.regs.vq.get (d.toNat - 16) []).length < 4 →
        ∃ (y : Cx) (e : QEnt Vec), z.vecLoad w d (how z cells) = .ok y ∧ exec ins s = .next (wrote y.s y.who y.c 4) ∧
          y.c.regs.vq.get (d.toNat - 16) [] = c.regs.vq.get (d.toNat - 16) [] ++ [e])) ∧
    (∀ (b a : BitVec 5) (off off' : Vec) (u x z x' y : Cx) (cells : List (Nat × Nat × Nat)) (lines : List (Nat × Nat)),
      (Instr.vgath t m b a d).wellFormed = true →
      let x0 := (Cx.mk s (.slot k) c).popRoom (vecQueue b).toList
      x0.readV b = .ok (off, u) →
      x0.reachLanes .load (w / 8) (Tables.elements t.toNat (x0.c.mask m.toNat) fun j =>
        x0.c.sreg a + BitVec.ofInt 64 (signed w (lane off w j))) = .ok (cells, lines, x) →
      x.checkLines lines false = .ok z → z.lanesWait w (z.recordedLanes w cells) = false →
      z.readV b = .ok (off', x') → x'.vecLoad w d (how z cells) = .ok y →
      exec (.vgath t m b a d) s = .next (wrote y.s y.who y.c 4))

/-- When it is a firing's turn, every enabled element of VST (either form) or VSTS can be reached for a store, its
checked lines are claimed, and its data can be read: exec answers the next state at pc + 4 in which the enabled
elements have been put into the write buffer in lane order, after a commit where their lines would need a 65th
buffer line, every register is unchanged, and every byte of memory reads as before on every path. VSCAT does the
same at the base plus each lane's signed offset; where its offsets and its data are one queue, one entry serves
both. (R344, R347, R364, R366) -/
def Obligations.VectorStores : Prop :=
  ∀ (s : State) (k : Nat) (c : Ctx) (t m : BitVec 3) (r : BitVec 5), issuesIn s k c →
    let w := laneWidth t.toNat
    let puts (x : Cx) (cells : List (Nat × Nat × Nat)) (v : Vec) : Cx :=
      cells.foldl (fun x e => x.buffer e.2.2 e.2.1 (w / 8) (lane v w e.1)) x
    (∀ (ins : Instr) (addr : Nat → Word) (cells : List (Nat × Nat × Nat)) (lines : List (Nat × Nat)) (v : Vec) (x y : Cx),
      Tables.vectorStore c t m r ins addr → ins.wellFormed = true →
      (Cx.mk s (.slot k) c).reachLanes .store (w / 8) (Tables.elements t.toNat (c.mask m.toNat) addr) =
        .ok (cells, lines, x) →
      x.checkLines lines true = .ok x →
      (((x.makeRoom (cells.map (·.2.2))).popRoom (vecQueue r).toList).makeRoom (cells.map (·.2.2))).readV r = .ok (v, y) →
      exec ins s = .next (wrote (puts y cells v).s (.slot k) (puts y cells v).c 4) ∧
        (r.toNat < 16 → (puts y cells v).c.regs = c.regs) ∧ (puts y cells v).c.pc = c.pc ∧
        ∀ path pa me acc, pa < shareBase → (puts y cells v).s.readByte path pa me acc = s.readByte path pa me acc) ∧
    (∀ (b a : BitVec 5) (off off' v : Vec) (u x x' x'' y : Cx) (cells : List (Nat × Nat × Nat)) (lines : List (Nat × Nat)),
      (Instr.vscat t m b a r).wellFormed = true →
      let x0 := (Cx.mk s (.slot k) c).popRoom ((vecQueue b).toList ++ (vecQueue r).toList)
      let one := vecQueue b ≠ none ∧ r = b
      x0.readV b = .ok (off, u) →
      x0.reachLanes .store (w / 8) (Tables.elements t.toNat (x0.c.mask m.toNat) fun j =>
        x0.c.sreg a + BitVec.ofInt 64 (signed w (lane off w j))) = .ok (cells, lines, x) →
      x.checkLines lines true = .ok x → (x.makeRoom (cells.map (·.2.2))).readV b = .ok (off', x') →
      (one → y = puts (x'.makeRoom (cells.map (·.2.2))) cells off) →
      (¬one → ((x'.popRoom (vecQueue r).toList).makeRoom (cells.map (·.2.2))).readV r = .ok (v, x'') ∧ y = puts x'' cells v) →
      exec (.vscat t m b a r) s = .next (wrote y.s y.who y.c 4))

/-- For a firing with nothing outstanding, pending or on its way, whose write buffer has room for the lines of the
store, and for the immediate forms: for every lane type, mask register, vector register and address of the private
alias aligned to the element, such that all elements lie in the alias and its lines are correctable: after VST of a
register there, VLD of a register from the same address under the same mask answers a next state in which each
enabled lane of the second register holds the first register's lane, and each other lane is unchanged. (R114, R158,
R364, R365, R366) -/
def Obligations.VectorStoreThenLoad : Prop :=
  ∀ (t m : BitVec 3) (i : BitVec 9) (a r d : BitVec 5) (s u : State) (k : Nat) (c : Ctx), issuesIn s k c →
    (Instr.vst t m i a r).wellFormed = true → (Instr.vld t m i a d).wellFormed = true → r.toNat < 16 → d.toNat < 16 →
    let w := laneWidth t.toNat
    let base := (c.sreg a + i.signExtend 64 * BitVec.ofNat 64 (w / 8)).toNat
    0xFFFFFFFFFFE000 ≤ base → base + 128 ≤ 2 ^ 56 → base % (w / 8) = 0 → s.badLines = [] →
    c.loads = [] → c.pend = [] → (∀ g ∈ s.flights, g.origin.uid ≠ c.uid) → c.touched.length ≤ 64 →
    c.region.wbuf.length ≤ 61 → exec (.vst t m i a r) s = .next u →
    ∃ z c', exec (.vld t m i a d) u = .next z ∧ (z.slotAt k).ctx = some c' ∧
      ∀ j, j < laneCount t.toNat → lane (c'.vreg d.toNat) w j =
        if enabled (c.mask m.toNat) j then lane (c.vreg r.toNat) w j else lane (c.vreg d.toNat) w j

namespace Sys2Proof.Tables

/-- A matrix instruction that acts on its own core: the kind of its command, the sub-tile, the values read at issue, K or
the form, the tag, and whether it takes the format prefix (R374 to R380). -/
def ownMatrix (c : Ctx) (ins : Instr) (kind k : Nat) (a b : Word) (n tag : Nat) (pre : Bool) : Prop :=
  (∃ (e : BitVec 4) (rb ra : BitVec 5) (q : BitVec 2), ins = .mma e rb ra q ∧ kind = 1 ∧ k = q.toNat ∧ a = c.sreg ra ∧
    b = c.sreg rb ∧ n = 64 * (e.toNat + 1) ∧ tag = 0 ∧ pre = true ∧ mmaLegal c.prefixWord n = true) ∨
  (∃ q : BitVec 2, ins = .mzero q ∧ kind = 3 ∧ k = q.toNat ∧ a = 0 ∧ b = 0 ∧ n = 0 ∧ tag = 0 ∧ pre = false ∧
    bit (c.items.get 3 0) 19 = false) ∨
  (∃ ra rb : BitVec 5, ins = .mldb ra rb ∧ kind = 4 ∧ k = 0 ∧ a = c.sreg ra ∧ b = c.sreg rb ∧ n = 0 ∧ tag = 0 ∧
    pre = false) ∨
  (∃ (i : BitVec 7) (rc ra : BitVec 5) (f : BitVec 3) (q : BitVec 2), ins = .mdrn i rc ra f q ∧ kind = 5 ∧
    k = q.toNat ∧ a = c.sreg ra ∧ b = c.sreg rc ∧ n = f.toNat ∧ tag = i.toNat ∧ pre = true ∧
    drainLegal c.prefixWord f.toNat = true ∧ bit (c.items.get 3 0) 19 = false)

/-- An instruction that sends a command to an engine by message: the node, agent, opcode, operands and payload of the
message, and whether the stream then waits for a reply (R371, R382, R387 to R394). -/
def sendsTo (s : State) (k : Nat) (c : Ctx) (ins : Instr) (node agent opcode op0 op1 aux : Nat) (payload : List Byte)
    (waits : Bool) : Prop :=
  let bank (r : BitVec 5) (tile quad : Nat) : Prop := field (c.sreg r) 17 47 = 0 ∧ quad = field (c.sreg r) 16 1 ∧
    ((s.launchOf c.launch c.gen).bind fun l =>
      if field (c.sreg r) 0 16 < l.tiles then l.binds.get? (field (c.sreg r) 0 16) else none) = some tile
  (∃ (i : BitVec 7) (a : BitVec 5), ins = .ecopy i a ∧ node = tileOf (coreOf k) ∧ agent = 8 ∧ opcode = 0x10 ∧
    op0 = (c.sreg a).toNat ∧ op1 = 0 ∧ aux = i.toNat ∧ payload = [] ∧ waits = false) ∨
  (∃ (i : BitVec 7) (a : BitVec 5), ins = .scan i a ∧ node = 1024 + k / 1024 ∧ agent = 12 ∧ opcode = 0x30 ∧
    op0 = (c.sreg a).toNat ∧ op1 = 0 ∧ aux = i.toNat ∧ payload = [] ∧ waits = false) ∨
  (∃ (i : BitVec 7) (ra rk : BitVec 5) (q : Nat), ins = .cabcfg i ra rk ∧ bank rk node q ∧ agent = 10 + q ∧
    opcode = 0x20 ∧ op0 = (c.sreg ra).toNat ∧ op1 = i.toNat ∧ aux = 0 ∧ payload = [] ∧ waits = false) ∨
  (∃ (m : BitVec 3) (v rk w : BitVec 5) (q : Nat), ins = .cabpush m v rk w ∧ bank rk node q ∧ agent = 10 + q ∧
    opcode = 0x21 ∧ op0 = 0 ∧ op1 = 0 ∧ aux = (c.sreg w).toNat ∧ payload = pushPayload c m v (c.sreg w) ∧
    waits = false) ∨
  (∃ (rk d : BitVec 5) (q : Nat), ins = .cabmrg rk d ∧ bank rk node q ∧ agent = 10 + q ∧ opcode = 0x22 ∧ op0 = 0 ∧
    op1 = d.toNat * 2 ^ 32 ∧ aux = 0 ∧ payload = [] ∧ waits = true) ∨
  (∃ (ra rk i : BitVec 5) (q : Nat), ins = .cabrd ra rk i ∧ bank rk node q ∧ agent = 10 + q ∧ opcode = 0x23 ∧
    op0 = (c.sreg ra).toNat ∧ op1 = 0 ∧ aux = (c.sreg i).toNat ∧ payload = [] ∧ waits = true) ∨
  (∃ (i : BitVec 7) (ra rk : BitVec 5) (q : Nat), ins = .cabdrn i ra rk ∧ bank rk node q ∧ agent = 10 + q ∧
    opcode = 0x24 ∧ op0 = (c.sreg ra).toNat ∧ op1 = i.toNat ∧ aux = 0 ∧ payload = [] ∧ waits = false) ∨
  (∃ (rk : BitVec 5) (q : Nat), ins = .cabclr rk ∧ bank rk node q ∧ agent = 10 + q ∧ opcode = 0x25 ∧ op0 = 0 ∧
    op1 = 0 ∧ aux = 0 ∧ payload = [] ∧ waits = false)

end Sys2Proof.Tables

/-- When it is a firing's turn, PFX sets cr.status.pp (bit 5), leaves every other bit of cr.status, and puts its a,
b, group and register fields into cr.pfx; MCFG commits the region and sets its matrix item to sa and no other. Each
goes on to pc + 4. While a prefix is pending, an instruction that takes none (here ADDI, NOP and FIN) takes the
illegal-encoding trap with its word as detail, and pp and cr.pfx stay. (R219, R306, R374, R375) -/
def Obligations.FormatPrefixAndItems : Prop :=
  ∀ (s : State) (k : Nat) (c : Ctx),
    (issuesIn s k c → ∀ (q : BitVec 5) (g : BitVec 2) (b a : BitVec 3), (Instr.pfx q g b a).wellFormed = true →
      ∃ st : Word, bit st 5 = true ∧ (∀ i, i < 64 → i ≠ 5 → bit st i = bit c.regs.status i) ∧
        exec (.pfx q g b a) s = .next (wrote s (.slot k) { c with regs := { c.regs with
          status := st, pfx := BitVec.ofNat 64 (a.toNat + 8 * b.toNat + 64 * g.toNat + 256 * q.toNat) } } 4)) ∧
    (issuesIn s k c → ∀ (a : BitVec 5) (n : BitVec 2), ∃ t c', exec (.mcfg a n) s = .next t ∧
      (t.slotAt k).ctx = some c' ∧ c'.pc = c.pc + 4 ∧ c'.regs = c.regs ∧ c'.items.get n.toNat 0 = c.sreg a ∧
      (∀ i, i ≠ n.toNat → c'.items.get i 0 = c.items.get i 0) ∧ t.mem = s.mem) ∧
    (turn s (.slot k) c → c.pend = [] → bit c.regs.status 5 = true → ∀ ins : Instr,
      ((∃ i a d, ins = .addi i a d) ∨ ins = .nop ∨ ins = .fin) →
      exec ins s = .next (s.takeTrap (.slot k) c (Tables.trap 4 3 c.pc c.pc (BitVec.ofNat 64 (encode ins)))))

/-- For every matrix instruction that acts on its own core (MMA of a legal prefix, MZERO and MDRN with dpos clear,
MLDB): if it is the firing's turn, the queue has a place and the sub-tile belongs to no other firing, exec answers a
next state in which a command with the instruction's kind, sub-tile, operands, K or form, tag and prefix is on its
way to the core's queue, or in it, and the firing owns the sub-tile (MLDB uses none). Where the firing has no
buffered line and no outstanding load, no line of the firing or its slot is on its way, and no command waits at the
tile, it is at the queue's end. The pc is 4 further, a pending prefix that the instruction takes is cleared with
cr.pfx, every other register is unchanged, and memory is not written. (R131, R210, R213, R219, R374, R375, R376,
R378, R379, R380) -/
def Obligations.MatrixCommandsQueue : Prop :=
  ∀ (s : State) (k : Nat) (c : Ctx) (ins : Instr) (kind j : Nat) (a b : Word) (n tag : Nat) (pre : Bool),
    turn s (.slot k) c → Tables.ownMatrix c ins kind j a b n tag pre → ins.wellFormed = true →
    (pre = false → bit c.regs.status 5 = false) → s.queueFull (coreOf k) = false →
    (kind ≠ 4 → s.foreign c.uid (coreOf k) j = false) →
    let tile := tileOf (coreOf k)
    ∃ t c' m, exec ins s = .next t ∧ (m ∈ (t.tileAt tile).mfly ∨ m ∈ (t.tileAt tile).mwait ∨ m ∈ (t.coreAt (coreOf k)).mq) ∧
      (c.region.wbuf = [] → (∀ f ∈ s.flights, f.origin.uid ≠ c.uid ∧ f.origin.slot ≠ k) →
        (∀ d, s.ctxOfUid c.uid = some d → d.loads = []) → (s.tileAt tile).mfly = [] → (s.tileAt tile).mwait = [] →
        (t.coreAt (coreOf k)).mq = (s.coreAt (coreOf k)).mq ++ [m]) ∧ m.kind = kind ∧
      m.k = j ∧ m.a = a ∧ m.b = b ∧ m.n = n ∧ m.tag = tag ∧ m.pfx = c.prefixWord ∧ m.origin.uid = c.uid ∧
      m.core = coreOf k ∧ (kind ≠ 4 → (t.subAt (coreOf k) j).owner = some c.uid) ∧
      (t.slotAt k).ctx = some c' ∧ c'.pc = c.pc + 4 ∧ c'.st = .running ∧
      c'.regs = (if pre then { c.regs with status := setField c.regs.status 5 1 0, pfx := 0 } else c.regs) ∧
      t.mem = s.mem ∧ ∀ u, u.pa < shareBase → (u ∈ t.unseen ↔ u ∈ s.unseen)

/-- When it is a firing's turn, the prefix fits and K is legal, the reserved fields of the gang register are zero,
every tile of the rectangle is in the compute set and none has been emptied by a recast that has still to rebind it,
po and sb are multiples of 64, and no sub-tile named belongs to another firing: MMAG answers the next state in
which, after the commit, one command for each block, column by column and row by row, has been sent to core r of
tile t0 + c, with its panel at quad store r div 4 of tile t0, offset po + (r mod 4) × 64 × p (p being apitch, or K ×
e_A where that is 0), and the firing has taken each sub-tile under its logical tile; the prefix is cleared and the
pc is 4 further. (R216, R217, R218, R377) -/
def Obligations.GangMatrixMultiply : Prop :=
  ∀ (s : State) (k : Nat) (c : Ctx) (n : BitVec 4) (b g : BitVec 5) (q : BitVec 2) (tiles : List Nat),
    turn s (.slot k) c → (Instr.mmag n b g q).wellFormed = true → mmaLegal c.prefixWord (64 * (n.toNat + 1)) = true →
    let w := c.sreg g
    let x := (Cx.mk s (.slot k) c).commit
    let p := if field (c.items.get 0 0) 6 14 = 0 then fmtBytes (pfxA c.prefixWord) (64 * (n.toNat + 1))
      else field (c.items.get 0 0) 6 14 * 64
    field w 22 2 = 0 → field w 44 20 = 0 → field w 24 20 % 64 = 0 → (c.sreg b).toNat % 64 = 0 →
    (List.range (field w 19 3 + 1)).map (fun i => x.s.logicalTile x.origin (field w 0 16 + i)) = tiles.map some →
    (∀ t ∈ tiles, s.leaving t = false) → (∀ t ∈ tiles, ∀ r, r ≤ field w 16 3 → s.foreign c.uid (coreBase t + r) q.toNat = false) →
    ∃ cmds : List MCmd, cmds.map (·.core) = tiles.flatMap (fun t => (List.range (field w 16 3 + 1)).map (coreBase t + ·)) ∧
      cmds.map (·.panel) = tiles.flatMap (fun _ => (List.range (field w 16 3 + 1)).map fun r =>
        0x4000000000000 + tiles.headD 0 * 0x800000 + (0x100000 * (1 + r / 4) + field w 24 20 + r % 4 * 64 * p)) ∧
      cmds.map (·.logical) = (List.range (field w 19 3 + 1)).flatMap (fun i =>
        (List.range (field w 16 3 + 1)).map fun _ => some (field w 0 16 + i)) ∧
      (∀ m ∈ cmds, m.kind = 2 ∧ m.k = q.toNat ∧ m.b = c.sreg b ∧ m.n = 64 * (n.toNat + 1) ∧ m.pfx = c.prefixWord ∧
        m.origin.uid = c.uid ∧ m.gang = x.s.nextId) ∧
      exec (.mmag n b g q) s = .next (Cx.prefixDone { x with
        s := cmds.foldl (fun s m => (s.own c.uid m.core m.k m.logical).sendMatrix m) { x.s with nextId := x.s.nextId + 1 } }).put

/-- For ECOPY, SCAN, CABCFG, CABPUSH, CABMRG, CABRD, CABDRN and CABCLR: if it is the firing's turn, the tile's
injection queue has room, and (for a bank instruction) the bank register names a bank of the compute set, exec
answers a next state in which the region has been committed and the messages composed on the tile have one more at
their end, with the engine's node and agent, the opcode, operands and payload that R371 to R394 give, and the firing
as its origin. A message composed on a tile, with none before it, enters the injection queue at its end, stamped,
where that has room and what it must wait for of its issuer and its slot has arrived, and stays otherwise. The
registers and the memory are unchanged. The pc is 4 further, except that CABMRG and CABRD keep the stream waiting
for their reply. (R131, R133, R368, R371, R382, R387, R388, R389, R390, R391, R392, R394) -/
def Obligations.EngineCommandsAreSent : Prop :=
  ∀ (s : State) (k : Nat) (c : Ctx) (ins : Instr) (node agent opcode op0 op1 aux : Nat) (payload : List Byte) (waits : Bool),
    issuesIn s k c → ins.wellFormed = true → Tables.sendsTo s k c ins node agent opcode op0 op1 aux payload waits →
    s.injRoom (tileOf (coreOf k)) = true →
    (∃ t c' p, exec ins s = .next t ∧ (t.tileAt (tileOf (coreOf k))).held =
        (s.tileAt (tileOf (coreOf k))).held ++ [p] ∧
      p.node = node ∧ p.agent = agent ∧ p.opcode = opcode ∧ p.op0 = op0 ∧ p.op1 = op1 ∧ p.aux = aux ∧
      p.payload = payload ∧ p.origin.uid = c.uid ∧ p.origin.slot = k ∧
      (t.slotAt k).ctx = some c' ∧ c'.regs = c.regs ∧ c'.region.wbuf = [] ∧
      (if waits then c'.st = .replyWait ∧ c'.pc = c.pc else c'.st = .running ∧ c'.pc = c.pc + 4) ∧ t.mem = s.mem ∧
      ∀ u, u.pa < shareBase → (u ∈ t.unseen ↔ u ∈ s.unseen)) ∧
    ∀ (u : State) (p : Packet) (tile : Nat), (u.tileAt tile).held = [p] →
      (u.mayGo p = true → (u.tileAt tile).inj.length < 16 → ((u.releaseHeld tile).tileAt tile).held = [] ∧
        ((u.releaseHeld tile).tileAt tile).inj = (u.tileAt tile).inj ++ [.packet { p with stamp := u.time / 64 % 2 ^ 24 } 0]) ∧
      ((u.mayGo p = false ∨ 16 ≤ (u.tileAt tile).inj.length) → ((u.releaseHeld tile).tileAt tile).held = [p] ∧
        ((u.releaseHeld tile).tileAt tile).inj = (u.tileAt tile).inj)

/-- When it is a firing's turn, the 16-byte aligned object at sa can be reached for a store, lies in tier 1, 3 or 4
(or on a page that answers by itself) and is backed, and the injection queue has room for one more: BARINIT and
BARADD answer the next state at pc + 4 in which, after the commit, a message with opcode 0x11 or 0x12, the object's
address, the home as checked and the value of sb has joined the messages composed on the tile, which enter the
injection queue in order. An object that is not 16-byte aligned takes the alignment trap, and one in another tier
the permission trap. (R131, R327, R386, R399) -/
def Obligations.BarrierInstructions : Prop :=
  ∀ (s : State) (k : Nat) (c : Ctx) (b a : BitVec 5) (ins : Instr) (op : Nat), issuesIn s k c → ins.wellFormed = true →
    ((ins = .barinit b a ∧ op = 0x11) ∨ (ins = .baradd b a ∧ op = 0x12)) →
    let x := Cx.mk s (.slot k) c
    (∀ p x1, x.operand .objects .store (c.sreg a).toNat 16 16 = .ok (p, x1) → x1.s.unbacked p.key = false →
      s.injRoom (tileOf (coreOf k)) = true →
      ∃ t c' m, exec ins s = .next t ∧ (t.tileAt (tileOf (coreOf k))).held =
          (s.tileAt (tileOf (coreOf k))).held ++ [m] ∧
        m.opcode = op ∧ m.agent = 14 ∧ m.op0 = (c.sreg a).toNat ∧ m.aux = (c.sreg b).toNat ∧ m.home = some p.key ∧
        m.origin.uid = c.uid ∧ (t.slotAt k).ctx = some c' ∧ c'.pc = c.pc + 4 ∧ c'.regs = c.regs ∧ t.mem = s.mem) ∧
    ((c.sreg a).toNat % 16 ≠ 0 → c.pend = [] → exec ins s =
      .next (s.takeTrap (.slot k) c (Tables.trap 3 1 c.pc (c.sreg a) 16))) ∧
    (∀ pa leaf x1, (c.sreg a).toNat % 16 = 0 → c.pend = [] →
      x.reach .store false (c.sreg a).toNat 16 = .ok (.home pa leaf, x1) →
      tierOf pa ≠ some 1 → tierOf pa ≠ some 3 → tierOf pa ≠ some 4 →
      exec ins s = .next (s.takeTrap (.slot k) c (Tables.trap 2 1 c.pc (c.sreg a) leaf)))

namespace Sys2Proof.Tables

/-- A firing's synchronizing access of `n` bytes at `va`, aligned to `al`, reaches its home and meets no conflicting
writer (R169, R399). -/
def syncOperand (s : State) (k : Nat) (c : Ctx) (t : Tiers) (u : Use) (va n al pa : Nat) (leaf : Word) (x : Cx) : Prop :=
  (Cx.mk s (.slot k) c).operand t u va n al = .ok (.home pa leaf, x) ∧ pa + n ≤ shareBase ∧
    x.raceCheck (.home pa leaf) u.access va = .ok ()

/-- Nothing that a firing has done is outstanding: no buffered line, no line in flight of it or of its slot, no load, no pending
operation, and no checked interval. -/
def nothingOutstanding (s : State) (k : Nat) (c : Ctx) : Prop :=
  c.pend = [] ∧ c.checkedSince = none ∧ c.region.wbuf = [] ∧ c.loads = [] ∧
    ∀ f ∈ s.flights, f.origin.uid ≠ c.uid ∧ f.origin.slot ≠ k

/-- A synchronizing operation on a home need not wait: the home can be reached, nothing that its tile has sent there before is on
its way, and no operation of the order S that has been delivered is still to be performed (R29, R127, R156, R179). -/
def homeOpen (s : State) (k pa : Nat) : Prop :=
  s.stranded pa = false ∧ s.cutOff pa = false ∧ s.sentBefore (tileOf (coreOf k)) (s.homeNode pa) = false ∧
    ∀ e ∈ s.slots, ∀ d, e.2.ctx = some d → ∀ q ∈ d.pend, q.sc = true → q.delivered = false

/-- The low `n` bytes of a number stand at an address, lowest first, and every byte elsewhere reads as before on every
path. -/
def stored (s t : State) (pa n v : Nat) : Prop :=
  (∀ i, i < n → t.byteAt (pa + i) = BitVec.ofNat 8 (v / 256 ^ i)) ∧
    ∀ q, q < pa ∨ pa + n ≤ q → t.byteAt q = s.byteAt q ∧ ∀ path me acc, q < shareBase → t.readByte path q me acc = s.readByte path q me acc

/-- No byte is written, and every byte of memory reads as before on every path. -/
def unwritten (s t : State) : Prop :=
  ∀ q, t.byteAt q = s.byteAt q ∧ ∀ path me acc, q < shareBase → t.readByte path q me acc = s.readByte path q me acc

/-- A firing has gone on to the next instruction with a register written, and its other registers as they were. -/
def wentOn (t : State) (k : Nat) (c : Ctx) (d : BitVec 5) (v : Word) : Prop :=
  ∃ c', (t.slotAt k).ctx = some c' ∧ c'.regs = (c.setS d v).regs ∧ c'.pc = c.pc + 4 ∧ c'.st = .running ∧
    c'.region.wbuf = []

/-- A firing's operation has requested its announcement at a scope and completes with its delivery: no memory byte is
written, and the registers are as they were (R153). -/
def announced (s t : State) (k : Nat) (c : Ctx) (scope : Nat) (kind : PendKind) : Prop :=
  ∃ a c', t.pan = s.pan ++ [a] ∧ a.kind = 0 ∧ a.scope = scope ∧ a.slot = k ∧ (t.slotAt k).ctx = some c' ∧
    c'.regs = c.regs ∧ (∃ p, c'.pend = [p] ∧ p.kind = kind ∧ p.scope = scope ∧ p.announced = some a.id ∧ p.delivered = false) ∧
    (if kind.holds then c'.st = .held ∧ c'.pc = c.pc else c'.st = .running ∧ c'.pc = c.pc + 4) ∧ t.mem = s.mem ∧
    t.unseen = s.unseen

/-- The atomic operations and the new value of the word, from its width, its old value, the operand and the comparand
(R400, R401). -/
def atomics : List ((BitVec 1 → BitVec 1 → BitVec 4 → BitVec 5 → BitVec 5 → BitVec 5 → Instr) ×
    (Nat → Nat → Nat → Nat → Nat) × Nat) :=
  [(.amoAdd, fun w o b _ => (o + b) % 2 ^ w, 0),
   (.amoAnd, fun w o b _ => (BitVec.ofNat w o &&& BitVec.ofNat w b).toNat, 1),
   (.amoOr, fun w o b _ => (BitVec.ofNat w o ||| BitVec.ofNat w b).toNat, 2),
   (.amoXor, fun w o b _ => (BitVec.ofNat w o ^^^ BitVec.ofNat w b).toNat, 3),
   (.amoMin, fun w o b _ => if (BitVec.ofNat w o).toInt ≤ (BitVec.ofNat w b).toInt then o else b % 2 ^ w, 4),
   (.amoMax, fun w o b _ => if (BitVec.ofNat w o).toInt ≤ (BitVec.ofNat w b).toInt then b % 2 ^ w else o, 5),
   (.amoMinn, fun w o b _ => min o (b % 2 ^ w), 6), (.amoMaxn, fun w o b _ => max o (b % 2 ^ w), 7),
   (.amoSwap, fun w _ b _ => b % 2 ^ w, 8), (.cas, fun w o b c => if o = c % 2 ^ w then b % 2 ^ w else o, 9)]

end Sys2Proof.Tables

/-- For every AMO and CAS, of 4 and 8 bytes: when it is the firing's turn, its word can be reached at its home and
meets no conflicting writer, its lock bit is free, no load of the firing and no earlier release to the word is
outstanding, no committed line of the firing is on its way to its line and nothing that its tile or it has sent
before to its home, the plain form answers the next state in which the word holds the new value of R400 or R401 (a
CAS whose comparison fails writes nothing), sd the old value sign-extended, every byte elsewhere reads as before, no
other register changes, and the pc is 4 further. The .sc form on an unchecked page does the same when nothing of the
firing is outstanding, nothing at the home holds it back, and its scope is below 4; at scope 4 and above it requests
its announcement, and the firing is held at the instruction until that is delivered. A plain form that meets a held
lock bit goes on, with its destination still to receive the old value. (R153, R154, R307, R399, R400, R401, R402) -/
def Obligations.AtomicOperations : Prop :=
  ∀ p ∈ Tables.atomics, ∀ (z : BitVec 1) (sc : BitVec 4) (b a d : BitVec 5) (s : State) (k : Nat) (c : Ctx) (pa : Nat)
      (leaf : Word) (x : Cx),
    let n := if z = 1 then 8 else 4
    issuesIn s k c → Tables.syncOperand s k c .atomic .syncBoth (c.sreg a).toNat n n pa leaf x →
    let old := gatherBytes (fun q => s.readByte 0 q c.uid) pa n
    let done (t : State) : Prop :=
      (if p.2.2 = 9 ∧ old ≠ (c.sreg d).toNat % 2 ^ (8 * n) then Tables.unwritten s t
        else Tables.stored s t pa n (p.2.1 (8 * n) old (c.sreg b).toNat (c.sreg d).toNat)) ∧
      Tables.wentOn t k c d ((BitVec.ofNat (8 * n) old).signExtend 64)
    ((p.1 0 z sc b a d).wellFormed = true →
      ((s.lockAt (lockOf pa)).owner = none → x.commit.s.inFlight c.uid pa = false → c.loads = [] →
        x.commit.behind pa = false → (∀ i, i < n → c.owedByte (pa + i) = none) → ∃ t, exec (p.1 0 z sc b a d) s = .next t ∧ done t) ∧
      ((s.lockAt (lockOf pa)).owner ≠ none → ∃ t c' id, exec (p.1 0 z sc b a d) s = .next t ∧
        (t.slotAt k).ctx = some c' ∧ c'.pc = c.pc + 4 ∧ c'.st = .running ∧ c'.regs.s = c.regs.s ∧
        c'.regs.due = (if d = 0 then [] else [(d.toNat, id)]) ∧ Tables.unwritten s t)) ∧
    ((p.1 1 z sc b a d).wellFormed = true → Tables.nothingOutstanding s k c → Tables.homeOpen s k pa → bit leaf 8 = false →
      (s.lockAt (lockOf pa)).owner = none →
      (sc.toNat < 4 → ∃ t, exec (p.1 1 z sc b a d) s = .next t ∧ done t) ∧
      (4 ≤ sc.toNat → ∃ t, exec (p.1 1 z sc b a d) s = .next t ∧
        Tables.announced s t k c sc.toNat (.atomic pa n p.2.2 (c.sreg b) (c.sreg d) d.toNat)))

/-- When it is the firing's turn, its word can be reached at its home and no LDLK of it is still to be granted: LDLK
by a firing that holds no lock bit, of which no access to the word is outstanding and behind nothing sent before to
its home, reads the word into sd, sign-extended, and owns the bit, where the bit is free and nobody queues; where
the bit is held, it joins the end of the bit's queue and goes on, its destination still to receive the word. STUL by
the owner of the word's lock bit, none of whose lines is in flight, none of whose loads is outstanding and behind
nothing sent before to the home, writes the low bytes of sb and clears the bit. LDLK by a firing that holds a lock
bit and STUL by one that does not hold this one take the permission trap with the leaf as detail. (R120, R121, R399,
R403) -/
def Obligations.LockBits : Prop :=
  ∀ (z : BitVec 1) (b a d : BitVec 5) (s : State) (k : Nat) (c : Ctx) (pa : Nat) (leaf : Word) (x : Cx),
    let n := if z = 1 then 8 else 4
    let va := (c.sreg a).toNat
    issuesIn s k c → c.pend = [] → c.locking = false →
    (Tables.syncOperand s k c .locks .syncRead va n n pa leaf x →
      (c.lock = none → x.commit.s.inFlight c.uid pa = false → (s.lockAt (lockOf pa)).owner = none →
        (s.lockAt (lockOf pa)).queue = [] → c.awaits pa n = false → x.commit.behind pa = false → ∃ t c', exec (.ldlk z a d) s = .next t ∧
          Tables.wentOn t k c d ((BitVec.ofNat (8 * n) (s.readMem 0 pa n c.uid)).signExtend 64) ∧
          (t.slotAt k).ctx = some c' ∧ c'.lock = some (lockOf pa, va) ∧
          (t.lockAt (lockOf pa)).owner = some (k, (s.slotAt k).inc.toNat) ∧ t.mem = s.mem) ∧
      (c.lock = none → x.commit.s.inFlight c.uid pa = false → (s.lockAt (lockOf pa)).owner ≠ none →
        ∃ t c' id, exec (.ldlk z a d) s = .next t ∧ (t.slotAt k).ctx = some c' ∧ c'.pc = c.pc + 4 ∧ c'.st = .running ∧
          c'.regs.s = c.regs.s ∧ c'.regs.due = (if d = 0 then [] else [(d.toNat, id)]) ∧ c'.locking = true ∧
          t.lockAt (lockOf pa) = { s.lockAt (lockOf pa) with queue := (s.lockAt (lockOf pa)).queue ++ [c.uid] } ∧
          t.mem = s.mem) ∧
      (c.lock ≠ none → exec (.ldlk z a d) s =
        .next (s.takeTrap (.slot k) c (Tables.trap 2 0 c.pc (c.sreg a) leaf)))) ∧
    (Tables.syncOperand s k c .locks .syncWrite va n n pa leaf x →
      (c.lock.map (·.1) = some (lockOf pa) → (∀ f ∈ x.commit.s.flights, f.origin.uid ≠ c.uid) → c.loads = [] →
        x.commit.behind pa = false → ∃ t c', exec (.stul z b a) s = .next t ∧ (t.slotAt k).ctx = some c' ∧ c'.regs = c.regs ∧ c'.pc = c.pc + 4 ∧
          c'.lock = none ∧ (t.lockAt (lockOf pa)).owner = none ∧
          (t.lockAt (lockOf pa)).queue = (s.lockAt (lockOf pa)).queue ∧ Tables.stored s t pa n (c.sreg b).toNat) ∧
      (c.lock.map (·.1) ≠ some (lockOf pa) → exec (.stul z b a) s =
        .next (s.takeTrap (.slot k) c (Tables.trap 2 1 c.pc (c.sreg a) leaf))))

/-- When it is the firing's turn, nothing of it is outstanding, the word can be reached at its home (but for ACQ, on
an unchecked page and with nothing there holding the operation back; for ACQ, behind nothing sent before to its
home), and (for a fence) the injection queue has room: ACQ reads the word into sd, sign-extended, at any scope; SCLD
does so at a scope below 4. REL and SCST at a scope below 4 write the low bytes of sb, and nothing else changes but
the pc. FENCE at a scope below 4 only goes on; FENCE.P between two different paths there also makes visible to the
second every write that stands on the first at homes in its unit, whoever made it (the model's reading, log entries
20 and 111, wider than R175's writes that happen before), and changes no byte. At scope 4 and above SCLD, FENCE and
FENCE.P hold the firing at the instruction, and REL, SCST and TRIG (scope 6) let it go on, until the announcement
that they request is delivered. (R148, R153, R154, R155, R156, R175, R404, R405, R406) -/
def Obligations.OrderedAccessesAndFences : Prop :=
  ∀ (z : BitVec 1) (sc : BitVec 4) (b a d q p : BitVec 5) (s : State) (k : Nat) (c : Ctx) (pa : Nat) (leaf : Word)
      (x : Cx), issuesIn s k c → Tables.nothingOutstanding s k c →
    let n := if z = 1 then 8 else 4
    let va := (c.sreg a).toNat
    (Tables.syncOperand s k c .words .syncRead va n n pa leaf x →
      ((Instr.acq z sc a d).wellFormed = true → x.behind pa = false → ∃ t, exec (.acq z sc a d) s = .next t ∧ t.mem = s.mem ∧
        Tables.wentOn t k c d
          ((BitVec.ofNat (8 * n) (gatherBytes (fun q => s.readByte 0 q c.uid) pa n)).signExtend 64)) ∧
      ((Instr.scld z sc a d).wellFormed = true → Tables.homeOpen s k pa → bit leaf 8 = false →
        (sc.toNat < 4 → ∃ t, exec (.scld z sc a d) s = .next t ∧ t.mem = s.mem ∧
          Tables.wentOn t k c d ((BitVec.ofNat (8 * n) (s.readMem 0 pa n c.uid)).signExtend 64)) ∧
        (4 ≤ sc.toNat → ∃ t, exec (.scld z sc a d) s = .next t ∧
          Tables.announced s t k c sc.toNat (.load pa n d.toNat)))) ∧
    (Tables.syncOperand s k c .words .syncWrite va n n pa leaf x → ∀ ins : Instr,
      (ins = .rel z sc b a ∨ ins = .scst z sc b a) → ins.wellFormed = true → Tables.homeOpen s k pa → bit leaf 8 = false →
      (sc.toNat < 4 → ∃ t, exec ins s = .next t ∧ Tables.stored s t pa n (c.sreg b).toNat ∧
        Tables.wentOn t k c 0 0) ∧
      (4 ≤ sc.toNat → ∃ t, exec ins s = .next t ∧
        Tables.announced s t k c sc.toNat (.write pa n (c.sreg b)))) ∧
    (∀ ins : Instr, ∀ i j : Nat, (ins = .fence sc ∧ i = 0 ∧ j = 0) ∨ (ins = .fenceP sc q p ∧ i = p.toNat ∧ j = q.toNat) →
      ins.wellFormed = true → s.injRoom (tileOf (coreOf k)) = true →
      (sc.toNat < 4 → ∃ t, exec ins s = .next t ∧ t.mem = s.mem ∧ Tables.wentOn t k c 0 0 ∧
        t.unseen = if i = j then s.unseen else s.unseen.map fun u =>
          if u.writer = i ∧ s.homeInUnit sc.toNat k u.pa = true then
            { u with blind := u.blind &&& ~~~(BitVec.ofNat 6 (2 ^ j)) }
          else u) ∧
      (4 ≤ sc.toNat → ∃ t, exec ins s = .next t ∧ Tables.announced s t k c sc.toNat (.fence i j))) ∧
    (∃ t, exec .trig s = .next t ∧ Tables.announced s t k c 6 .trig)

/-- When it is the firing's turn and nothing of it is outstanding, each inline WAIT (a barrier object, a pipe's
level, a join counter, the event queue, a notice, the producers, a memory word under its comparison) answers a next
state: where its condition holds and (for memory) nothing that its tile has sent before to the word's home is on its
way, sd is 1 and the pc 4 further; where it does not, the firing waits at the instruction with its registers
unchanged. WAIT on a condition block that reads well (its pieces reached, behind nothing that it must follow, and
free of conflicts), none of whose conditions is parked or on a checked page, completes with bit i set for each
condition i whose word can be read and that holds, if one holds (any) or all do, and otherwise waits; a block that
is refused gives 0x200 at once. (R44, R54, R56, R57, R399, R407, R408, R409) -/
def Obligations.WaitsCompleteOrHold : Prop :=
  (∀ (any : BitVec 1) (sc : BitVec 4) (b a d : BitVec 5) (z : BitVec 1) (o : BitVec 3) (s : State) (k : Nat) (c : Ctx)
      (ins : Instr) (holds : Bool), issuesIn s k c → Tables.nothingOutstanding s k c → ins.wellFormed = true →
    let va := (c.sreg a).toNat
    let l := s.launchOf c.launch c.gen
    ((ins = .waitEvq any sc d ∧ holds = (s.coreAt (coreOf k)).evq.any (·.uid == c.uid)) ∨
     (ins = .waitNotice any sc d ∧ holds = decide (c.notice ≠ 0)) ∨
     (ins = .waitProd any sc d ∧ holds = (l.map s.producersDone).getD true) ∨
     (∃ l', l = some l' ∧ ins = .waitPipe any sc b a d ∧ va < l'.pipes.length ∧
       holds = decide ((c.sreg b).toNat ≤ l'.level (l'.pipeKey c va))) ∨
     (∃ pa leaf x, Tables.syncOperand s k c .objects .syncRead va 16 16 pa leaf x ∧ ins = .waitBar any sc a d ∧
       holds = (decide (s.bankRead pa 8 ≤ s.bankRead (pa + 8) 8) && !s.sentBefore (tileOf (coreOf k)) (s.homeNode pa))) ∨
     (∃ pa leaf x, Tables.syncOperand s k c .objects .syncRead va 32 32 pa leaf x ∧ ins = .waitJoin any sc a d ∧
       holds = (decide (s.bankRead (pa + 0x10) 4 = 0) && !s.sentBefore (tileOf (coreOf k)) (s.homeNode pa))) ∨
     (∃ pa leaf x, let n := if z = 0 then 4 else 8
       let v := BitVec.ofNat (8 * n) (s.readMem 0 pa n c.uid)
       let w := BitVec.ofNat (8 * n) (c.sreg b).toNat
       Tables.syncOperand s k c .words .syncRead va n n pa leaf x ∧ ins = .waitMem z o any sc b a d ∧
       holds = ([decide (v = w), decide (v ≠ w), decide (v.toInt < w.toInt), decide (w.toInt ≤ v.toInt),
         decide (v.toNat < w.toNat), decide (w.toNat ≤ v.toNat)].getD o.toNat false &&
           !s.sentBefore (tileOf (coreOf k)) (s.homeNode pa)))) →
    ∃ t c', exec ins s = .next t ∧ (t.slotAt k).ctx = some c' ∧ t.mem = s.mem ∧
      if holds then c'.regs = (c.setS d 1).regs ∧ c'.pc = c.pc + 4 ∧ c'.st = .running
      else c'.regs = c.regs ∧ c'.pc = c.pc ∧ ∃ w, c'.st = .waiting w) ∧
  (∀ (any : BitVec 1) (sc : BitVec 4) (a d : BitVec 5) (s : State) (k : Nat) (c : Ctx) (hp cp : List (Place × Nat))
      (x y z : Cx), issuesIn s k c → Tables.nothingOutstanding s k c → (Instr.waitList any sc a d).wellFormed = true →
    (Cx.mk s (.slot k) c).places .syncRead 32 (c.sreg a).toNat 1 = .ok (hp, x) → x.blockWaits hp = false →
    let h := x.placeBytes 32 hp
    let count := listNat h 8 1
    let ok := 1 ≤ count ∧ count ≤ 4 ∧ listNat h 9 1 ≤ 1 ∧ listNat h 0x0A 22 = 0
    x.places .syncRead 32 ((c.sreg a).toNat + 32) (if ok then count else 0) = .ok (cp, y) → y.blockWaits cp = false →
    y.readPlaces (hp ++ cp) = .ok z →
    (¬ok → ∃ t, exec (.waitList any sc a d) s = .next t ∧ Tables.wentOn t k z.c d 0x200 ∧ t.mem = s.mem) ∧
    (ok → ∀ ws q, z.blockConds (((s.launchOf c.launch c.gen).map (·.pipes.length)).getD 0) (z.placeBytes 32 cp) count =
        .ok (ws, q) →
      (ws = none → ∃ t, exec (.waitList any sc a d) s = .next t ∧ Tables.wentOn t k q.c d 0x200 ∧ t.mem = s.mem) ∧
      (∀ l : List WaitCond, ws = some l → (∀ w ∈ l, w.parked = false ∧ w.checked = false) →
        let bits := ((List.range l.length).map fun i => if (l[i]?.any fun w => s.condReady k c w && s.condHolds k c w) then 2 ^ i else 0).sum
        ∃ t c', exec (.waitList any sc a d) s = .next t ∧ (t.slotAt k).ctx = some c' ∧ t.mem = s.mem ∧
          if (any = 1 ∧ bits ≠ 0) ∨ (any = 0 ∧ bits = 2 ^ l.length - 1) then
            c'.regs = (q.c.setS d (BitVec.ofNat 64 bits)).regs ∧ c'.pc = c.pc + 4 ∧ c'.st = .running
          else c'.regs = q.c.regs ∧ c'.pc = c.pc ∧
            ∃ w, c'.st = .waiting w ∧ w.conds = l ∧ w.rd = d.toNat ∧
              w.deadline = if listNat h 0 8 = 0 then none else some (s.time + listNat h 0 8))))

/-- When it is the firing's turn: SEND, whose header and payload read well on unchecked pages, behind nothing that
they must follow, and of which nothing else is outstanding, answers a next state with its status in sd. Status 0 at
a scope below 4, with room in the injection queue, puts the message at the end of the queue with the header's
opcode, flags and destination, the sender's slot and incarnation, and the payload; at scope 4 and above the message
waits for the announcement; another status sends nothing. HTAG with tag 1 to 15 binds the tag at the core to the
handler actor that sa describes, or unbinds it where sa describes none, and leaves the other tags; with tag 0 it
changes nothing. WID writes field i of the work ID, 0 where the launch has no such field. (R58, R130, R133, R153,
R410, R411, R415) -/
def Obligations.MessagesAndIdentity : Prop :=
  ∀ (s : State) (k : Nat) (c : Ctx) (a d : BitVec 5), issuesIn s k c →
    (∀ (sc : BitVec 4) (hp pp : List (Place × Nat)) (x y z : Cx), (Instr.send sc a d).wellFormed = true →
      Tables.nothingOutstanding s k c → (Cx.mk s (.slot k) c).places .syncRead 16 (c.sreg a).toNat 3 = .ok (hp, x) →
      x.blockWaits hp = false →
      let h := x.placeBytes 16 hp
      x.places .syncRead 16 ((c.sreg a).toNat + 48) (if listNat h 2 2 ≤ 256 then (listNat h 2 2 + 15) / 16 else 0) =
        .ok (pp, y) → y.blockWaits pp = false → y.readPlaces (hp ++ pp) = .ok z → z.c.checkedSince = none →
      ∃ t c', exec (.send sc a d) s = .next t ∧ (t.slotAt k).ctx = some c' ∧ c'.pc = c.pc + 4 ∧ c'.st = .running ∧
        c'.regs = (z.c.setS d (BitVec.ofNat 64 (sendStatus h))).regs ∧ t.mem = s.mem ∧
        (sendStatus h ≠ 0 → (t.tileAt (tileOf (coreOf k))).inj = (s.tileAt (tileOf (coreOf k))).inj ∧ t.pan = s.pan) ∧
        (sendStatus h = 0 → sc.toNat < 4 → s.injRoom (tileOf (coreOf k)) = true →
          ∃ m, (t.tileAt (tileOf (coreOf k))).inj = (s.tileAt (tileOf (coreOf k))).inj ++ [.packet m 0] ∧
            m.opcode = listNat h 0 1 ∧ m.flags = listNat h 1 1 ∧ m.len = listNat h 2 2 ∧
            m.node + m.agent * 2048 = listNat h 4 2 ∧ m.tslot = listNat h 6 2 ∧ m.tinc = listNat h 8 1 ∧
            m.sslot = k % 65536 ∧ m.sinc = (s.slotAt k).inc.toNat ∧ m.reply = listNat h 0x10 8 ∧
            m.op0 = listNat h 0x18 8 ∧ m.op1 = listNat h 0x20 8 ∧ m.aux = listNat h 0x28 8 ∧
            m.payload = (z.placeBytes 16 pp).take (listNat h 2 2)) ∧
        (sendStatus h = 0 → 4 ≤ sc.toNat → (t.tileAt (tileOf (coreOf k))).inj = (s.tileAt (tileOf (coreOf k))).inj ∧
          ∃ an, t.pan = s.pan ++ [an] ∧ an.scope = sc.toNat)) ∧
    (∀ g : BitVec 4, ∃ t, exec (.htag a g) s = .next t ∧ (t.slotAt k).ctx.map (·.pc) = some (c.pc + 4) ∧
      (t.slotAt k).ctx.map (·.regs) = some c.regs ∧ (t.coreAt (coreOf k)).enable = (s.coreAt (coreOf k)).enable ∧
      (∀ i, i ≠ g.toNat → (t.coreAt (coreOf k)).routes.get? i = (s.coreAt (coreOf k)).routes.get? i) ∧
      (g = 0 → (t.coreAt (coreOf k)).routes = (s.coreAt (coreOf k)).routes) ∧
      (g ≠ 0 →
        let w := c.sreg a
        let handler := ((s.launchOf c.launch c.gen).bind (·.actors[field w 0 4]?)).map (·.kind) = some 2
        (bit w 7 = true ∧ field w 8 56 = 0 ∧ handler → (t.coreAt (coreOf k)).routes.get? g.toNat =
          some { launch := c.launch, gen := c.gen, actor := field w 0 4, hprio := field w 4 3 }) ∧
        (¬(bit w 7 = true ∧ field w 8 56 = 0 ∧ handler) → (t.coreAt (coreOf k)).routes.get? g.toNat = none))) ∧
    (∀ (i : BitVec 5) (l : Launch), s.launchOf c.launch c.gen = some l →
      exec (.wid i d) s = .next (wrote s (.slot k) (c.setS d (BitVec.ofNat 64
        (if i.toNat < l.fields then
          c.wid.toNat / 2 ^ (l.widths.take i.toNat).sum % 2 ^ l.widths.getD i.toNat 0 else 0))) 4))

/-- When it is the firing's turn and nothing of it is outstanding: SPAWN of a record that can be reached at its
home, on an unchecked page and behind nothing sent before to it, adds the record to its district's and goes on;
where the counter is zero or below, as int32, it also requests an announcement at district scope, with which the
record becomes ready. JOIN of a record that can be reached so too takes, at a scope below 4, one from the 32-bit
counter at offset 0x10, modulo 2^32, writes no other byte, and makes a spawned record whose counter reaches 0 ready
work; at a wider scope it requests its announcement. LAUNCH at a scope below 4, whose header can be reached on
unchecked pages, writes the status of the enqueue to sd and the handle to the next register (none after s0 and s31),
and the launch table, the pool and the admission queues become what the enqueue gives. (R48, R50, R51, R153, R412,
R413, R414, R505) -/
def Obligations.ContinuationsAndLaunches : Prop :=
  ∀ (s : State) (k : Nat) (c : Ctx) (a d : BitVec 5) (sc : BitVec 4), issuesIn s k c → Tables.nothingOutstanding s k c →
    let va := (c.sreg a).toNat
    (∀ pa leaf x, Tables.syncOperand s k c .objects .syncRead va 32 32 pa leaf x → bit leaf 8 = false → x.behind pa = false →
      ∃ t c' r, exec (.spawn a) s = .next t ∧ (t.slotAt k).ctx = some c' ∧ c'.pc = c.pc + 4 ∧ c'.regs = c.regs ∧
        c'.st = .running ∧ t.mem = s.mem ∧ t.conts = s.conts ++ [r] ∧ r.home = pa ∧ r.va = va ∧
        r.district = k / 1024 ∧ r.launch = c.launch ∧ r.gen = c.gen ∧
        (0 < (BitVec.ofNat 32 (s.bankRead (pa + 0x10) 4)).toInt → c'.pend = [] ∧ t.pan = s.pan) ∧
        ((BitVec.ofNat 32 (s.bankRead (pa + 0x10) 4)).toInt ≤ 0 → ∃ an p, t.pan = s.pan ++ [an] ∧ an.scope = 4 ∧
          c'.pend = [p] ∧ p.kind = .spawn r.id ∧ p.announced = some an.id)) ∧
    (∀ pa leaf x, Tables.syncOperand s k c .objects .syncBoth va 32 32 pa leaf x → bit leaf 8 = false →
      (Instr.join sc a).wellFormed = true → s.stranded pa = false → s.cutOff pa = false →
      s.sentBefore (tileOf (coreOf k)) (s.homeNode pa) = false →
      let v := (s.bankRead (pa + 0x10) 4 + (2 ^ 32 - 1)) % 2 ^ 32
      (sc.toNat < 4 → ∃ t, exec (.join sc a) s = .next t ∧ Tables.wentOn t k c 0 0 ∧ t.bankRead (pa + 0x10) 4 = v ∧
        (∀ q, q < pa + 0x10 ∨ pa + 0x14 ≤ q → t.byteAt q = s.byteAt q) ∧
        (v ≠ 0 ∨ (∀ r ∈ s.conts, r.home ≠ pa) → t.ready = s.ready ∧ t.conts = s.conts) ∧
        (∀ r ∈ s.conts, r.home = pa → r.fixed = none → v = 0 →
          ∃ w, t.ready = s.ready ++ [w] ∧ w.kind = 3 ∧ w.ctx = none ∧ w.scope = sc.toNat ∧
            t.conts.length < s.conts.length)) ∧
      (4 ≤ sc.toNat → ∃ t, exec (.join sc a) s = .next t ∧ Tables.announced s t k c sc.toNat (.join pa va))) ∧
    (∀ pa qa ra x y w leaf leaf' leaf'', va % 8 = 0 → (Cx.mk s (.slot k) c).operand .blocks .syncRead va 8 8 = .ok (.home pa leaf, x) →
      x.operand .blocks .syncRead (va + 64) 8 8 = .ok (.home qa leaf', y) →
      y.operand .blocks .syncRead (va + 120) 8 8 = .ok (.home ra leaf'', w) →
      bit leaf 8 = false → bit leaf' 8 = false → bit leaf'' 8 = false →
      (Instr.launch sc a d).wellFormed = true → sc.toNat < 4 →
      ∀ l st h u, s.launchOf c.launch c.gen = some l →
        s.enqueue c.asn (s.enqRead c.asn va 128)
          (some { origin := { uid := c.uid, slot := k, inc := (s.slotAt k).inc.toNat, asn := c.asn, launch := c.launch,
                              gen := c.gen, seq := c.seq },
                  depth := l.depth, scope := sc.toNat })
          (some (c.launch, c.gen)) (16 + k) = .ok (st, h, u) →
        ∃ t c', exec (.launch sc a d) s = .next t ∧ (t.slotAt k).ctx = some c' ∧ c'.pc = c.pc + 4 ∧ c'.st = .running ∧
          c'.regs = (if d = 0 ∨ d = 31 then c.setS d (BitVec.ofNat 64 st)
            else (c.setS d (BitVec.ofNat 64 st)).setS (d + 1) (BitVec.ofNat 64 h)).regs ∧
          t.launches = u.launches ∧ t.gens = u.gens ∧ t.pool = u.pool ∧ t.admission = u.admission ∧ t.mem = s.mem)

/-- When it is the firing's turn and nothing of it is outstanding, for a pipe of its launch whose home no page move
holds: PPUSH from a 16-byte aligned block that reads well adds the record behind the pipe's others where it holds
fewer than depth, and otherwise waits, the pipe and the registers as they were. PPOP to an aligned block that can be
written takes the firing's oldest reserved record where it has one, and otherwise the pipe's oldest, and goes on
with an empty write buffer; in the own share the record's bytes then stand at the address. A record with an
uncorrectable error raises the integrity trap and stays (log entry 65). With neither record it waits. PPEEK writes
the number of reserved and unreserved records. A pipe number that the launch lacks raises the permission trap with
the number as detail (for a push or pop whose record's first piece misses no translation and is in the address
space). No byte of memory changes: that records have no place in memory is the model's choice (log entry 137). (R43,
R44, R114, R115, R416, R417, R418, R419) -/
def Obligations.PipeOperations : Prop :=
  ∀ (s : State) (k : Nat) (c : Ctx) (a d p : BitVec 5) (l : Launch), issuesIn s k c → Tables.nothingOutstanding s k c →
    s.launchOf c.launch c.gen = some l →
    let va := (c.sreg a).toNat
    let key := l.pipeKey c p.toNat
    (∀ e, l.pipes[p.toNat]? = some e → s.pipeHeld l c p.toNat e = false →
      (∀ rec x, va % 16 = 0 → (Cx.mk s (.slot k) c).readRecord va (e.recSize / 16) = .ok (rec, x) →
        (l.level key < e.depth → ∃ t c', exec (.ppush a p) s = .next t ∧ (t.slotAt k).ctx = some c' ∧
          c'.pc = c.pc + 4 ∧ c'.regs = x.c.regs ∧ t.mem = s.mem ∧ ∃ l', t.launches.get? c.launch = some l' ∧
            l'.records.get key [] = l.records.get key [] ++ [rec] ∧
            ∀ q, q ≠ key → l'.records.get q [] = l.records.get q []) ∧
        (e.depth ≤ l.level key → ∃ t c', exec (.ppush a p) s = .next t ∧ (t.slotAt k).ctx = some c' ∧ c'.pc = c.pc ∧
          c'.stalled = true ∧ c'.st = .running ∧ t.launches = s.launches ∧ t.mem = s.mem)) ∧
      (∀ ps x y, va % 16 = 0 → (Cx.mk s (.slot k) c).places .syncWrite 16 va (e.recSize / 16) = .ok (ps, x) →
        x.checkLines (ps.filterMap fun q => q.1.checkedLine.map (·, lineOf q.2)) true = .ok y →
        let rec' := (c.reserved.get key [] ++ l.records.get key []).head?
        (∀ r, rec' = some r → r ≠ [] → ∃ t c' l', exec (.ppop a p) s = .next t ∧ (t.slotAt k).ctx = some c' ∧ c'.pc = c.pc + 4 ∧
          c'.regs = c.regs ∧ c'.region.wbuf = [] ∧ t.mem = s.mem ∧ t.launches.get? c.launch = some l' ∧
          c'.reserved.get key [] = (c.reserved.get key []).tail ∧
          l'.records.get key [] = (if c.reserved.get key [] = [] then (l.records.get key []).tail
            else l.records.get key []) ∧
          (0xFFFFFFFFFFE000 ≤ va → e.recSize % 16 = 0 → e.recSize ≤ 256 → ∀ i, i < e.recSize →
            c'.share.get (va % 0x2000 + i) 0 = r.getD i 0)) ∧
        (rec' = some [] → exec (.ppop a p) s = .next (s.takeTrap (.slot k) c (y.recordTrap e (l.away.contains key)))) ∧
        (rec' = none → ∃ t c', exec (.ppop a p) s = .next t ∧ (t.slotAt k).ctx = some c' ∧ c'.pc = c.pc ∧
          c'.regs = c.regs ∧ c'.stalled = true ∧ t.launches = s.launches ∧ t.mem = s.mem)) ∧
      exec (.ppeek p d) s = .next (wrote s (.slot k) (c.setS d (BitVec.ofNat 64
        ((c.reserved.get key []).length + (l.records.get key []).length))) 4)) ∧
    (let found (u : Use) : Prop := va % 16 = 0 ∧ ∀ e, (Cx.mk s (.slot k) c).operand .blocks u va 16 16 = .error e →
        (∀ v n, e ≠ .miss v n) ∧ ∀ t, e = .raise t → t.cls ≠ 1;
      l.pipes[p.toNat]? = none → ∀ ins : Instr,
      (ins = .ppush a p ∧ found .syncRead) ∨ (ins = .ppop a p ∧ found .syncWrite) ∨ ins = .ppeek p d →
      exec ins s = .next (s.takeTrap (.slot k) c (Tables.trap 2 3 c.pc c.pc (BitVec.ofNat 64 p.toNat))))

/-- When it is the firing's turn: MIGR with nothing outstanding begins the move to the first qualifying slot of the
tile that owns the address, and the firing is away until it arrives; a handler, a gang firing (log entry 32) and a
firing whose address has no such slot get 1. LEASE commits and answers BADINDEX 3, else BADTIME 4 (0 or above
10,000,000 ticks), else NOTICED 1 (which the model answers from the acceptance of the recast on, log entry 93), else
0 for a lease held already, else ALLOW 2 at the allowance, else 0; with 0 the launch holds the lease until now plus
the ticks. UNLEASE gives it back and answers 0, or 3. ROLE answers R422's word and changes nothing else. NACK
answers 0 for the pending notice of that serial, which the launch has then acknowledged, and 1 otherwise. BOOST
answers 2 for a length of 0 or above 100,000 ticks, 0 where a running lease is renewed or the district's surplus
covers the charge, and 1 otherwise; a lease whose time is over is first ended. (R67, R83, R84, R85, R258, R259,
R420, R421, R422, R423, R424, R467) -/
def Obligations.PlacementLeasesAndRoles : Prop :=
  ∀ (s : State) (k : Nat) (c : Ctx) (b : BitVec 1) (e a d : BitVec 5), issuesIn s k c →
    let i := (c.sreg a).toNat
    let went (ins : Instr) (v : Word) (t : State) : Prop := exec ins s = .next t ∧ Tables.wentOn t k c d v
    (Tables.nothingOutstanding s k c →
      let gang := ((s.launchOf c.launch c.gen).map (·.gang)).getD false
      (c.kind = 2 ∨ gang = true → (∀ v u, (Cx.mk s (.slot k) c).translate .syncRead false i 1 ≠ .error (.miss v u)) →
        (Cx.mk s (.slot k) c).translate .syncRead false i 1 ≠ .error .stall → ∃ t, went (.migr a d) 1 t) ∧
      (∀ pa leaf x, c.kind ≠ 2 → gang = false →
        (Cx.mk s (.slot k) c).translate .syncRead false i 1 = .ok (.home pa leaf, x) →
        let dst := (s.owningTile pa).bind (s.slotOn ((List.range 4).filter fun j =>
          (s.subAt (coreOf k) j).owner == some c.uid))
        (dst = none → ∃ t, went (.migr a d) 1 t) ∧
        (∀ j, dst = some j → ∃ t c', exec (.migr a d) s = .next t ∧ (t.slotAt k).ctx = some c' ∧ c'.st = .moving ∧
          c'.pc = c.pc ∧ c'.regs = c.regs ∧ t.moves = s.moves ++ [{ src := k, dst := j, rd := some d.toNat }]))) ∧
    (let n := (c.sreg e).toNat
      let held := (s.leases.filter fun m => m.launch == c.launch && m.gen == c.gen && decide (s.time < m.expiry)).length
      let allow := ((s.launchOf c.launch c.gen).map (·.leaseAllow)).getD 0
      let tile := s.indexTile c (b == 1) i
      let noticed (t : Nat) : Prop := field (s.roleOf t) 2 3 ≠ 0 ∨ ∃ r ∈ s.recasts, r.tile = t
      let mine := s.leased c.launch c.gen (b == 1) i
      (tile = none → ∃ t, went (.lease b e a d) 3 t ∧ t.leases = s.leases) ∧
      (∀ j, tile = some j → n = 0 ∨ 10000000 < n → ∃ t, went (.lease b e a d) 4 t ∧ t.leases = s.leases) ∧
      (∀ j, tile = some j → 1 ≤ n → n ≤ 10000000 → noticed j → ∃ t, went (.lease b e a d) 1 t ∧ t.leases = s.leases) ∧
      (∀ j, tile = some j → 1 ≤ n → n ≤ 10000000 → ¬noticed j → mine = false → allow ≤ held →
        ∃ t, went (.lease b e a d) 2 t ∧ t.leases = s.leases) ∧
      (∀ j, tile = some j → 1 ≤ n → n ≤ 10000000 → ¬noticed j → mine = true ∨ held < allow →
        ∃ t, went (.lease b e a d) 0 t ∧ t.leased c.launch c.gen (b == 1) i = true ∧
          ∀ m ∈ t.leases, m.launch = c.launch → m.gen = c.gen → m.blk = (b == 1) → m.index = i → m.expiry = s.time + n) ∧
      (tile = none → exec (.unlease b a d) s = .next (wrote s (.slot k) (c.setS d 3) 4)) ∧
      (∀ j, tile = some j → ∃ t, exec (.unlease b a d) s = .next (wrote t (.slot k) (c.setS d 0) 4) ∧
        t.leased c.launch c.gen (b == 1) i = false ∧ t.slots = s.slots ∧
        ∀ m, m ∈ t.leases ↔ m ∈ s.leases ∧ ¬(m.launch = c.launch ∧ m.gen = c.gen ∧ m.blk = (b == 1) ∧ m.index = i))) ∧
    (∀ f : BitVec 2, (Instr.role f a d).wellFormed = true →
      exec (.role f a d) s = .next (wrote s (.slot k) (c.setS d (s.roleAnswer c f.toNat (c.sreg a))) 4)) ∧
    (let serial := i % 256
      let pending := ∃ r ∈ s.recasts, r.serial = serial ∧ (c.launch, c.gen) ∈ r.affected
      (¬pending → exec (.nack a d) s = .next (wrote s (.slot k) (c.setS d 1) 4)) ∧
      (pending → ∃ t c', exec (.nack a d) s = .next t ∧ (t.slotAt k).ctx = some c' ∧ c'.pc = c.pc + 4 ∧
        c'.regs = (c.setS d 0).regs ∧
        ∀ r ∈ t.recasts, r.serial = serial → (c.launch, c.gen) ∈ r.affected → (c.launch, c.gen) ∈ r.acked)) ∧
    (let charge := (40 * 2 ^ c.cls * 13 + 15) / 16
      let running := c.boost.any fun m => !m.suspended && decide (s.time < m.expiry)
      let expired := c.boost.any fun m => !m.suspended && decide (m.expiry ≤ s.time)
      let v := if expired then (s.endBoost (coreOf k) c).putCtx (.slot k) { c with boost := none } else s
      let f := if expired then { c with boost := none } else c
      (i = 0 ∨ 100000 < i → exec (.boost a d) s = .next (wrote v (.slot k) (f.setS d 2) 4)) ∧
      (1 ≤ i → i ≤ 100000 → running = true ∨ v.covers (k / 1024) charge = true →
        ∃ t c', exec (.boost a d) s = .next t ∧ (t.slotAt k).ctx = some c' ∧ c'.pc = c.pc + 4 ∧
          c'.regs = (c.setS d 0).regs ∧
          c'.boost = some { expiry := s.time + i, left := i, suspended := false, charge := charge } ∧
          t.power.reserved.get (k / 1024) 0 = v.power.reserved.get (k / 1024) 0 + if running then 0 else charge) ∧
      (1 ≤ i → i ≤ 100000 → running = false → v.covers (k / 1024) charge = false →
        exec (.boost a d) s = .next (wrote v (.slot k) (f.setS d 1) 4)))

/-- When it is an issuer's turn: CRR writes the register's value to sd, for every register of R312 (the core
registers are the firing's core's; that a system core and a hub core have their own, and that wid, slot, notice and
perf are then of such a core's context, is the model's reading, log entry 44). CRR of cr.evq gives 0 where the queue
holds no entry of the firing, and otherwise takes its oldest entry out and remembers it in the region. CRW of
cr.status sets rm, ltype (7 leaves it) and clears the sticky bits written as 1, with txpos where tx is cleared; of
cr.perf it sets the request; of cr.htag the enables. A read-only register keeps its value. A system or hub core also
sets its weight (0 leaves it) and its spans; in a firing those writes, and one of cr.duty, take the privilege trap.
(R58, R107, R124, R188, R251, R254, R312, R397, R425) -/
def Obligations.ControlRegisters : Prop :=
  (∀ (s : State) (who : Issuer) (c : Ctx) (d : BitVec 5), issues s who c →
    let n := (Cx.mk s who c).regCore
    let k := s.coreAt n
    ∀ p ∈ ([(0x000, c.regs.status), (0x001, c.regs.pfx), (0x002, c.wid),
        (0x003, BitVec.ofNat 64 (who.number % 65536 + (s.slotAt who.number).inc.toNat * 65536)), (0x004, c.notice),
        (0x005, s.perfWord n c), (0x010, k.htag), (0x011, k.mxw.setWidth 64),
        (0x012, match who with
          | .slot _ => BitVec.ofNat 64 (s.fetchDuty n)
          | .sys _ => k.duty.setWidth 64),
        (0x014, BitVec.ofNat 64 s.time), (0x020, k.span.get 0 0), (0x021, k.span.get 1 0), (0x022, k.span.get 2 0),
        (0x023, k.span.get 3 0)] : List (BitVec 12 × Word)),
      exec (.crr p.1 d) s = .next (wrote s who (c.setS d p.2) 4)) ∧
  (∀ (s : State) (k : Nat) (c : Ctx) (d : BitVec 5), issuesIn s k c →
    ((∀ e ∈ (s.coreAt (coreOf k)).evq, e.uid ≠ c.uid) → exec (.crrEvq d) s = .next (wrote s (.slot k) (c.setS d 0) 4)) ∧
    (∀ pre e post, (s.coreAt (coreOf k)).evq = pre ++ e :: post → e.uid = c.uid → (∀ f ∈ pre, f.uid ≠ c.uid) →
      ∃ t c', exec (.crrEvq d) s = .next t ∧ (t.slotAt k).ctx = some c' ∧ c'.pc = c.pc + 4 ∧
        c'.regs = (c.setS d e.word).regs ∧ c'.region.evqRead = c.region.evqRead ++ [e] ∧
        ((∀ j < 8, ∀ f, (s.slotAt (coreOf k * 8 + j)).ctx = some f → f.evHeld = []) →
          (t.coreAt (coreOf k)).evq = pre ++ post))) ∧
  (∀ (s : State) (who : Issuer) (c : Ctx) (r : BitVec 12) (a : BitVec 5), issues s who c →
    let v := c.sreg a
    let n := (Cx.mk s who c).regCore
    (∃ t c', exec (.crw 0x000 a) s = .next t ∧ t.ctxOf who = some c' ∧ c'.pc = c.pc + 4 ∧ c'.regs.s = c.regs.s ∧
      field c'.regs.status 0 2 = field v 0 2 ∧
      field c'.regs.status 2 3 = (if field v 2 3 = 7 then field c.regs.status 2 3 else field v 2 3) ∧
      bit c'.regs.status 5 = bit c.regs.status 5 ∧
      (∀ i, 8 ≤ i → i < 15 → bit c'.regs.status i = (bit c.regs.status i && !bit v i)) ∧
      field c'.regs.status 15 3 = if bit v 14 then 0 else field c.regs.status 15 3) ∧
    (∃ t c', exec (.crw 0x005 a) s = .next t ∧ t.ctxOf who = some c' ∧ c'.pc = c.pc + 4 ∧ c'.req = v.setWidth 3 ∧
      c'.regs = c.regs) ∧
    (∃ t, exec (.crw 0x010 a) s = .next t ∧ t.ctxOf who = some { c with pc := c.pc + 4, verdicts := [], stalled := false } ∧
      (t.coreAt n).enable = v.setWidth 16 ∧ (t.coreAt n).routes = (s.coreAt n).routes) ∧
    (r ∈ ([0x001, 0x002, 0x003, 0x004, 0x013, 0x014] : List (BitVec 12)) → ∃ t, exec (.crw r a) s = .next t ∧
      t.ctxOf who = some { c with pc := c.pc + 4, verdicts := [], stalled := false } ∧ t.coreAt n = s.coreAt n ∧
      t.time = s.time)) ∧
  (∀ (s : State) (m : Nat) (c : Ctx) (a : BitVec 5), issues s (.sys m) c →
    let v := c.sreg a
    (∃ t, exec (.crw 0x011 a) s = .next t ∧
      (t.coreAt (16384 + m)).mxw = if field v 0 4 = 0 then (s.coreAt (16384 + m)).mxw else v.setWidth 4) ∧
    (∀ i < 4, ∃ t, exec (.crw (BitVec.ofNat 12 (0x020 + i)) a) s = .next t ∧
      (t.coreAt (16384 + m)).span.get i 0 = v &&& 0xFCFFFFFFFFE00003)) ∧
  (∀ (s : State) (k : Nat) (c : Ctx) (r : BitVec 12) (a : BitVec 5), turn s (.slot k) c → c.pend = [] →
    bit c.regs.status 5 = false → r ∈ ([0x011, 0x012, 0x020, 0x021, 0x022, 0x023] : List (BitVec 12)) →
    exec (.crw r a) s =
      .next (s.takeTrap (.slot k) c (Tables.trap 5 3 c.pc c.pc (BitVec.ofNat 64 (encode (.crw r a))))))

/-- When it is a firing's turn and nothing is pending at it, TRAP, SYSC and BKPT #n stop it, with its registers and
its open region as they were: its trap has class 13, access 3, subcode 0, 1 or 2 (the func3), address the
instruction's own, detail n, and the resume address pc + 4 for TRAP and SYSC and pc for BKPT; the slot joins the
trap queue at its end. With no trap queued before it, TRAP_DELIVERY then latches the cause word with class, access,
subcode, slot and incarnation, and the address and detail words, at the lowest-numbered system core that is eligible
for class 13 (the one queue and what makes a core eligible are the model's reading, log entries 30 and 100). (R426,
R449, R450, R451, R452) -/
def Obligations.RequestedTraps : Prop :=
  ∀ (s : State) (k : Nat) (c : Ctx) (n : BitVec 12) (ins : Instr) (sub : Nat) (resume : Word), issuesIn s k c →
    c.pend = [] → k < 65536 →
    (ins = .trap n ∧ sub = 0 ∧ resume = c.pc + 4) ∨ (ins = .sysc n ∧ sub = 1 ∧ resume = c.pc + 4) ∨
      (ins = .bkpt n ∧ sub = 2 ∧ resume = c.pc) →
    ∃ t c' tr, exec ins s = .next t ∧ (t.slotAt k).ctx = some c' ∧ c'.st = .trapped tr none ∧ c'.regs = c.regs ∧
      c'.region = c.region ∧ c'.share = c.share ∧ c'.pc = c.pc ∧ tr.cls = 13 ∧ tr.async = false ∧ tr.access = 3 ∧
      tr.subcode = sub ∧ tr.addr = c.pc ∧ tr.detail = n.setWidth 64 ∧ tr.resume = resume ∧ t.trapq = s.trapq ++ [k] ∧
      t.mem = s.mem ∧
      (s.trapq = [] → ∀ m, m < 16 → s.eligible 13 m = true → (∀ j, j < m → s.eligible 13 j = false) →
        ∃ u, exec .trapDelivery t = .next u ∧ (u.sysAt m).latch = some
          { cause := BitVec.ofNat 64 (13 + 3 * 64 + sub * 256 + k * 65536 + (s.slotAt k).inc.toNat * 2 ^ 32),
            addr := c.pc, detail := n.setWidth 64 } ∧
          (u.sysAt m).serving.head? = some k ∧ u.trapq = [])

/-- TRAP_DELIVERY, with a trap at the head of the queue that does not escalate (nor is a firing's while a freeze has
stopped the firings), and a system core eligible for its class: the lowest-numbered such core latches the trap's
three words, begins at the entry of its landing SRAM and serves the slot or core; the queue loses that trap, and
nothing else changes. When it is a system or hub core's turn: TACK releases the latch, keeps what the core serves,
and goes on. ERET on a core that serves no trap only goes on. On a core that serves slot j, ERET releases the latch
and the service; with disposition 0, and a launch that is not killed, the firing runs on at the resume address with
its registers as its window holds them, goes back into the WAIT in which it was stopped, where the resume address is
still its own, or, with an asynchronous trap waiting, stops again at the resume address for the oldest one; with
disposition 1 the firing ends with its region discarded; with disposition 2 its launch is killed. That system cores'
own traps stand in the one queue (log entry 30), that its head is delivered first, that ERET there goes on at pc + 4
and that it acts on the trap delivered last (log entry 100) are the model's readings. (R427, R449, R450, R451, R452,
R455, R456, R463, R477) -/
def Obligations.TrapReturn : Prop :=
  (∀ (s : State) (n : Nat) (rest : List Nat) (tr : Trap) (m : Nat), s.trapq = n :: rest → s.escalates n = false →
    (n < 65536 → s.halted = false) →
    s.trapOf n = some tr → m < 16 → s.eligible tr.cls m = true → (∀ j, j < m → s.eligible tr.cls j = false) →
    ∃ u, exec .trapDelivery s = .next u ∧ u.trapq = rest ∧ u.slots = s.slots ∧ u.mem = s.mem ∧
      u.sysAt m = { s.sysAt m with
        latch := some { cause := tr.cause n (if n < 65536 then (s.slotAt n).inc.toNat else 0), addr := tr.addr,
                        detail := tr.detail }
        serving := n :: (s.sysAt m).serving
        ctx := { (s.sysAt m).ctx with pc := Config.landingEntry m } } ∧
      ∀ j, j ≠ m → u.sysAt j = s.sysAt j) ∧
  ∀ (s : State) (n : Nat) (c : Ctx), issues s (.sys n) c →
    (∃ t c', exec .tack s = .next t ∧ t.ctxOf (.sys n) = some c' ∧ c'.pc = c.pc + 4 ∧ c'.regs = c.regs ∧
      (t.sysAt n).latch = none ∧ (t.sysAt n).serving = (s.sysAt n).serving ∧ t.slots = s.slots) ∧
    ((s.sysAt n).serving = [] → exec .eret s = .next (wrote s (.sys n) c 4)) ∧
    (∀ j rest cj tr inside, (s.sysAt n).serving = j :: rest → j < 65536 → (s.slotAt j).ctx = some cj →
      cj.st = .trapped tr inside →
      ∃ t c', exec .eret s = .next t ∧ t.ctxOf (.sys n) = some c' ∧ c'.pc = c.pc + 4 ∧ (t.sysAt n).latch = none ∧
        (t.sysAt n).serving = rest ∧
        (tr.disposition = 0 → ((s.launchOf cj.launch cj.gen).map (·.killed)).getD false = false →
          ∃ cj', (t.slotAt j).ctx = some cj' ∧ cj'.pc = tr.resume ∧ cj'.regs = cj.regs ∧ cj'.region = cj.region ∧
            (∀ a w, cj.asyncs = a :: w → ∃ i, cj'.st = .trapped { a with resume := tr.resume } i ∧ cj'.asyncs = w) ∧
            (cj.asyncs = [] → (∀ w, inside = some w → tr.resume = cj.pc → cj'.st = .waiting w) ∧
              (inside = none ∨ tr.resume ≠ cj.pc → cj'.st = .running))) ∧
        (tr.disposition = 1 → ((s.launchOf cj.launch cj.gen).map (·.killed)).getD false = false →
          ∃ cj', (t.slotAt j).ctx = some cj' ∧ cj'.st = .ended false ∧ cj'.regs = {} ∧ cj'.region.wbuf = [] ∧
            t.flights = s.flights) ∧
        (tr.disposition = 2 → ∀ l, s.launchOf cj.launch cj.gen = some l →
          (∃ cj', (t.slotAt j).ctx = some cj' ∧ cj'.st = .ended true) ∧
          ∃ l', t.launches.get? cj.launch = some l' ∧ l'.killed = true))

/-- When it is a system or hub core's turn: TLBW, with its 16-byte aligned request in tier 4 at a physical address
(log entry 14), on a correctable line, not in the core's landing SRAM, and for a hub core not in a kernel-reserved
range (log entry 113), writes the status to the request's byte 0x0D and no other byte; with status 0 the tile's TLB,
and that of the core named, if one is, hold the entry with the leaf, and contexts of that core that wait for an
address in its page run again; with another status no TLB changes. TLBI of scope 6 and above, or of a hub core,
removes from the TLB of every core and tile in its scope the entries that the selector names (a page of an address
space, an address space, or all) and leaves every other entry. (R109, R111, R113, R428, R429) -/
def Obligations.TlbMaintenance : Prop :=
  ∀ (s : State) (n : Nat) (c : Ctx) (b a : BitVec 5), issues s (.sys n) c →
    (let req := (c.sreg b).toNat
      let lo := s.readMem 0 req 8
      let hi := s.readMem 0 (req + 8) 8
      let tile := hi / 2 ^ 16 % 2 ^ 16
      let core := hi / 2 ^ 32 % 2 ^ 8
      let leaf := c.sreg a &&& 0x7FFFFFFFFFFFFF
      let st := s.tlbwStatus leaf lo tile core (hi / 2 ^ 48)
      let e : TlbEntry := { asn := hi % 2 ^ 16, page := lo, leaf := leaf }
      req % 16 = 0 → req < 0x9502F90000 → s.badLines.contains (lineOf req) = false →
      (∀ o ∈ [0, 8, 0x0D], if n < 16 then Config.inLanding n (req + o) = false else s.kernelFrame (req + o) = false) →
      ∃ t c', exec (.tlbw b a) s = .next t ∧ t.ctxOf (.sys n) = some c' ∧ c'.pc = c.pc + 4 ∧ c'.regs = c.regs ∧
        t.byteAt (req + 0x0D) = BitVec.ofNat 8 st ∧ (∀ q, q ≠ req + 0x0D → t.byteAt q = s.byteAt q) ∧
        (st ≠ 0 → t.tiles = s.tiles ∧ t.cores = s.cores ∧ t.slots = s.slots) ∧
        (st = 0 → e ∈ (t.tileAt tile).tlb ∧
          (core < 8 → e ∈ (t.coreAt (coreBase tile + core)).tlb ∧
            ∀ i < 8, ∀ f va u, (s.slotAt ((coreBase tile + core) * 8 + i)).ctx = some f → f.st = .missing va u →
              f.asn = e.asn → va - va % pageBytes (bit leaf 12) = lo →
              ∃ g, (t.slotAt ((coreBase tile + core) * 8 + i)).ctx = some g ∧ g.st = .running ∧ g.pc = f.pc ∧
                g.regs = f.regs))) ∧
    (∀ sc : BitVec 4, (Instr.tlbi sc a).wellFormed = true → 16 ≤ n ∨ 6 ≤ sc.toNat →
      let sel := c.sreg a
      let hit (e : TlbEntry) : Prop :=
        (field sel 16 2 = 0 ∧ e.asn = field sel 0 16 ∧
          field sel 18 46 * 2 ^ 10 - field sel 18 46 * 2 ^ 10 % pageBytes (bit e.leaf 12) = e.page) ∨
        (field sel 16 2 = 1 ∧ e.asn = field sel 0 16) ∨ field sel 16 2 = 2
      let inScope (tile : Nat) : Prop :=
        if sc.toNat = 4 then districtOfTile tile = n - 16
        else if sc.toNat = 5 then districtOfTile tile / 32 = (n - 16) / 32 else True
      ∃ t c', exec (.tlbi sc a) s = .next t ∧ t.ctxOf (.sys n) = some c' ∧ c'.pc = c.pc + 4 ∧ c'.regs = c.regs ∧
        t.mem = s.mem ∧ t.slots = s.slots ∧
        (∀ m < 8192, ∀ e, e ∈ (t.coreAt m).tlb ↔ e ∈ (s.coreAt m).tlb ∧ ¬(inScope (tileOf m) ∧ hit e)) ∧
        (∀ m, ∀ e, e ∈ (t.tileAt m).tlb ↔ e ∈ (s.tileAt m).tlb ∧ ¬(inScope m ∧ hit e)))

/-- For every instruction of the opcode table and every state in which it is a firing's turn with nothing pending:
with an operand that its encoding does not admit, exec answers the illegal-encoding trap with the instruction's word
as detail, whether or not it is privileged, and the registers, memory and a pending prefix are as they were. A
well-formed ERET, TACK, TLBW or TLBI takes the privilege trap with its word as detail, and changes nothing else.
(R219, R311, R314, R315, R449) -/
def Obligations.IllegalAndPrivileged : Prop :=
  ∀ (s : State) (k : Nat) (c : Ctx) (ins : Instr), turn s (.slot k) c → c.pend = [] → ins.isEvent = false →
    (ins.wellFormed = false → exec ins s =
      .next (s.takeTrap (.slot k) c (Tables.trap 4 3 c.pc c.pc (BitVec.ofNat 64 (encode ins))))) ∧
    (ins.wellFormed = true → bit c.regs.status 5 = false →
      (ins = .eret ∨ ins = .tack ∨ (∃ b a, ins = .tlbw b a) ∨ ∃ sc a, ins = .tlbi sc a) → exec ins s =
        .next (s.takeTrap (.slot k) c (Tables.trap 5 3 c.pc c.pc (BitVec.ofNat 64 (encode ins)))))

namespace Sys2Proof.Tables

/-- Words whose encodings chapters 13 to 17 give, and what they stand for (R291 to R311). -/
def words : List (Nat × Instr) :=
  [(0x00400503, .addi 32 0 10), (0x80182103, .shli 12 2 2), (0x00100105, .lui 256 2), (0x600E6281, .div 0 0 0 7 6 5),
   (0x60008221, .ld 3 0 8 4), (0x4000B523, .st 2 0 11 10), (0x0002D629, .alloc 1 13 12), (0xFFEC04B1, .loop 1 0x7FE 9),
   (0x00001035, .jalr 0 1 0), (0x608410C9, .vcmp 3 0 2 2 1 1), (0x0200424F, .vredAdd 0 0 1 4 4),
   (0x0040424B, .vexp2 0 0 4 4), (0x614E534D, .vadds 3 0 7 5 6), (0x000092D3, .unpkT5 0 9 5),
   (0x048481AF, .vgath 0 1 2 8 3), (0x00008063, .ecopy 0 8), (0x004A9063, .barinit 5 9), (0x04465365, .cabpush 2 3 5 6),
   (0x06009067, .scan 3 9), (0x0004A07F, .pfx 9 1 0 0), (0x041282F1, .amoAdd 0 1 0 9 8 5), (0x9D9282F1, .cas 1 1 6 9 8 5),
   (0xA40082F1, .ldlk 1 8 5), (0x158C9073, .rel 1 6 6 9), (0xC18C9575, .waitMem 1 0 0 6 6 9 10),
   (0x204006F5, .waitEvq 0 1 13), (0x4100F777, .launch 4 15 14), (0xA00C5677, .lease 0 6 5 12), (0xC80062F7, .role 2 6 5),
   (0xD0009577, .nack 9 10), (0x00260779, .crrEvq 14), (0x8000007B, .tack), (0x0580507D, .tlbi 6 5)]

/-- Words that those chapters name as illegal encodings. -/
def illegalWords : List Nat :=
  [0x00000009, 0x00801501, 0x000000BD, 0xE8000001, 0x6040424B, 0x00000049, 0x00C0424F, 0x03400041, 0x01800061, 0x045282F1,
   0xAC0082F1, 0xC40082F1, 0x384006F5, 0xA04006F5, 0x50C06073, 0x60C00073, 0x10005877, 0xCC0062F7, 0x04C0507D]

end Sys2Proof.Tables

/-- Each word of the manual's worked encodings, laid out as four bytes with the lowest first, decodes to its
instruction, which is well formed; each word that it names as an illegal encoding decodes to nothing or to operands
that no encoding admits. A 16-bit halfword with bit 0 clear always decodes. A word with bit 0 set and a major of
0x04 to 0x0F, 0x1C, 0x1D, 0x2C to 0x2F or 0x34 to 0x37 is refused as a reserved major. (R291, R292, R294, R299,
R314) -/
def Obligations.WordsDecode : Prop :=
  (∀ p ∈ Tables.words, decode (wordBytes 4 p.1) = .ok (p.2, 4) ∧ p.2.wellFormed = true) ∧
  (∀ w ∈ Tables.illegalWords, ∀ i n, decode (wordBytes 4 w) = .ok (i, n) → i.wellFormed = false) ∧
  (∀ (b0 b1 : Byte) (rest : List Byte), b0.toNat % 2 = 0 → ∃ i, decode (b0 :: b1 :: rest) = .ok (i, 2)) ∧
  (∀ w : Nat, w < 2 ^ 32 → w % 2 = 1 →
    (w / 2 % 64 ∈ [0x04, 0x05, 0x06, 0x07, 0x08, 0x09, 0x0A, 0x0B, 0x0C, 0x0D, 0x0E, 0x0F, 0x1C, 0x1D, 0x2C, 0x2D, 0x2E,
      0x2F, 0x34, 0x35, 0x36, 0x37]) → decode (wordBytes 4 w) = .error .reservedMajor)

/-- For every instruction of the opcode table, with every operand at every value that its encoding admits, and
whatever bytes follow: decoding the bytes of its word gives that instruction and its length in bytes, 2 or 4. So no
two instructions share a word, and no bit of an operand is lost. (R291, R292, R294, R314) -/
def Obligations.DecodeOfEncode : Prop :=
  ∀ (i : Instr) (rest : List Byte), i.isEvent = false → i.wellFormed = true →
    decode (encodeBytes i ++ rest) = .ok (i, i.length) ∧ (i.length = 2 ∨ i.length = 4)

/-- After reset the reference count is 0, no slot holds a firing, no launch, ready work or message exists and
nothing is in flight; the race tags are 0 and no line is uncorrectable; every core has only route tag 0 enabled,
weight 1, duty 16, spans of 0 and an empty TLB; every tile's role is compute and stable; every sub-tile is unowned
and 0; no trap is queued and no system core holds a latch; the boot stage is 0, the package is not ready, and no
freeze is under way. (That unwritten memory reads 0 is log entry 1, and operating point 4 at 800 mV log entry 4: the
model's choices, which no clause here states.) (R25, R41, R53, R58, R74, R107, R109, R166, R212, R213, R251, R270)
-/
def Obligations.ResetState : Prop :=
  let s := State.reset
  s.time = 0 ∧ s.slots.all (·.2.ctx.isNone) = true ∧ (∀ k, (s.slotAt k).ctx = none) ∧ s.launches = [] ∧ s.ready = [] ∧
    s.flights = [] ∧ s.flying = [] ∧ s.pan = [] ∧ s.badLines = [] ∧ (∀ l, s.tags.get l 0 = 0) ∧
    (∀ n, (s.coreAt n).enable = 1 ∧ (s.coreAt n).mxw = 1 ∧ (s.coreAt n).duty = 16 ∧ (s.coreAt n).tlb = [] ∧
      (s.coreAt n).evq = [] ∧ (s.coreAt n).mq = [] ∧ ∀ i, (s.coreAt n).span.get i 0 = 0) ∧
    (∀ t, s.compute t = true ∧ s.roleOf t = 0) ∧
    (∀ n j, (s.subAt n j).owner = none ∧ ∀ e, (s.subAt n j).elems.get e 0 = 0) ∧
    s.trapq = [] ∧ (∀ n, (s.sysAt n).latch = none) ∧ s.host.stage = 0 ∧ s.host.ready = false ∧ s.host.frzState = 0 ∧
    s.freeze = none

/-- The memory of the state after reset, and of the images of freezes, of which there is none, is in the canonical
form of the model: addresses strictly rising, and no entry equal to what an unlisted address reads as. (R9, R93) -/
def Obligations.ResetMemoryIsCanonical : Prop :=
  State.memoryWf State.reset

/-- For every state whose memory, and the memory of each image that a freeze has captured, is in canonical form: if
a step answers a next state, that state's memory and images are in canonical form too. It holds whichever
instruction or event the step runs, and so equal memories stay equal data. (R9, R69, R93, R116, R173) -/
def Obligations.StepKeepsMemoryCanonical : Prop :=
  ∀ s t : State, State.memoryWf s → step s = .next t → State.memoryWf t

/-- With an empty schedule, when it is the turn of the current issuer's scalar stream, once a suspended boost lease
of its firing has been tried: if the halfword at the pc, read as a fetch reads it at the home that exec permission
gives (for a system core, outside its landing SRAM), has bit 0 clear, the step is exec of the 16-bit instruction
that it decodes to; if bit 0 is set, the halfword at pc + 2 is read in the same way, and the step is exec of the
instruction that the four bytes decode to, or, where they decode to none and nothing is pending, the
illegal-encoding trap with the word as detail. The state that exec receives is the stepped state with what the fetch
put into the core TLB and what the firing has noted of the lines it fetched (R316). An entry of the schedule lets
its ticks pass, the waits that they end go on, and then its event runs, or its issuer's scalar or vector stream.
After every step the waits are evaluated and the quads take their targets. (Schedule entries are log entries 42 and
43, the model's choice.) (R291, R314, R316, R343, R449) -/
def Obligations.StepRunsTheDecodedInstruction : Prop :=
  (∀ (s : State) (c : Ctx) (who : Issuer) (pa : Nat) (leaf : Word) (x : Cx), s.inputs = [] →
    let r := s.tick.poised false
    turn r who c → (Cx.mk r who c).reach .fetch true c.pc.toNat 2 = .ok (.home pa leaf, x) →
    let outside (q : Nat) : Prop := ∀ n, who = .sys n → n < 16 → Config.inLanding n q = false
    let b (y : Cx) (q j : Nat) : Byte := y.s.fetchByte c.uid (y.fetchUpTo q) (q + j)
    outside pa →
    ((b x pa 0).getLsbD 0 = false → ∃ i, decode [b x pa 0, b x pa 1] = .ok (i, 2) ∧
      step s = follow (exec i (x.noteFetch pa).put)) ∧
    ((b x pa 0).getLsbD 0 = true → ∀ qa leaf' y,
      (x.noteFetch pa).reach .fetch true (c.pc + 2).toNat 2 = .ok (.home qa leaf', y) → outside qa →
      (∀ i, decode [b x pa 0, b x pa 1, b y qa 0, b y qa 1] = .ok (i, 4) → step s = follow (exec i (y.noteFetch qa).put)) ∧
      (∀ e, decode [b x pa 0, b x pa 1, b y qa 0, b y qa 1] = .error e → c.pend = [] →
        step s = .next (y.s.takeTrap who (y.noteFetch qa).c (Tables.trap 4 3 c.pc c.pc (BitVec.ofNat 64 ((b x pa 0).toNat +
          256 * (b x pa 1).toNat + 65536 * (b y qa 0).toNat + 16777216 * (b y qa 1).toNat)))).after))) ∧
  (∀ (s : State) (n : Nat) (rest : List Input) (e : Instr) (args : EventArgs) (who : Issuer) (late : Bool) (k : Nat),
    let u := ({ s.tick with inputs := rest, time := s.time + n } : State).wake
    (s.inputs = { ticks := n, act := .event e args } :: rest → e.isEvent = true →
      step s = follow (exec e { u with args := args, late := false })) ∧
    (s.inputs = { ticks := n, act := .issue who late } :: rest →
      step s = follow (stepScalar (({ u with cur := who } : State).poised late))) ∧
    (s.inputs = { ticks := n, act := .vector k late } :: rest →
      step s = follow (stepVector { u with cur := .slot k, late := late })))

/-- POWER_UP leaves stage 1, with the bad tiles and the tiles of bad hubs absent. BOOT_GO reaches stage 3 with BAR 2
closed and Chanter's start at the body's entry offset, if the image has the layout of R261 and its signature
verifies, otherwise stage 2. CHANTER_BOOT without a failure locks the manifest's reserved ranges, loads and measures
Drone and the kernel that the manifest names in host memory, releases the cores at their entries and reaches stage
4; with cause 1 to 5 it writes the boot-error record and stays. DRONE_READY sets ready and stage 5, and latched
doorbells take effect. POWER_OFF leaves the reset state but for host memory, the images that did not fail (marked as
cycled) and the model's own fields. HOST_ACCESS gives the bytes at the addresses (and what it has seen, later reads
see), or stores them (a bank's state region takes none, and Drone records them) and no others; BAR 2 and BAR 0
likewise. REGISTER_WRITE sets a queue's base or size, and from step 5 of R260 on a peak cap up to its ceiling, and
the mode of an idle port. ATTEST, IDENTITY, RELEASE and CEILINGS, once asked for, put their reply in the mailbox and
set bit 63. The event operands, the manifest's form with its places and entries (log entry 102), the byte order of
replies (103) and the use of a failed part (104) are the model's own. (R31, R32, R71, R260, R261, R264, R266, R267,
R272, R273, R490, R494) -/
def Obligations.BootAndHostEvents : Prop :=
  ∀ s : State,
    (s.host.stage = 0 → ∃ t, exec .powerUp s = .next t ∧ t.host = { s.host with stage := 1 } ∧ t.mem = s.mem ∧
      (∀ d, d ∈ t.absentHubs ↔ d ∈ s.args.data2 ∧ d < 64) ∧
      (∀ i < 1024, t.roleOf i = if i ∈ s.args.data ∨ districtOfTile i ∈ t.absentHubs then 3 else s.roleOf i)) ∧
    (s.host.stage = 1 ∨ s.host.stage = 2 → exec .bootGo s = .next (s.setHost
      (if s.host.imageOk = true ∧ Config.ed25519Verifies Config.rootKey (leBytes 64 (Config.sha512 s.host.body))
          (getBytes s.host.bootSram 0x40 64) = true then
        { s.host with
          stage := 3, go := true, bar2 := false, chanterDigest := Config.sha512 s.host.body, entry := s.host.entryOffset }
      else { s.host with stage := 2, go := false }))) ∧
    (s.host.stage = 3 → s.host.bootError = false →
      let ranges := Config.manifestRanges s.host.body
      let drone := Config.manifestDrone s.host.body
      let kernel := Config.manifestKernel s.host.body
      (s.args.a = 0 → exec .chanterBoot s = .next (
        if rangesOk ranges = true ∧ hostHas drone = true ∧ hostHas kernel = true then
          (((({ s with kreserved := ranges, kreservedLocked := true } : State).loadImage (Config.droneHome s.host.body)
            drone).loadImage (Config.kernelHome s.host.body) kernel).setHost { s.host with
              stage := 4
              droneDigest := Config.sha512 (s.hostImage drone)
              kernelDigest := Config.sha512 (s.hostImage kernel) }).releaseCores
        else s)) ∧
      (∀ home r i, i < r.2 → populated (home + i) = true → regionOf (home + i) < 4 → bankState (home + i) = false →
        (s.loadImage home r).byteAt (home + i) = s.byteAt (hostPa (r.1 + i))) ∧
      (∀ n, n < 80 → (s.releaseCores.sysAt n).ctx.pc = Config.releaseEntry n) ∧
      (1 ≤ s.args.a → s.args.a ≤ 5 → s.args.a = 5 ∨ rangesOk ranges = true →
        ∃ t, exec .chanterBoot s = .next t ∧ t.host.stage = 3 ∧ t.host.bootError = true ∧ t.host.mbDone = true ∧
          t.host.mbCommand = 0xFF ∧ t.kreserved = (if s.args.a = 5 then s.kreserved else ranges) ∧
          t.host.mbox = putBytes s.host.mbox 0 (leBytes 4 4 ++ leBytes 4 s.args.a ++ leBytes 4 s.args.b ++ leBytes 4 0))) ∧
    (s.host.stage = 4 →
      exec .droneReady s = .next (s.setHost { s.host with stage := 5, ready := true }).unlatch ∧
      ((∀ q < 16, (s.host.queue q).latched = none ∧ (s.host.queue q).head = (s.host.queue q).tail) →
        exec .droneReady s = .next (s.setHost { s.host with stage := 5, ready := true }))) ∧
    (∃ t, exec .powerOff s = .next t ∧ t.host = State.reset.host ∧ t.slots = [] ∧ t.time = 0 ∧ t.launches = [] ∧
      (∀ a, t.byteAt a = if regionOf a = 4 then s.byteAt a else 0) ∧
      t.images = (s.images.filter fun e => !e.2.failed).map fun e => (e.1, { e.2 with cycled := true })) ∧
    (let pa := s.args.a;
      let at_ := (List.range s.args.b).map (pa + ·);
      (s.args.c = 0 → at_.all s.hostReach = true →
        (s.args.flag = false →
          exec .hostAccess s = .next ((at_.foldl State.hostSaw s).setHost
            { s.host with readData := at_.map s.hostByte })) ∧
        (s.args.flag = true → s.args.data.length = s.args.b → at_.all (!systemTileMemory ·) = true →
          ∃ t, exec .hostAccess s = .next t ∧ t.slots = s.slots ∧
            t.host = { s.host with discarded := s.host.discarded ++
              (at_.zip (s.args.data.map (BitVec.ofNat 8))).filter (bankState ·.1) } ∧
            (∀ i < s.args.b, t.byteAt (pa + i) =
              if bankState (pa + i) then s.byteAt (pa + i) else BitVec.ofNat 8 (s.args.data.getD i 0)) ∧
            (∀ a, a < pa ∨ pa + s.args.b ≤ a → t.byteAt a = s.byteAt a))) ∧
      (s.args.c = 1 → s.host.bar2 = true → s.host.stage ≠ 0 → pa + s.args.b ≤ 0x400000 →
        exec .hostAccess s = .next (s.setHost (if s.args.flag then
            { s.host with
              bootSram := putBytes s.host.bootSram pa ((s.args.data.map (BitVec.ofNat 8)).take s.args.b) }
          else { s.host with readData := getBytes s.host.bootSram pa s.args.b }))) ∧
      (s.args.c = 2 → s.args.flag = false → pa + s.args.b ≤ 0x10000 → exec .hostAccess s = .next (s.setHost
        { s.host with readData := at_.map fun a => byteOf (s.bar0 (a - a % 8)) (a % 8) }))) ∧
    (∀ q < 16, s.args.a = 0 →
      (s.args.b = 0x100 + 32 * q → exec .registerWrite s = .next
        (s.setQueue q { s.host.queue q with base := s.args.c % 2 ^ 64 })) ∧
      (s.args.b = 0x108 + 32 * q → exec .registerWrite s = .next
        (s.setQueue q { s.host.queue q with size := s.args.c % 2 ^ 64 }))) ∧
    (4 ≤ s.host.stage → s.args.a = 6 → s.args.b < 64 → s.args.b ∉ s.host.etherPorts → s.args.c = 1 → s.peerIdle = true →
      exec .registerWrite s = .next (s.setHost { s.host with
        etherPorts := s.args.b :: s.host.etherPorts.filter (· != s.args.b) })) ∧
    (4 ≤ s.host.stage → s.args.a = 2 → s.args.b = 0 → s.args.c < 2 ^ 64 → exec .registerWrite s = .next { s with power := { s.power with
      peakCap := setNth s.power.peakCap 0 (Nat.min s.args.c 2200000) } }) ∧
    (s.asked 1 = true → ∃ sig : List Byte, sig.length = 64 ∧ exec .attest s = .next (s.reply (s.attested ++ sig))) ∧
    (s.asked 2 = true → exec .identity s = .next (s.reply identityBytes)) ∧
    (s.asked 3 = true → exec .release s = .next
      (s.reply (leBytes 64 s.host.chanterDigest ++ leBytes 64 s.host.droneDigest))) ∧
    (s.asked 4 = true → exec .ceilings s = .next
      (s.reply (leBytes 4 2200 ++ leBytes 4 2000 ++ leBytes 4 1000 ++ leBytes 4 900)))

/-- A doorbell under registers that do not let it count is ignored; one before ready or in a freeze is latched;
otherwise the queue runs up to the tail, and a single entry is enqueued, QHEAD moves on, and the completion entry
holds the entry's word, the handle, the status and the phase. A completion doorbell counts the completions read; a
write of QCPL resets both counts. A resumed enqueue runs again. A rack launch at a port set to Ultra Ethernet is
enqueued, and its residency report of 32 bytes, due once the dispatcher's first pass over it is over, names request,
handle and status. Admission marks the oldest launch of the queue and binds each logical tile to a compute tile. A
launch-end write kills the launch that its handle names, and ignores a handle whose generation does not match. A
launch that is done leaves the table with its leases and its route tags, and one with a parent frees its pool entry;
a completion join that waited is announced as a release at package scope. The queue numbers, which registers count
for a latched doorbell (log entry 130), when the first pass is over (131) and the slot, incarnation and serial of a
completion's announcement (77) are the model's own. (R35, R37, R52, R53, R75, R146, R268, R269, R271, R463, R505) -/
def Obligations.LaunchQueueEvents : Prop :=
  ∀ s : State,
    (∀ q < 16, s.args.a = q →
      let v := s.host.queue q
      (v.ok = false → exec .doorbell s = .next s) ∧
      (v.ok = true → ¬(s.host.ready = true ∧ s.host.frzState = 0) →
        exec .doorbell s = .next ((s.cross 5 0 fun _ => true).setQueue q { v with latched := some s.args.b })) ∧
      (s.host.ready = true → s.host.frzState = 0 → v.ok = true →
        let rung := (s.cross 5 0 fun _ => true).setQueue q { v with tail := s.args.b % v.size, latched := none }
        let entry (o n : Nat) : Nat := s.bankRead (hostPa (v.base + 32 * v.head + o)) n
        let at_ := hostPa (v.cpl + 16 * v.head)
        (s.args.b % v.size = v.head → exec .doorbell s = .next rung) ∧
        (v.head < v.size → s.args.b % v.size = (v.head + 1) % v.size → v.stuck = false →
          v.written - v.reported < v.size → ∀ st h u,
          rung.enqueue (entry 8 2) (rung.headerAt (entry 8 2) (entry 0 8)) none none q = .ok (st, h, u) →
          ∃ t, exec .doorbell s = .next t ∧ t.launches = u.launches ∧ (t.host.queue q).head = s.args.b % v.size ∧
            (t.host.queue q).written = v.written + 1 ∧ t.bankRead at_ 8 = entry 0x10 8 ∧
            t.bankRead (at_ + 8) 4 = h % 2 ^ 32 ∧
            t.bankRead (at_ + 12) 4 = (st + 256 * (1 - v.written / v.size % 2)) % 2 ^ 32)) ∧
      (let n := (s.args.b % 2 ^ 32 + 2 ^ 32 - v.reported % 2 ^ 32) % 2 ^ 32;
        v.reported + n ≤ v.written →
        exec .completionDoorbell s = .next ((s.setQueue q { v with reported := v.reported + n }).runQueue q)) ∧
      exec .qcplWrite s = .next (s.setQueue q { v with cpl := s.args.b % 2 ^ 64, written := 0, reported := 0 }) ∧
      (v.stuck = true →
        exec .launchEnqueueResume s = .next ((s.setQueue q { v with stuck := false }).runQueue q))) ∧
    (∀ k, s.args.a = 16 + k → exec .launchEnqueueResume s = .next (s.settle k)) ∧
    (∀ st h u, s.host.ready = true → s.halted = false → s.args.d ∈ s.host.etherPorts →
      s.enqueue (s.args.b % 2 ^ 16) (.ok ((List.range 128).map fun i => BitVec.ofNat 8 (s.args.data.getD i 0))) none none
        rackQueue = .ok (st, h, u) →
      exec .rackLaunch s = .next { u with rackDue := u.rackDue ++ [(s.args.a % 2 ^ 64, h, st)] }) ∧
    (∀ h st rest, s.rackDue = (s.args.a, h, st) :: rest →
      st ≠ 0 ∨ (∀ l, s.launchOf (h % 2 ^ 13) (h / 2 ^ 13) = some l →
        l.admitted = true ∧ s.passing (h % 2 ^ 13) l = false) →
      ∃ (t : State) (r : List Byte), exec .residencyReport s = .next t ∧ t.reports = s.reports ++ [r] ∧ r.length = 32 ∧
        r.take 13 = leBytes 8 s.args.a ++ leBytes 4 h ++ leBytes 1 st ∧ t.rackDue = rest) ∧
    (∀ i l rest, s.admission = (s.args.a, i) :: rest → s.launches.get? i = some l → s.halted = false →
      s.bindable ≠ [] →
      ∃ (t : State) (l' : Launch), exec .launchAdmission s = .next t ∧ t.admission = rest ∧
        t.launches.get? i = some l' ∧ l'.admitted = true ∧
        ∀ j < l.tiles, ∃ tile ∈ s.bindable, l'.binds.get? j = some tile) ∧
    (let h := s.args.a % 2 ^ 32;
      let l := s.launchOf (h % 2 ^ 13) (h / 2 ^ 13);
      (l = none → exec .launchEndWrite s = .next s) ∧
      (l.isSome = true → ∃ (t : State) (l' : Launch), exec .launchEndWrite s = .next t ∧
        t.launches.get? (h % 2 ^ 13) = some l' ∧ l'.killed = true)) ∧
    (∀ l, s.launches.get? s.args.a = some l → s.launchDone s.args.a l = true →
      ∃ t, exec .launchComplete s = .next t ∧ t.launches.get? s.args.a = none ∧
        (∀ e ∈ t.leases, ¬(e.launch = s.args.a ∧ e.gen = l.gen)) ∧
        (∀ n, ∀ e ∈ (t.coreAt n).routes, ¬(e.2.launch = s.args.a ∧ e.2.gen = l.gen)) ∧
        t.pool = if l.parent.isSome = true then s.pool - 1 else s.pool) ∧
    (∀ asn va, s.joins[s.args.a]? = some (asn, va) →
      let u : State := { s with joins := s.joins.eraseIdx s.args.a }
      exec .completionJoinResume s = .next (u.completionJoin asn va false) ∧
      ∀ pa, u.enqAddr asn va .store = .ok pa → tiers134 pa = true → u.unbacked pa = false → bankState pa = false →
        exec .completionJoinResume s = .next (u.announce
          { id := 0, window := 0, kind := 0, scope := 6, slot := 0xFFFF, inc := 0, serial := 0, x := 0, y := 0,
            entries := [], join := some (asn, va) }))

/-- DISPATCH gives an empty slot, on a tile for whose quads no other starved work waits, the one piece of ready
work, other than gang work, that it may take and that fits: the firing begins there with a new serial number, its
launch, actor and work ID. PIPE_ACTOR_FIRE takes the rates out of the used inputs and makes a ready firing with the
actor's next serial as work ID. PRIORITY_AGE raises waiting work by one level; FIT_STARVATION reserves the quads for
priority-7 work that was passed over. MIGRATION_COMPLETE puts the firing, its loads delivered, into its destination
slot, on a tile that no recast has emptied, behind the MIGR, with 0 in rd, and leaves a forwarding entry to its new
pair for 100,000 ticks. FORWARDING_EXPIRE removes the entries that have lapsed. FIRING_RETIRE empties the slot.
HANDLER_CREATE makes a ready handler firing for a tag's head message. RECORD_PASS hands a record to the hub of the
lowest logical tile's district, behind the ready work there. (R39, R42, R49, R59, R61, R62, R66, R256, R257, R340,
R420, R465) -/
def Obligations.DispatcherEvents : Prop :=
  ∀ s : State,
    (∀ r l, s.args.a < 65536 → s.tileOpen (tileOf (coreOf s.args.a)) = true → s.halted = false →
      (∀ q ∈ s.ready, q.alone = true → q = r ∨ s.onTile (tileOf (coreOf s.args.a)) q = false) →
      s.ready.filter (s.mayTake s.args.a) = [r] → s.gangWork r = false → s.fits [coreOf s.args.a] r.cls = true →
      s.launchOf r.launch r.gen = some l → r.ctx = none →
      ∃ (t : State) (c : Ctx), exec .dispatch s = .next t ∧ (t.slotAt s.args.a).ctx = some c ∧ c.uid = s.nextUid ∧
        c.launch = r.launch ∧ c.gen = r.gen ∧ c.actor = r.actor ∧ c.kind = r.kind ∧ c.st = .running ∧
        c.asn = l.asn ∧ (r.kind ≠ 2 → c.wid = r.wid) ∧
        (r.kind ≠ 3 → c.pc = BitVec.ofNat 64 (l.codeBase + (l.actors.map (·.entry)).getD r.actor 0)) ∧
        (r.kind = 3 → c.pc = r.code) ∧ some (t.slotAt s.args.a).inc = (s.slotAt s.args.a).nextInc s.time) ∧
    (∀ l x recs got, s.launches.get? s.args.a = some l → l.actors[s.args.b]? = some x → x.kind = 1 →
      l.admitted = true → l.killed = false → s.halted = false →
      takeInputs (usedPipes x.inPipe x.inRate) l.records [] = some (recs, got) →
      ∃ (t : State) (r : Ready) (l' : Launch), exec .pipeActorFire s = .next t ∧ t.ready = s.ready ++ [r] ∧
        r.launch = s.args.a ∧ r.gen = l.gen ∧ r.actor = s.args.b ∧ r.kind = 1 ∧ r.recs = got ∧
        r.wid = BitVec.ofNat 64 (l.serials.get s.args.b 0) ∧ t.launches.get? s.args.a = some l' ∧ l'.records = recs ∧
        l'.serials.get s.args.b 0 = l.serials.get s.args.b 0 + 1) ∧
    (∀ r, s.ready[s.args.a]? = some r →
      (r.blocking = false → r.prio + r.raised < 7 → r.since + 100000 * (r.raised + 1) ≤ s.time →
        exec .priorityAge s = .next { s with ready := s.ready.set s.args.a { r with raised := r.raised + 1 } }) ∧
      (∀ at_, r.effective s.time = 7 → r.alone = false → r.starved = some at_ → at_ + 100000 ≤ s.time →
        exec .fitStarvation s = .next { s with ready := s.ready.set s.args.a { r with alone := true } }) ∧
      (∀ l j tile rest, s.launchOf r.launch r.gen = some l → r.kind = 3 → r.ctx = none → l.binds = (j, tile) :: rest →
        (∀ b ∈ l.binds, districtOfTile b.2 ≠ r.place) →
        exec .recordPass s = .next { s with
          ready := s.ready.eraseIdx s.args.a ++ [{ r with place := districtOfTile tile }] })) ∧
    (∀ (m : Move) (c : Ctx) (rd : BitVec 5), s.moves = [m] → m.src = s.args.a → m.dst ≠ m.src → m.rd = some rd.toNat →
      (s.slotAt m.src).ctx = some c → c.st = .moving → c.pend = [] → c.vstream = [] → c.settled = true → s.matrixBusy c.uid = false →
      s.leaving (tileOf (coreOf m.dst)) = false →
      (∀ i ∈ s.ownSubs c.uid (coreOf m.src), (s.subAt (coreOf m.dst) i).owner = none) →
      ∃ (t : State) (c' : Ctx), exec .migrationComplete s = .next t ∧ (t.slotAt m.dst).ctx = some c' ∧
        c'.uid = c.uid ∧ c'.st = .running ∧ c'.pc = c.pc + 4 ∧ c'.regs = (c.setS rd 0).regs ∧
        (t.slotAt m.src).ctx = none ∧ t.moves = [] ∧
        ∃ f ∈ (t.slotAt m.src).fwd, f.uid = c.uid ∧ f.inc = (s.slotAt m.src).inc.toNat ∧
          f.dst = some (m.dst, (t.slotAt m.dst).inc.toNat) ∧ f.expiry = s.time + 100000) ∧
    ((∃ f ∈ (s.slotAt s.args.a).fwd, f.live s.time = false) →
      exec .forwardingExpire s = .next (s.setSlot s.args.a { s.slotAt s.args.a with
        fwd := (s.slotAt s.args.a).fwd.filter fun f => f.live s.time })) ∧
    (∀ (c : Ctx) killed, (s.slotAt s.args.a).ctx = some c → c.st = .ended killed → c.pend = [] → c.loads = [] →
      (∀ f ∈ s.flights, f.origin.uid ≠ c.uid) → s.shareNamed c.uid = false →
      ∃ t, exec .firingRetire s = .next t ∧ (t.slotAt s.args.a).ctx = none ∧
        (t.slotAt s.args.a).inc = (s.slotAt s.args.a).inc ∧ t.mem = s.mem) ∧
    (∀ m i gen actor prio l, (s.coreAt s.args.a).inbox.find? (·.packet.tag == s.args.b) = some m → m.begun = false →
      s.resolveTag s.args.a m = some (i, gen, actor, prio) → s.launchOf i gen = some l → l.killed = false →
      (s.coreAt s.args.a).enable.getLsbD s.args.b = true → s.handling s.args.a s.args.b = false → s.halted = false →
      ∃ (t : State) (r : Ready), exec .handlerCreate s = .next t ∧ t.ready = s.ready ++ [r] ∧ r.kind = 2 ∧
        r.place = s.args.a ∧ r.launch = i ∧ r.gen = gen ∧ r.actor = actor ∧ r.prio = prio ∧
        r.handler = some (s.args.a, m.entry, s.args.b) ∧
        ∀ q ∈ (t.coreAt s.args.a).inbox, q.entry = m.entry → q.begun = true)

/-- A region commits, and a checked interval with no race check on its way closes, after 10,000 ticks at a boundary
at which no forwarded store has claimed lines. A load's data goes to its queue place or register, all at once or
element by element, and an atomic is performed at its home, once it may be served and where no line is
uncorrectable. A committed line writes its masked bytes at its home, or in its firing's share, (unless the home is a
peer's) and no others, is refused with an asynchronous trap (only a posted line, log entry 68), or goes back from a
tile that lost its block and is resolved again, as a load's request is; its acknowledgement removes it; a refused
one is retried or discarded. A race check records the line or raises class 6. A free lock bit goes to the oldest
request, whose word its register receives. A wait goes on when its combination holds, or at its deadline with bit 8
or with the timeout trap (whose resume address and bits are the model's reading, log entry 89); a realign wait goes
on at its limit. A wide soft error makes a line uncorrectable, or a record of a pipe. At a UALink port a peer's read
gives the bytes, its write stores them, its atomic does both, but for a failing compare (how a peer reaches memory
is log entry 71). TRAP_ESCALATION retires the core from the class, and the trap that it served is the first in the
queue (log entry 100). The events' operands are the model's own. (R57, R77, R115, R116, R118, R121, R164, R169,
R325, R338, R453, R458) -/
def Obligations.HomeAndSlotEvents : Prop :=
  (∀ (s : State) (k : Nat) (c : Ctx), (s.slotAt k).ctx = some c → s.args.a = k →
    let x : Cx := { s := s, who := .slot k, c := c }
    (∀ since, c.region.since = some since → since + 10000 ≤ s.time → c.atBoundary = true → c.unclaimed = true →
      exec .regionTimeCommit s = .next (x.commit.put.settle k) ∧
      (c.pend = [] → exec .regionTimeCommit s = .next x.commit.put)) ∧
    (∀ since, c.checkedSince = some since → since + 10000 ≤ s.time → c.atBoundary = true → c.unclaimed = true →
      c.inCheck = false →
      c.pend = [] →
      ∃ (t : State) (c' : Ctx), exec .intervalTimeClose s = .next t ∧ (t.slotAt k).ctx = some c' ∧
        c'.checkedSince = none ∧ c'.touched = [] ∧ c'.regs = c.regs ∧ c'.pc = c.pc ∧ c'.region.wbuf = [] ∧
        (t.slotAt k).serial = (s.slotAt k).serial + 1) ∧
    (s.args.flag = true → exec .staleRequestReturn s = .next (s.putCtx (.slot k) { c with loads := c.loads.map fun l =>
      if l.id = s.args.b then { l with stamps := s.stamp (l.stamps.map (·.1)), epoch := s.epoch } else l })) ∧
    (∀ l, c.loads.find? (·.id == s.args.b) = some l → s.mayServe k c (l.part s.args.data) = true →
      (∀ a ∈ l.homes, lineOf a ∉ s.badLines) →
      let done : Ctx := { c with loads := c.loads.filter (·.id != l.id) }
      let part := s.served c.uid l s.args.data
      (l.kind = .plain → part.cells.any (·.1.isSome) = true → exec .loadDataReturn s = .next (s.putCtx (.slot k)
        { c with loads := c.loads.map fun q => if q.id = l.id then part else q })) ∧
      (l.kind = .plain → s.args.data = [] → exec .loadDataReturn s = .next ((s.putCtx (.slot k) { done with
        regs := c.regs.deliver l (s.loadValue c.uid l)
        region := { c.region with snap := c.region.snap.deliver l (s.loadValue c.uid l) } }).settle k)) ∧
      ∀ home n op b cmp, l.kind = .atomic home n op b cmp → (s.lockAt (lockOf home)).owner = none →
        lineOf home ∉ s.badLines →
        exec .loadDataReturn s = .next ((((s.atomicAt c.uid home n op b cmp).1).putCtx (.slot k)
          (done.arrive l.id (l.reg.getD 0) (sextWord n (s.readMem 0 home n c.uid)))).settle k)) ∧
    (∀ line va claim, c.st = .checking line va claim → s.stranded line = false →
      (s.conflict k line claim = none →
        (claim = true → exec .checkedAccessAtHome s = .next ({ s with
          tags := s.tags.set line (s.recordClaim k (s.slotAt k).serial.toNat line) 0 }.putCtx (.slot k)
            { (c.touch line true).checked with st := .running })) ∧
        (∀ tag, claim = false → s.recordReader k (s.slotAt k).serial.toNat line = some tag →
          exec .checkedAccessAtHome s = .next ({ s with tags := s.tags.set line tag 0 }.putCtx (.slot k)
            { (c.touch line false).checked with st := .running }))) ∧
      (∀ d, s.conflict k line claim = some d → c.vstream = [] → exec .checkedAccessAtHome s =
        .next (x.raise (Tables.trap 6 (if claim then 1 else 0) c.pc (BitVec.ofNat 64 va) d)))) ∧
    (∀ w bits, c.st = .waiting w → s.halted = false → s.waitBits k c w = .ok bits →
      (w.met bits = true → exec .waitConditionMet s = .next (s.putCtx (.slot k) (c.waited w bits s.time))) ∧
      (∀ deadline, w.met bits = false → w.deadline = some deadline → deadline ≤ s.time →
        (w.trap = false → exec .waitTimeout s = .next (s.putCtx (.slot k) (c.waited w (bits + 256) s.time))) ∧
        (w.trap = true → exec .waitTimeout s = .next (s.takeTrap (.slot k) { c.resume s.time with pc := c.pc }
          (Tables.trap 12 3 (c.pc + 4) c.pc (BitVec.ofNat 64 (bits + 256))))))) ∧
    (∀ left since, c.st = .realign left since → s.halted = false →
      left ≤ (s.time - since) * pointMHz (s.quadAt (quadOf (coreOf k))).point →
      ∃ (t : State) (c' : Ctx), exec .realignTimeout s = .next t ∧ (t.slotAt k).ctx = some c' ∧ c'.st = .running ∧
        c'.pc = c.pc + 4 ∧ c'.regs = c.regs ∧ t.mem = s.mem)) ∧
  (∀ (s : State) (f : Flight), s.flights.find? (·.id == s.args.a) = some f →
    (s.mayLand f = true →
      (s.staleAt f = true →
        exec .postedLineAtHome s = .next (s.mapFlight f.id fun g => { g with phase := 3 })) ∧
      (s.staleAt f = false → f.posted = false ∨ s.refusal f.line s.args.flag = 0 →
        ∃ t, exec .postedLineAtHome s = .next t ∧
          t.flights = s.flights.map (fun g => if g.id = f.id then { g with phase := 1 } else g) ∧
          (∀ i < 64, t.byteAt (f.line.home + i) =
            if f.line.mask.getLsbD i = true ∧ regionOf f.line.home ≠ 5 ∧ f.line.home < shareBase then byteOf f.line.data.toNat i else s.byteAt (f.line.home + i)) ∧
          (∀ a, a < f.line.home ∨ f.line.home + 64 ≤ a → t.byteAt a = s.byteAt a) ∧
          ∀ k c, s.slotOfUid f.origin.uid = some k → (s.slotAt k).ctx = some c → shareBase ≤ f.line.home →
            ∃ c', (t.slotAt k).ctx = some c' ∧ c'.regs = c.regs ∧ ∀ i < 64,
              c'.share.get (f.line.home - shareBase + i) 0 = if f.line.mask.getLsbD i = true then
                byteOf f.line.data.toNat i else c.share.get (f.line.home - shareBase + i) 0) ∧
      (s.staleAt f = false → f.posted = true → s.refusal f.line s.args.flag ≠ 0 → exec .postedLineAtHome s = .next
        ((s.mapFlight f.id fun g => { g with phase := 2, reason := s.refusal f.line s.args.flag }).async f.origin
          (asyncTrap 7 1 (BitVec.ofNat 64 f.line.va) (BitVec.ofNat 64 (f.journal.getD 0)))))) ∧
    (f.phase = 3 → s.args.flag = false → exec .staleRequestReturn s = .next (s.mapFlight f.id fun g =>
      { g with phase := 0, tile := (s.homeTile g.line.home).getD 0, epoch := s.epoch })) ∧
    (f.phase = 1 → exec .storeAck s =
      .next (({ s with flights := s.flights.filter (·.id != f.id) } : State).grantJournal f.core).settleAll)) ∧
  (∀ (s : State) (f : Flight), s.journal s.args.a s.args.b = some f → f.phase = 2 →
    exec .journalRetry s = .next (s.mapFlight f.id fun g =>
      { g with phase := 0, reason := 0, tile := (s.homeTile g.line.home).getD 0, epoch := s.epoch }) ∧
    exec .journalDiscard s =
      .next (({ s with flights := s.flights.filter (·.id != f.id) } : State).grantJournal s.args.a).settleAll) ∧
  (∀ (s : State) (k uid : Nat) (rest : List Nat) (c : Ctx) (q : QLoad) (home va n : Nat) (rd : BitVec 5),
    lockOf home = s.args.a → (s.lockAt s.args.a).owner = none → (s.lockAt s.args.a).queue = uid :: rest →
    s.slotOfUid uid = some k → (s.slotAt k).ctx = some c → c.loads.find? (·.seeks s.args.a) = some q →
    q.kind = .lock s.args.a home va n → q.reg = some rd.toNat → s.mayServe k c q = true → s.halted = false → c.pend = [] →
    lineOf home ∉ s.badLines → (∀ a ∈ q.homes, lineOf a ∉ s.badLines) →
    ∃ (t : State) (c' : Ctx), exec .lockGrant s = .next t ∧ (t.slotAt k).ctx = some c' ∧ c'.st = c.st ∧ c'.pc = c.pc ∧
      c'.lock = some (s.args.a, va) ∧ c'.loads = c.loads.filter (·.id != q.id) ∧
      c'.regs = c.regs.arrive q.id rd.toNat (sextWord n (s.readMem 0 home n uid)) ∧ t.mem = s.mem ∧
      t.lockAt s.args.a = { owner := some (k, (s.slotAt k).inc.toNat), queue := rest }) ∧
  (∀ s : State, s.args.a ≠ 1 → 2 ≤ s.args.c → populated (lineOf s.args.b) = true →
    (tierOf (lineOf s.args.b)).isSome = true → lineOf s.args.b ∉ s.badLines →
    exec .softError s = .next { s with badLines := lineOf s.args.b :: s.badLines }) ∧
  (∀ (s : State) (l : Launch) (r : Rec), s.args.a = 1 → 2 ≤ s.args.c → s.args.flag = false → s.args.flag2 = false →
    s.launches.get? s.args.b = some l → (l.records.get s.args.d [])[s.args.e]? = some r → r ≠ [] →
    exec .softError s = .next (s.setLaunch s.args.b { l with
      records := l.records.set s.args.d ((l.records.get s.args.d []).set s.args.e []) [] })) ∧
  (∀ s : State, s.args.d < 64 → s.args.d ∉ s.host.etherPorts → 1 ≤ s.args.c → s.args.c ≤ 256 → (∀ i < s.args.c, s.peerReach (s.args.b + i) = true) →
    let old := s.readMem 0 s.args.b s.args.c
    let answered (t : State) : State :=
      { t with host := { t.host with readData := (List.range s.args.c).map (byteOf old) } }
    (s.args.a = 0 → exec .ualinkTargetRequest s = .next (answered s)) ∧
    (s.args.a = 1 → exec .ualinkTargetRequest s = .next ((s.writeMem 0 0 s.args.b s.args.c
      (listNat (s.args.data.map (BitVec.ofNat 8)) 0 s.args.c)).mendRange s.args.b s.args.c)) ∧
    (2 ≤ s.args.a → s.args.a ≤ 11 → s.args.c = 4 ∨ s.args.c = 8 → (s.lockAt (lockOf s.args.b)).owner = none →
      let b : Word := BitVec.ofNat 64 (s.args.data.getD 0 0)
      let cmp : Word := BitVec.ofNat 64 (s.args.data.getD 1 0)
      exec .ualinkTargetRequest s = .next (answered
        (if s.args.a = 11 ∧ old ≠ cmp.toNat % 2 ^ (8 * s.args.c) then s
          else s.writeMem 0 0 s.args.b s.args.c (amoResult (s.args.a - 2) s.args.c old b.toNat cmp.toNat))))) ∧
  (∀ (s : State) (j : Nat) (rest : List Nat) (l : Latch) (own served : Trap), s.args.a < 16 →
    (s.sysAt s.args.a).latch = some l → (s.sysAt s.args.a).serving = j :: rest →
    s.trapOf (65536 + s.args.a) = some own → s.trapOf j = some served →
    ∃ t, exec .trapEscalation s = .next t ∧
      t.trapq = j :: (s.trapq.filter fun m => m != 65536 + s.args.a) ∧ (t.sysAt s.args.a).latch = some l ∧
      (t.sysAt s.args.a).serving = rest ∧ (t.sysAt s.args.a).ctx = (s.sysAt s.args.a).ctx ∧
      (t.sysAt s.args.a).retired = (s.sysAt s.args.a).retired ||| BitVec.ofNat 32 (2 ^ served.cls))

/-- PANPIPE_DELIVERY applies the oldest window's announcements in order; a role-map update sets its entry and counts
the epoch. A hub's acknowledgement is counted once. An injection queue sends a packet. A message for a core, but a
notice of a launch that has gone, enters a free inbox entry (of the core to which it would have gone, where its
tile's have left). A walk installs its entry in both TLBs and the contexts that missed in its page run again; one
without a leaf leaves the TLBs and stands against the access; an engine's or the header unit's walk likewise. A
resident page wakes contexts that wait for it, parked ones ready with their age. A declined page gives the quota
trap with the tier, or, where Drone could not read it, class 9. A page migration takes its new frame and parks
accesses, then copies each byte and is announced; a promotion from tier 5 is abandoned where its write check fails
and loses the page where its source is uncorrectable. The census adds a 32-byte record. A proposal is refused with
its code, binds, or begins with its notice; the deadline, or the last acknowledgement (at once where no launch is
affected, log entry 133), starts the move; a block is copied up to a held lock bit, towards another tile where its
destination takes no block any more, and once copied is rebound and its old tile forwards; a compute tile's firings
and messages leave for its destinations, and then its rebinding is announced; a recast that all hubs acknowledged
ends. An expired lease ends. How destinations are chosen and kept (log entries 87, 149, 150, 161), what a walk's
answer is (107), what the tile's pages are (134) and the events' operands are the model's own. (R59, R79, R80, R81,
R83, R87, R88, R90, R109, R142, R179, R472) -/
def Obligations.MeshPagingAndRecastEvents : Prop :=
  (∀ s : State, s.args.a + 7 ≤ windowAt s.time → (∀ a ∈ s.pan, s.args.a ≤ a.window) →
    (∃ a ∈ s.pan, a.window = s.args.a) →
    exec .panpipeDelivery s = .next ((panSort (s.pan.filter (·.window == s.args.a))).foldl State.applyAnnounce
      ({ s with pan := s.pan.filter (·.window != s.args.a) } : State).settleAll) ∧
    ∀ a tile w, s.pan = [a] → a.kind = 3 → a.entries = [(tile, w)] →
      ∃ t, exec .panpipeDelivery s = .next t ∧
        t.roleOf tile = w ∧ (∀ i, i ≠ tile → t.roleOf i = s.roleOf i) ∧ t.epoch = (s.epoch + 1) % 2 ^ 32) ∧
  (∀ (s : State) (r : Recast), s.recastOf s.args.a = some r →
    (s.args.b < 64 → s.args.b ∉ s.absentHubs → s.args.b ∉ r.acks → r.step ≠ 0 →
      ∃ (t : State) (r' : Recast), exec .roleMapAck s = .next t ∧ t.recastOf s.args.a = some r' ∧
        r'.acks = r.acks ++ [s.args.b] ∧ r'.step = r.step ∧ t.roles = s.roles ∧
        ((∀ d < 64, d ∈ s.absentHubs ∨ d ∈ r'.acks) → r'.ackAt = some s.time) ∧
        (∀ d < 64, d ∉ s.absentHubs → d ∉ r'.acks → r'.ackAt = none)) ∧
    (let w := s.roleOf r.tile;
      (r.noticed = true → r.step ≤ 1 → s.moveAnnounced r.tile = false →
        r.deadline ≤ s.time ∨ (∀ a ∈ r.affected, a ∈ r.acked) ∨ s.host.frzState = 1 →
        (∀ d, field w 0 2 ≠ 0 → s.blockDest r = some d → exec .recastDeadline s =
          .next ((s.setRecast { r with dest := d }).update r.tile 2 [(r.tile, roleState w 2 d)])) ∧
        (∀ d, field w 0 2 = 0 → s.lastMoves r = some d → exec .recastDeadline s = .next
          ((s.setRecast { r with dest := d.1, moves := d.2 }).update r.tile 2 [(r.tile, roleState w 2 d.1)]))) ∧
      (s.updating r.tile = false → r.step = 2 → field w 0 2 = 1 → field w 2 3 = 2 →
        let left := (0x700000 - r.frontier) / 64
        let upTo := s.unlockedTo (blockPa (field w 16 16) (field w 6 10))
          (if s.args.flag then Nat.min left s.args.b else left) r.frontier
        let t := s.setRecast { r with frontier := upTo }
        (∀ d, s.takesBlock r.dest = false → s.blockDest r = some d → exec .storageCopyDone s =
          .next ((s.setRecast { r with dest := d, frontier := 0 }).update r.tile 2 [(r.tile, roleState w 2 d)])) ∧
        (s.takesBlock r.dest = true → exec .storageCopyDone s = .next (if upTo < 0x700000 then t else t.update r.tile 4
          [(r.dest, setField (setField (setField (s.roleOf r.dest) 5 1 1) 6 10 (field w 6 10)) 16 16 (field w 16 16)),
            (r.tile, roleState w 3 r.dest)]))) ∧
      (s.updating r.tile = false → r.step = 2 → field w 0 2 = 0 → field w 2 3 = 2 →
        (∀ d, r.left = false → (∀ e ∈ s.residents r.tile, e.2.checkedSince = none ∧ s.mayLeave e.2 = true) →
          s.lastMoves r = some d →
          let r' : Recast := { r with dest := d.1, moves := d.2, left := true }
          (s.moveInboxes r').isSome = true →
          ∃ t, exec .computeRecastRebind s = .next t ∧ t.recastOf r.tile = some r' ∧ t.roles = s.roles) ∧
        (r.left = true → s.residents r.tile = [] → s.inboxesEmpty r.tile = true → s.tileQuiet r.tile = true →
          s.pagesGone r = true → s.straysFit r = true →
          ∃ t, exec .computeRecastRebind s = .next t ∧
            ∃ a ∈ t.pan, a.kind = 3 ∧ a.x = r.tile ∧ a.y = 6 ∧ a.entries = [(r.tile, roleState w 3 r.dest)])) ∧
      (∀ at_, s.updating r.tile = false → r.step = lastMove w → r.ackAt = some at_ → windowAt at_ + 2 ≤ windowAt s.time →
          (∀ l ∈ s.mcasts, l.staged ≠ some r.tile) →
        exec .recastFinish s = .next (s.update r.tile lastStep [(r.tile, BitVec.ofNat 64 r.role)])))) ∧
  (∀ s : State,
    (∀ p l, takeFrom s.args.pairs s.args.b (s.tileAt s.args.a).inj = some (p, l) → exec .injectionSend s =
      .next ({ s.setTile s.args.a { s.tileAt s.args.a with inj := dropFences l } with
        flying := s.flying ++ [p] } : State).settleAll) ∧
    (∀ p, s.flying[s.args.a]? = some p → s.inOrder s.args.a p = true → p.node < 1024 →
      p.agent < 8 → p.tslot = 0 → s.noticeGone p = false →
      let core := s.inboxCore (coreBase p.node + p.agent) p none
      s.compute (tileOf core) = true → (s.coreAt core).inbox.length < 16 →
      ∃ (t : State) (m : InMsg), exec .messageDelivery s = .next t ∧ t.flying = s.flying.eraseIdx s.args.a ∧
        (t.coreAt core).inbox = (s.coreAt core).inbox ++ [m] ∧ m.packet = p ∧ m.begun = false ∧ m.entry < 16 ∧
        ∀ q ∈ (s.coreAt core).inbox, q.entry ≠ m.entry) ∧
    (let unit := s.args.a;
      let va := s.args.c;
      let leaf : Word := BitVec.ofNat 64 (s.args.d % 2 ^ 55);
      let page := va - va % pageBytes (bit leaf 12);
      let e : TlbEntry := { asn := s.args.b, page := page, leaf := leaf };
      va < 2 ^ 56 →
      (unit < 8192 → s.args.flag = true → s.tlbwStatus leaf page (tileOf unit) (unit % 8) 0 = 0 →
        ∃ t, exec .tlbMiss s = .next t ∧ e ∈ (t.coreAt unit).tlb ∧ e ∈ (t.tileAt (tileOf unit)).tlb ∧
          ∀ i < 8, ∀ c a access, (s.slotAt (unit * 8 + i)).ctx = some c → c.st = .missing a access → c.asn = s.args.b →
            a - a % pageBytes (bit leaf 12) = page →
            ∃ c', (t.slotAt (unit * 8 + i)).ctx = some c' ∧ c'.st = .running ∧ c'.pc = c.pc ∧ c'.regs = c.regs ∧
              c'.verdicts = (s.verdictFor true leaf access a).toList ++ c.verdicts) ∧
      (unit < 8192 → s.args.flag = false →
        ∃ t, exec .tlbMiss s = .next t ∧ t.cores = s.cores ∧ t.tiles = s.tiles ∧
          ∀ i < 8, ∀ c access, (s.slotAt (unit * 8 + i)).ctx = some c → c.st = .missing va access → c.asn = s.args.b →
            ∃ c', (t.slotAt (unit * 8 + i)).ctx = some c' ∧ c'.st = .running ∧ c'.verdicts = (va, none) :: c.verdicts) ∧
      (8192 ≤ unit → unit < 9216 → s.args.flag = false → exec .tlbMiss s = .next (s.addWalk unit s.args.b va none)) ∧
      (8192 ≤ unit → unit < 9216 → s.args.flag = true → s.tlbwStatus leaf page (unit - 8192) 0xFF 0 = 0 →
        ∃ t, exec .tlbMiss s = .next t ∧ e ∈ (t.tileAt (unit - 8192)).tlb ∧ t.cores = s.cores ∧
          t.walks = if bit leaf 0 = true ∧ s.leafAllows leaf (useOf s.args.e) va = false then
            (s.addWalk unit s.args.b va (some leaf)).walks else s.walks) ∧
      (unit = 9216 → s.args.flag = false → exec .tlbMiss s = .next (s.addWalk unit s.args.b va none).settleAll) ∧
      (unit = 9216 → s.args.flag = true → s.tlbwStatus leaf page 0 0xFF 0 = 0 →
        ∃ t, exec .tlbMiss s = .next t ∧ e ∈ t.enqTlb)) ∧
    (let leaf : Word := BitVec.ofNat 64 (s.args.c % 2 ^ 55);
      let n := pageBytes (bit leaf 12);
      bit leaf 0 = true → s.tlbwStatus leaf (s.args.b - s.args.b % n) 0 0xFF 0 = 0 →
      ∃ t, exec .pageResident s = .next t ∧
        (∀ k c a access, (s.slotAt k).ctx = some c → c.st = .pageWait a access → c.asn = s.args.a →
          a / n = s.args.b / n → c.pend = [] →
          ∃ c', (t.slotAt k).ctx = some c' ∧ c'.st = .running ∧ c'.pc = c.pc ∧ c'.regs = c.regs) ∧
        (∀ r ∈ s.ready, ∀ c a access, r.ctx = some c → c.st = .pageWait a access → c.asn = s.args.a →
          a / n = s.args.b / n →
          { r with ctx := some { c with st := .running }, blocking := false, since := s.time, raised := 0 } ∈ t.ready)) ∧
    (8192 ≤ s.args.d → s.args.d ≤ 9216 →
      exec .quotaDecline s = .next (s.addWalk s.args.d s.args.a s.args.b (some 0)).settleAll) ∧
    (s.args.d < 8192 → ∃ t, exec .quotaDecline s = .next t ∧
      ∀ k c access, (s.slotAt k).ctx = some c → c.st = .pageWait s.args.b access → c.asn = s.args.a → c.vstream = [] →
        let lost := s.lostPages.any fun m => m.asn == s.args.a && decide (m.va ≤ s.args.b) && decide (s.args.b < m.va + m.size)
        ∃ c' tr, (t.slotAt k).ctx = some c' ∧ c'.st = .trapped tr none ∧ tr.cls = (if lost then 9 else 10) ∧
          tr.access = access ∧ tr.resume = c.pc ∧
          (lost = false → tr.addr = BitVec.ofNat 64 s.args.b ∧ tr.detail = BitVec.ofNat 64 s.args.c)) ∧
    (s.args.a < 64 → s.args.a ∉ s.absentHubs → (s.census.get s.args.a {}).sampled < s.time / 5000 →
      ∃ (t : State) (r : List Byte), exec .censusSample s = .next t ∧ r.length = 32 ∧ r.take 8 = leBytes 8 s.time ∧
        (t.census.get s.args.a {}).ring.getLast? = some r ∧ (t.census.get s.args.a {}).ring.length ≤ 64 ∧
        (t.census.get s.args.a {}).sampled = s.time / 5000) ∧
    (let code := s.proposalCode s.args.a s.args.b s.args.c s.args.flag (s.args.d % 2 ^ 16) (s.args.e % 2 ^ 10);
      let t : State := { s with recastCode := code };
      s.args.b ≤ 2 →
      (code ≠ 0 → exec .recastProposal s = .next t) ∧
      (code = 0 → s.args.flag = true → exec .recastProposal s = .next (t.update s.args.a 0 [(s.args.a,
        setField (setField (setField (s.roleOf s.args.a) 5 1 1) 6 10 (s.args.e % 2 ^ 10)) 16 16 (s.args.d % 2 ^ 16))])) ∧
      (code = 0 → s.args.flag = false →
        exec .recastProposal s = .next ((t.beginRecast s.args.a s.args.b s.args.c).promise s.args.a))) ∧
    (∀ e, s.leases[s.args.a]? = some e → e.expiry ≤ s.time →
      exec .leaseExpire s = .next { s with leases := s.leases.eraseIdx s.args.a })) ∧
  (∀ s : State,
    let new : Word := BitVec.ofNat 64 (s.args.c % 2 ^ 55)
    let old : Word := BitVec.ofNat 64 (s.args.d % 2 ^ 55)
    let n := pageBytes (bit old 12)
    let mine := s.pageMoves.find? fun m => m.asn == s.args.a && m.va == s.args.b
    (mine = none →
      leafWithin 4 old = true ∨ (bit old 0 = true ∧ tierOf (leafFrame old) = some 5 ∧ tierOf (leafFrame new) = some 4) →
      leafWithin 5 new = true → s.moveFits (leafFrame old) (leafFrame new) n = true →
      s.frameFree (leafFrame new) n = true → frameOfBank (leafFrame new) n = false → bit old 12 = bit new 12 →
      s.args.b % n = 0 → leafFrame old ≠ leafFrame new → s.tlbwStatus new s.args.b 0 0xFF 0 = 0 →
      exec .pageMigration s = .next { s.takeFrame (leafFrame new) n with pageMoves := s.pageMoves ++
        [{ asn := s.args.a, va := s.args.b, size := n, old := old, new := new, phase := 0 }] }) ∧
    (∀ m, mine = some m → m.phase = 0 → (∀ f ∈ s.flights, f.line.home / m.size ≠ leafFrame m.old / m.size) →
      m.promotes = true →
      (s.args.flag = true → exec .pageMigration s = .next (({ s with pageMoves := s.pageMoves.filter fun q =>
        !(q.asn == s.args.a && q.va == s.args.b) } : State).giveFrame (leafFrame m.new) m.size)) ∧
      (s.args.flag = false → (∃ l ∈ s.badLines, l / m.size = leafFrame m.old / m.size) →
        exec .pageMigration s = .next ((s.losePage m).giveFrame (leafFrame m.new) m.size))) ∧
    (∀ m, mine = some m → m.phase = 0 → m.size = pageBytes (bit m.old 12) →
      (∀ f ∈ s.flights, f.line.home / m.size ≠ leafFrame m.old / m.size) → Memory.wf s.mem = true →
      m.promotes = false ∨
        (s.args.flag = false ∧ ∀ l ∈ s.badLines, l / m.size ≠ leafFrame m.old / m.size) → s.lockTaken m = false →
      leafFrame m.old % m.size = 0 → leafFrame m.new % m.size = 0 → leafFrame m.old ≠ leafFrame m.new →
      ∃ t, exec .pageMigration s = .next t ∧
        (∀ i < m.size, t.byteAt (leafFrame m.new + i) = s.byteAt (leafFrame m.old + i)) ∧
        (∀ a, a < leafFrame m.new ∨ leafFrame m.new + m.size ≤ a → t.byteAt a = s.byteAt a) ∧
        (∃ a ∈ t.pan, a.kind = 4 ∧ a.x = s.args.a ∧ a.y = s.args.b) ∧
        ∃ q ∈ t.pageMoves, q = { m with phase := 1 }))

/-- A chain-start message begins a walk at its head. LOOP steps back while passes are left; IFZ and IFNZ go on or
skip by the test word; SIGNAL posts an entry or adds to a barrier object whose line's lock bit is clear; END ends
the chain and posts its completion. A COPY or DEAL entry begins with its bytes gathered by destination line, flat,
element by element or block by block; each of its lines then puts the source's bytes at their places and no others.
An MCAST sends its lines to its receivers; a SEL starts a scan, whose parts are those of the owners of its region;
each entry goes on at the next one. A multicast line writes its masked bytes and counts them at the barrier object.
A scan part adds its qualifying values, and the merge writes the pairs in order. An arrival takes effect at its
bank, a configuration where no recast holds it (log entry 161). The arbiter grants the head of the core whose turn
it is and gives its issuer the sub-tile; a queue that this empties ends the turn; a granted command is carried out:
MZERO clears, a floating-point MMA leaves the sums of R198. A sub-tile whose owner has ended and has no command left
is released: to +0, owned by the firing whose command has waited longest for it, if any. All for states without
uncorrectable lines. When a command or entry is carried out (log entries 47, 55), how a multicast's lines are
ordered and announced (58, 144), who owns a released sub-tile next (49) and the events' operands are the model's
own. (R123, R137, R139, R198, R206, R211, R213, R233, R239, R242, R382, R383) -/
def Obligations.EngineEvents : Prop :=
  (∀ (s : State) (p : Packet) (rest : List Packet), s.halted = false → s.arrived = p :: rest →
    (p.node = s.args.a → p.agent = 8 → ∃ (t : State) (c : Chain), exec .copyChainStart s = .next t ∧
      t.chains = s.chains ++ [c] ∧ c.engine = 1 ∧ c.node = s.args.a ∧ c.origin = p.origin ∧ c.entry = p.op0 ∧
      c.tag = p.aux % 2 ^ 24 ∧ c.stack = [] ∧ t.arrived = rest ∧ t.mem = s.mem) ∧
    (p.node = 1024 + s.args.a → p.agent = 12 → ∃ (t : State) (c : Chain), exec .scanChainStart s = .next t ∧
      t.chains = s.chains ++ [c] ∧ c.engine = 4 ∧ c.node = s.args.a ∧ c.origin = p.origin ∧ c.entry = p.op0 ∧
      c.tag = p.aux % 2 ^ 24 ∧ c.stack = [] ∧ t.arrived = rest ∧ t.mem = s.mem)) ∧
  (∀ (s : State) (c : Chain) (b : List Byte), s.chainOf s.args.a = some c → (∀ sc ∈ s.scans, sc.chain ≠ c.id) →
    s.halted = false → s.badLines = [] → s.chainEntry c = .ok b →
    let f (o n : Nat) : Nat := listNat b o n
    (f 0 1 = 4 → f 1 3 = 0 → f 10 22 = 0 → 1 ≤ f 8 2 → f 8 2 ≤ 4095 →
      let back := c.entry + 2 ^ 64 - 32 * f 8 2
      (c.stack.head?.map (·.1) ≠ some c.entry → c.stack.length < 4 →
        exec .chainLoop s = .next (if 0 < f 4 4 then s.chainAt { c with stack := (c.entry, f 4 4 - 1) :: c.stack } back
          else s.chainNext c)) ∧
      (∀ n rest, c.stack = (c.entry, n) :: rest →
        exec .chainLoop s = .next (if 0 < n then s.chainAt { c with stack := (c.entry, n - 1) :: rest } back
          else s.chainNext { c with stack := rest }))) ∧
    (∀ w, s.drained c = true → 1 ≤ f 1 1 → f 2 6 = 0 → f 0x10 16 = 0 → f 8 8 % 8 = 0 →
      s.engBytes c.eng tiers134 (f 8 8) 8 = .ok w →
      (f 0 1 = 5 → exec .chainIfz s =
        .next (if listNat w 0 8 = 0 then s.chainNext c else s.chainAt c (c.entry + 32 * (f 1 1 + 1)))) ∧
      (f 0 1 = 6 → exec .chainIfnz s =
        .next (if listNat w 0 8 ≠ 0 then s.chainNext c else s.chainAt c (c.entry + 32 * (f 1 1 + 1))))) ∧
    (f 0 1 = 7 → s.drained c = true → f 2 6 = 0 → f 0x18 8 = 0 →
      (f 1 1 = 1 →
        exec .chainSignal s = .next ((s.postEvent c.origin (f 0x10 8 % 2 ^ 24) 0 c.engine 0).chainNext c)) ∧
      (∀ home, f 1 1 = 0 → f 8 8 % 16 = 0 → s.engKey c.eng .store (f 8 8) = .ok home → tiers134 home = true →
        (s.lockAt (lockOf home)).owner = none →
        exec .chainSignal s = .next ((s.bankWrite (home + 8) 8 ((s.bankRead (home + 8) 8 + f 0x10 8) % 2 ^ 64)).chainNext
          c))) ∧
    (f 0 1 = 0 → f 1 31 = 0 → s.drained c = true →
      exec .chainEnd s = .next ((s.dropChain c).report c.eng c.tag c.reports c.entry (c.tag != 0)) ∧
      (c.tag = 0 → c.reports < 4 → exec .chainEnd s = .next (s.dropChain c))) ∧
    (f 0 1 = 1 → f 1 1 ≤ 1 → f 2 2 = 0 → f 0x18 8 = 0 → s.args.b = 0 →
      let begins (cells : List (Nat × Nat)) (overlap : Bool) (size : Nat) : Prop :=
        s.cellsFault c.eng .load (cells.map (·.1)) = none → s.cellsFault c.eng .store (cells.map (·.2)) = none →
        exec .chainCopy s = .next ((s.beginLines c .virt overlap (gatherCells cells) size).chainNext c)
      (f 1 1 = 0 → 1 ≤ f 4 4 → begins ((List.range (f 4 4)).map fun n => (f 8 8 + n, f 0x10 8 + n))
        (rangesMeet (f 8 8) (f 4 4) (f 0x10 8) (f 4 4)) 1) ∧
      (∀ rs rd, f 1 1 = 1 → f 4 4 = 0 → s.tileRecord c.eng (f 8 8) = .ok rs → s.tileRecord c.eng (f 0x10 8) = .ok rd →
        rs.desc.rows = rd.desc.rows → rs.desc.cols = rd.desc.cols → rs.desc.e = rd.desc.e →
        begins (rs.desc.elems.flatMap fun p => (List.range rs.desc.e).map fun k =>
            (rs.base + rs.desc.offset p.1 p.2 + k, rd.base + rd.desc.offset p.1 p.2 + k))
          (rangesMeet rs.base rs.desc.extent rd.base rd.desc.extent) rs.desc.e)) ∧
    (f 0 1 = 2 → f 1 1 = 0 → f 0x1C 4 = 0 → f 0x18 4 % 16 = 0 → c.failing = 0 →
      (f 0x10 8 = 0 → exec .chainMcast s = .next (s.chainNext c)) ∧
      (∀ r l tiles, f 0x10 8 ≠ 0 → s.tileRecord c.eng (f 8 8) = .ok r → f 4 4 % r.desc.e = 0 →
        (receivers (f 2 2) (f 0x10 8)).map (fun q => s.logicalTile c.origin q.1) = tiles.map some →
        f 4 4 + r.desc.extent ≤ 0xDC000 → f 0x18 4 + 16 ≤ 0xDC000 →
        (∀ p ∈ (receivers (f 2 2) (f 0x10 8)).zip tiles, ∀ o, o = f 0x18 4 ∨ (f 4 4 ≤ o ∧ o < f 4 4 + r.desc.extent) →
          s.kernelFrame (quadBase p.2 p.1.2 + o) = false) →
        s.elemBytes c.eng anyTier r r.desc.elems = .ok l →
        exec .chainMcast s = .next ((s.sendMcast c (f 0x18 4)
          (gatherLines ((r.desc.elems.zip l).flatMap fun p => bytesAt (f 4 4 + r.desc.offset p.1.1 p.1.2) p.2))
          ((receivers (f 2 2) (f 0x10 8)).zip tiles)).chainNext c))) ∧
    (let n := f 0x1A 1;
      let blk := f 0x18 2;
      let area := (f 4 4 + blk * n - 1) / (blk * n) * blk;
      let dealt (place : Nat → CopyDst × Nat) (now : Nat → Nat) : State := ((List.range (f 4 4 / blk)).foldl (fun t i =>
        t.beginLines c (place i).1 false (gatherCells ((List.range blk).map fun j =>
          (f 8 8 + i * blk + j, now ((place i).2 + j))))) s).chainNext c
      ∀ goal : Nat → Nat, f 0 1 = 3 → f 0x1B 1 = 0 → 64 ≤ blk → blk ≤ 8192 → blk % 64 = 0 → 1 ≤ n → n ≤ 64 →
        f 4 4 % blk = 0 → s.args.b = 0 → s.cellsFault c.eng .load ((List.range (f 4 4)).map (f 8 8 + ·)) = none →
        (f 1 1 = 0 → (∀ k < n, s.logicalTile c.origin (f 2 2 + k / 8) = some (goal k)) → area ≤ f 0x1C 4 →
          f 0x10 8 + (if 4 ≤ n then 3 else n - 1) * f 0x1C 4 + area ≤ 0xDC000 →
          let place (i : Nat) : Nat :=
            quadBase (goal (i % n)) (i % n % 8 / 4) + (f 0x10 8 + i / n * blk) + i % n % 4 * f 0x1C 4
          (∀ i < f 4 4 / blk, ∀ j < blk, s.kernelFrame (s.followed (place i + j)) = false) →
          exec .chainDeal s = .next (dealt (fun i => (.phys, place i)) s.followed)) ∧
        (∀ l, f 1 1 = 1 → c.origin.kind = 0 → s.launchOf c.origin.launch c.origin.gen = some l → l.gang = true → n ≤ l.actors.length →
          f 0x10 8 + area ≤ 0x2000 → (∀ k < n, s.gangMember c.origin k = some (goal k)) →
          exec .chainDeal s = .next (dealt (fun i => (.share (goal (i % n)), f 0x10 8 + i / n * blk)) id))) ∧
    (∀ q (frame : Nat → Nat), f 0 1 = 8 → f 0x18 8 % 16 = 0 → s.engBytes c.eng blockPlace (f 0x18 8) 80 = .ok q →
      let p := selOf b q
      p.ok b q = true → p.aligned = true → s.outputOk c.eng p = .ok () →
      (p.rows = true → ∃ key, s.engKey c.eng .load p.query = .ok key ∧
        (tiers134 key = true ∨ keyTier key = some 5)) →
      (∀ m ∈ p.pageNumbers, s.engKey c.eng .load (1024 * m) = .ok (frame m) ∧ tiers345 (frame m) = true) →
      ∃ (t : State) (sc : Scan), exec .chainSel s = .next t ∧ t.scans = s.scans ++ [sc] ∧ sc.chain = c.id ∧ sc.sel = p ∧
        sc.origin = c.origin ∧ sc.mapped = true ∧ sc.failed = 0 ∧ sc.pairs = [] ∧ t.mem = s.mem ∧
        sc.owners = (p.ownedAt.map fun a => ownerOf (frame (a / 1024) + a % 1024)).eraseDups)) ∧
  (∀ (s : State) (l : CopyLine) (src : Nat → Nat), 0 < s.args.b →
    s.copies.find? (fun q => q.id == s.args.b && q.chain == s.args.a) = some l → s.badLines = [] →
    (∀ p ∈ l.cells, s.engKey l.eng .load p.1 = .ok (src p.1) ∧ anyTier (src p.1) = true) →
    l.cells.Pairwise (fun p q => p.2 ≠ q.2) →
    let put (at_ : Nat → Nat) (t : State) : Prop := t.copies = s.copies.filter (·.id != l.id) ∧
      (∀ p ∈ l.cells, t.byteAt (at_ p.2) = s.keyByte l.eng (src p.1) p.1) ∧
      ∀ a, (∀ p ∈ l.cells, a ≠ at_ p.2) → t.byteAt a = s.byteAt a
    (∀ dst : Nat → Nat, l.dst = .virt → l.overlap = false → l.cells.Pairwise (fun p q => dst p.2 ≠ dst q.2) →
      (∀ p ∈ l.cells, s.engKey l.eng .store p.2 = .ok (dst p.2) ∧ anyTier (dst p.2) = true ∧ dst p.2 < shareBase) →
      ∃ t, exec .chainCopy s = .next t ∧ put dst t) ∧
    (l.dst = .phys → l.overlap = false → (∀ p ∈ l.cells, s.migrating p.2 = false ∧ s.kernelFrame p.2 = false ∧ p.2 < shareBase) →
      ∃ t, exec .chainDeal s = .next t ∧ put id t) ∧
    (∀ uid c, l.dst = .share uid → l.overlap = false → s.ctxOfUid uid = some c → c.uid = uid →
      ∃ (t : State) (c' : Ctx), exec .chainDeal s = .next t ∧ t.ctxOfUid uid = some c' ∧ t.mem = s.mem ∧
        t.copies = s.copies.filter (·.id != l.id) ∧
        ∀ p ∈ l.cells, c'.share.get p.2 0 = s.keyByte l.eng (src p.1) p.1)) ∧
  (∀ (s : State) (l : McastLine), s.mcasts.find? (·.id == s.args.a) = some l → s.mcastReady l = true →
    let home := s.mcastHome l
    let bar := s.mcastBarrier l
    bar + 16 ≤ home ∨ home + 64 ≤ bar → s.kernelFrame home = false → s.kernelFrame bar = false →
    ∃ t, exec .mcastLineArrival s = .next t ∧ t.mcasts = s.mcasts.filter (·.id != l.id) ∧
      (∀ i < 64, t.byteAt (home + i) = if l.mask.getLsbD i then byteOf l.data.toNat i else s.byteAt (home + i)) ∧
      t.bankRead (bar + 8) 8 =
        (s.bankRead (bar + 8) 8 + ((List.range 64).filter fun i => l.mask.getLsbD i).length) % 2 ^ 64) ∧
  (∀ (s : State) (sc : Scan), s.scans.find? (·.id == s.args.a) = some sc → s.badLines = [] →
    (sc.mapped = false → exec .scanPart s = .next (s.setScan (s.mapScan sc))) ∧
    (∀ q, sc.mapped = true → s.args.b ∈ sc.owners → s.partHeld s.args.b = false → s.scanMoving sc = false →
      s.scanQuery sc = .ok q →
      let ok := (s.partValues sc s.args.b q sc.sel.items).filter fun v => sc.sel.qualifies v.2
      exec .scanPart s = .next (s.setScan { sc with
        owners := sc.owners.filter (· != s.args.b)
        pairs := sc.pairs ++ ok.map fun v => (v.2.rank, sc.sel.widen v.2, v.1)
        count := sc.count + ok.length })) ∧
    (∀ t, sc.mapped = true → sc.owners = [] → sc.failed = 0 → sc.sorted = false → sc.sel.outkind = 0 →
      s.engStore sc.eng tiers1to5 (bytesAt sc.sel.out (sc.order.pairs.flatMap pairBytes) ++ sc.order.countBytes) =
        .ok (t, 0) →
      exec .scanMerge s = .next (t.scanDone sc.order 0)) ∧
    (∀ t sc' u e, sc.mapped = true → sc.owners = [] → sc.failed = 0 → sc.sorted = false → sc.sel.outkind = 1 →
      s.scanPipe sc.order = (t, sc') → sc'.pairs = [] → t.engStore sc.eng tiers1to5 sc.order.countBytes = .ok (u, e) →
      exec .scanMerge s = .next (u.scanDone sc' e)) ∧
    (sc.mapped = true → sc.owners = [] → sc.failed ≠ 0 → exec .scanMerge s = .next (s.scanDone sc sc.failed))) ∧
  (∀ (s t : State) (m : BankCmd) (rest : List BankCmd), (s.bankAt s.args.a).arrivals = m :: rest →
    s.halted = false → s.badLines = [] →
    let u := s.setBank s.args.a { s.bankAt s.args.a with arrivals := rest }
    (u.engCross m.origin 3).cabRun s.args.a m = some t →
    (m.kind ≠ 0 → exec .cabArrival s = .next t) ∧
    (m.kind = 0 → u.configHeld s.args.a = false → u.keepsServed t = true →
      exec .cabArrival s = .next (t.promise (s.args.a / 2)))) ∧
  (∀ (s : State) (core n : Nat) (m : MCmd), s.turn s.args.a = some (core, n, m) →
    core < 8 →
    let left := ((s.coreAt (coreBase s.args.a + core)).mq.drop 1)
    ∃ t, exec .matrixGrant s = .next t ∧ (t.tileAt s.args.a).granted = (s.tileAt s.args.a).granted ++ [m] ∧
      (left ≠ [] → (t.tileAt s.args.a).arbCore = core ∧ (t.tileAt s.args.a).arbGiven = n + 1) ∧
      (left = [] → (s.tileAt s.args.a).mwait = [] →
        (t.tileAt s.args.a).arbCore = (core + 1) % 8 ∧ (t.tileAt s.args.a).arbGiven = 0) ∧
      (m.usesSub = true → (t.subAt (coreBase s.args.a + core) m.k).owner = some m.origin.uid)) ∧
  (∀ (s : State) (m : MCmd) (rest : List MCmd), (s.tileAt s.args.a).granted = m :: rest →
    (∀ u, (s.engCross m.origin 2).runMatrix m = some u → exec .matrixCommandDone s =
      .next (u.setTile s.args.a { u.tileAt s.args.a with granted := rest })) ∧
    (m.kind = 3 → ∃ t, exec .matrixCommandDone s = .next t ∧ (t.subAt m.core m.k).elems = [] ∧
      (t.subAt m.core m.k).owner = (s.subAt m.core m.k).owner ∧ (t.tileAt s.args.a).granted = rest ∧ t.mem = s.mem) ∧
    (∀ rows, m.kind = 1 → pfxA m.pfx ≤ 1 → m.a.toNat % 64 = 0 → m.b.toNat % 64 = 0 →
      m.b.toNat + fmtBytes (pfxB m.pfx) m.n ≤ 0x10000 → s.sliceBarred m m.b.toNat (fmtBytes (pfxB m.pfx) m.n) = false →
      (s.engCross m.origin 2).aRows m = .ok rows → s.badLines = [] →
      ∃ t, exec .matrixCommandDone s = .next t ∧ (t.subAt m.core m.k).elems =
        subOf (mmaResult (pfxA m.pfx) (pfxB m.pfx) (pfxGroup m.pfx) (s.subAt m.core m.k).elems rows
          ((List.range 64).map ((s.engCross m.origin 2).bCol m m.b.toNat (fmtBytes (pfxB m.pfx) m.n))) [] [] m.n))) ∧
  (∀ (s : State) (uid : Nat), (s.subAt s.args.a s.args.b).owner = some uid → s.args.b < 4 → s.matrixBusy uid = false →
    (∀ c, s.ctxOfUid uid = some c → ∃ killed, c.st = .ended killed) →
    exec .subtileRelease s = .next (s.setSub s.args.a s.args.b (s.released s.args.a s.args.b)) ∧
    (s.released s.args.a s.args.b).elems = [] ∧
    ∀ m ∈ (s.coreAt s.args.a).mq.head?, m.core = s.args.a → m.usesSub = true → m.k = s.args.b →
      (s.released s.args.a s.args.b).owner = some m.origin.uid)

/-- At a multiple of 1,000 ticks a division sets each unit's excess, lifts a peak cap's throttle, and has
allocations that take effect 200 ticks later; then each core has its allocation and its duty. The energy of the
interval is kept, and a unit that reaches its peak cap over 10 us is throttled. A voltage step moves a quad's
voltage 10 mV towards the target that it had, once per microsecond; the quad then takes its target, and its point is
never above it. A regulator that is late caps its quad. An expired boost lease ends and returns its charge. A freeze
from the host, with the plan at FRZPLAN, or from the rack at a port set to Ultra Ethernet, with its own, begins:
state freezing, leases overridden with their remaining ticks recorded, boost leases suspended where no recast is to
end first; in one tick the host's wins. A target that has acknowledged nothing for 100,000 ticks is lost. When all
is still, the image is taken under its plan, the state is frozen, the slots, messages and tables are empty (they
stay where no target had room, code 3), and the plan's report area has the code in its first byte; the rack's
scheduler is sent a report too. A resumption of the image of the plan at FRZPLAN that fails a check reports its
code, and one that passes begins; at its completion the state is idle and the tables are back, of the image or,
after code 3, of the package. How a budget's rounding goes (log entry 94), what counts as demand (96), when a quad
takes its target (98), where firings stop (105), the issuer after a resumption (151) and the events' operands are
the model's own. (R69, R71, R249, R251, R252, R253, R255, R259, R270, R271, R480, R492) -/
def Obligations.PowerAndFreezeEvents : Prop :=
  ∀ s : State,
    (s.power.divided < s.time / 1000 → s.time % 1000 = 0 → ∃ (t : State) (m : Map Nat), exec .budgetDivision s = .next t ∧
      t.power.next = some (s.time + 200, m) ∧ t.power.divided = s.time / 1000 ∧ t.power.throttled = [] ∧
      t.power.alloc = s.power.alloc ∧
      ∀ u < 3, t.power.excess.get u 0 =
        s.power.excess.get u 0 + s.args.data.getD u 0 - s.power.avgCap.getD u 0 * 10) ∧
    (∀ due m, s.power.next = some (due, m) → due ≤ s.time → ∃ t, exec .allocationEffect s = .next t ∧
      t.power.alloc = m ∧ t.power.next = none ∧ t.slots = s.slots ∧
      ∀ n < 8192, (t.coreAt n).duty = match s.coreClass n with
        | none => 0
        | some _ => BitVec.ofNat 5 (Nat.max 1 (Nat.min 16 (16 * m.get n 0 / s.coreCost n none)))) ∧
    (s.args.a < 3 →
      let e := Nat.max (s.power.peak.get s.args.a 0) s.args.b
      exec .peakCapReached s = .next { s with power := { s.power with
        peak := s.power.peak.set s.args.a e 0
        throttled := if s.power.peakCap.getD s.args.a 0 * 10 ≤ e ∧ s.args.a ∉ s.power.throttled then
          s.args.a :: s.power.throttled else s.power.throttled } }) ∧
    (s.args.a < 2048 →
      let q := s.quadAt s.args.a
      let goal := pointMv q.target
      ∃ t, exec .voltageStep s = .next t ∧ t.power = s.power ∧
        (t.quadAt s.args.a).target = (s.repoint s.args.a (q.stepDue s.time)).targetOf s.args.a ∧
        (t.quadAt s.args.a).point ≤ (t.quadAt s.args.a).target ∧
        (s.time / 100 ≤ q.stepped ∨ s.time % 100 ≠ 0 → (t.quadAt s.args.a).mv = q.mv) ∧
        (q.stepped < s.time / 100 → s.time % 100 = 0 → (t.quadAt s.args.a).stepped = s.time / 100 ∧
          (t.quadAt s.args.a).mv = if q.mv < goal then q.mv + 10 else if goal < q.mv then q.mv - 10 else q.mv)) ∧
    (let q := s.quadAt s.args.a;
      s.args.a < 2048 → q.mv ≠ pointMv q.target → q.stepAt + 20000 ≤ s.time →
      exec .regulatorTimeout s = .next ((s.setQuad s.args.a { q with capped := true }).retarget s.args.a)) ∧
    (∀ (c : Ctx) (b : Boost), (s.slotAt s.args.a).ctx = some c → c.boost = some b → b.suspended = false →
      b.expiry ≤ s.time → ∃ t, exec .boostExpire s = .next t ∧
        (∃ c', (t.slotAt s.args.a).ctx = some c' ∧ c'.boost = none ∧ c'.uid = c.uid ∧ c'.pc = c.pc) ∧
        ((∀ left since, c.st ≠ .realign left since) → (t.slotAt s.args.a).ctx = some { c with boost := none }) ∧
        t.power.reserved.get (districtOf (coreOf s.args.a)) 0 =
          s.power.reserved.get (districtOf (coreOf s.args.a)) 0 - b.charge) ∧
    (∀ by_ ∈ ([(Instr.freezeStart, 1), (.rackFreeze, 2)] : List (Instr × Nat)), s.host.ready = true →
      s.host.frzState = 0 → (by_.2 = 2 → s.args.d ∈ s.host.etherPorts) →
      ∃ (t : State) (f : Freeze), exec by_.1 s = .next t ∧ t.host = { s.host with frzState := 1, frzIssuer := by_.2 } ∧
        t.freeze = some f ∧ f.issued = s.time ∧
        f.plan = (if by_.2 = 1 then s.host.frzPlan else s.args.b) ∧ f.retained = s.args.data ∧ f.lost = 0 ∧ t.leases = [] ∧
        (s.recasts = [] → ∀ k c b, (s.slotAt k).ctx = some c → c.boost = some b → ∃ c' b', (t.slotAt k).ctx = some c' ∧
          c'.boost = some b' ∧ b'.suspended = true) ∧
        (∀ e ∈ s.leases, s.time < e.expiry → { e with expiry := e.expiry - s.time } ∈ f.leases)) ∧
    (∀ f, s.freeze = some f → s.host.frzState = 1 →
      (s.host.frzIssuer = 2 → f.issued = s.time → exec .freezeStart s = .next
        ({ s with freeze := some { f with plan := s.host.frzPlan, retained := s.args.data } }.setHost { s.host with frzIssuer := 1 })) ∧
      (s.args.a < 32 → f.lost / 2 ^ s.args.a % 2 = 0 → f.issued + 100000 ≤ s.time → exec .freezeTargetTimeout s = .next { s with
        freeze := some { f with lost := f.lost + 2 ^ s.args.a, failed := f.failed || !s.args.flag } }) ∧
      (s.openIntervals = [] → s.still = true →
        let code := if f.failed = true then 3 else if f.lost ≠ 0 then 2
          else if 200000000 < s.time - f.issued then 1 else 0
        ∃ t, exec .freezeComplete s = .next t ∧ t.host = { s.host with frzState := 2 } ∧
          t.images = s.images.insert f.plan (s.suspendAll.capture f) ∧
          (f.failed = false → (∀ k, (t.slotAt k).ctx = none) ∧ t.launches = [] ∧ t.ready = [] ∧ t.flying = [] ∧
            t.flights = []) ∧
          (f.failed = true → t.slots = s.suspendAll.slots ∧ t.launches = s.launches ∧ t.ready = s.ready ∧
            t.flying = s.flying ∧ t.flights = s.flights) ∧
          t.reports = s.reports ++ (if s.host.frzIssuer = 2 then [leBytes 8 code] else []) ∧
          t.byteAt (hostPa f.plan) = BitVec.ofNat 8 code ∧
          ∀ a, a < hostPa f.plan ∨ hostPa f.plan + 64 ≤ a → t.byteAt a = s.byteAt a)) ∧
    (s.host.frzState = 2 ∨ (s.host.frzState = 0 ∧ s.host.ready = true ∧ s.launches = []) →
      let code := s.resumeCode s.host.frzPlan s.args.flag s.args.flag2
      (code ≠ 0 → exec .freezeResume s = .next (s.reportFreeze s.host.frzPlan code 0 0 0)) ∧
      (code = 0 → ∃ (t : State) (f : Freeze), exec .freezeResume s = .next t ∧ t.host = { s.host with frzState := 3 } ∧
        t.freeze = some f ∧ f.issued = s.time ∧ f.plan = s.host.frzPlan ∧ f.from_ = s.host.frzState)) ∧
    (∀ f kept m, s.freeze = some f → s.images.get? f.plan = some kept → s.host.frzState = 3 →
      let i := s.resumeImage f.plan kept
      placeTiles s.presentTiles i.used i.used = some m →
      (∀ q < 16, (s.host.queue q).latched = none ∧ (s.host.queue q).head = (s.host.queue q).tail) →
      ∃ t, exec .resumeComplete s = .next t ∧ t.host = { s.host with frzState := 0, frzIssuer := 0 } ∧ t.freeze = none ∧
        t.gens = i.gens ∧ t.pool = i.pool ∧ t.admission = i.admission ∧ t.windows = i.windows ∧ t.joins = i.joins ∧
        t.trapq = (if i.failed then s.emptied else s).trapq ++ i.trapq.map m.slot ∧ t.launches.map (·.1) = i.launches.map (·.1) ∧
        ∀ j l, i.launches.get? j = some l → (t.launches.get? j).map (·.binds) =
          some (l.binds.map fun b => (b.1, m.tile b.2)))
end

