-- ==== Sys2Proof/Laws/Dispatch.lean ====
section
/-! SUPPORT. Each arm of `exec`: the meaning that it calls. -/

set_option Elab.async false

namespace Sys2Proof.Laws

open Sys2Proof Sys2Proof.Machine

theorem exec_add (z : BitVec 1) (y : BitVec 1) (x : BitVec 1) (b : BitVec 5) (a : BitVec 5) (d : BitVec 5) (s : State) : exec (.add z y x b a d) s = execAdd z y x b a d s := rfl
theorem exec_sub (z : BitVec 1) (y : BitVec 1) (x : BitVec 1) (b : BitVec 5) (a : BitVec 5) (d : BitVec 5) (s : State) : exec (.sub z y x b a d) s = execSub z y x b a d s := rfl
theorem exec_and (z : BitVec 1) (y : BitVec 1) (x : BitVec 1) (b : BitVec 5) (a : BitVec 5) (d : BitVec 5) (s : State) : exec (.and z y x b a d) s = execAnd z y x b a d s := rfl
theorem exec_or (z : BitVec 1) (y : BitVec 1) (x : BitVec 1) (b : BitVec 5) (a : BitVec 5) (d : BitVec 5) (s : State) : exec (.or z y x b a d) s = execOr z y x b a d s := rfl
theorem exec_xor (z : BitVec 1) (y : BitVec 1) (x : BitVec 1) (b : BitVec 5) (a : BitVec 5) (d : BitVec 5) (s : State) : exec (.xor z y x b a d) s = execXor z y x b a d s := rfl
theorem exec_andn (z : BitVec 1) (y : BitVec 1) (x : BitVec 1) (b : BitVec 5) (a : BitVec 5) (d : BitVec 5) (s : State) : exec (.andn z y x b a d) s = execAndn z y x b a d s := rfl
theorem exec_shl (z : BitVec 1) (y : BitVec 1) (x : BitVec 1) (b : BitVec 5) (a : BitVec 5) (d : BitVec 5) (s : State) : exec (.shl z y x b a d) s = execShl z y x b a d s := rfl
theorem exec_shr (z : BitVec 1) (y : BitVec 1) (x : BitVec 1) (b : BitVec 5) (a : BitVec 5) (d : BitVec 5) (s : State) : exec (.shr z y x b a d) s = execShr z y x b a d s := rfl
theorem exec_sra (z : BitVec 1) (y : BitVec 1) (x : BitVec 1) (b : BitVec 5) (a : BitVec 5) (d : BitVec 5) (s : State) : exec (.sra z y x b a d) s = execSra z y x b a d s := rfl
theorem exec_mul (z : BitVec 1) (y : BitVec 1) (x : BitVec 1) (b : BitVec 5) (a : BitVec 5) (d : BitVec 5) (s : State) : exec (.mul z y x b a d) s = execMul z y x b a d s := rfl
theorem exec_mulh (z : BitVec 1) (y : BitVec 1) (x : BitVec 1) (b : BitVec 5) (a : BitVec 5) (d : BitVec 5) (s : State) : exec (.mulh z y x b a d) s = execMulh z y x b a d s := rfl
theorem exec_mulhn (z : BitVec 1) (y : BitVec 1) (x : BitVec 1) (b : BitVec 5) (a : BitVec 5) (d : BitVec 5) (s : State) : exec (.mulhn z y x b a d) s = execMulhn z y x b a d s := rfl
theorem exec_div (z : BitVec 1) (y : BitVec 1) (x : BitVec 1) (b : BitVec 5) (a : BitVec 5) (d : BitVec 5) (s : State) : exec (.div z y x b a d) s = execDiv z y x b a d s := rfl
theorem exec_divn (z : BitVec 1) (y : BitVec 1) (x : BitVec 1) (b : BitVec 5) (a : BitVec 5) (d : BitVec 5) (s : State) : exec (.divn z y x b a d) s = execDivn z y x b a d s := rfl
theorem exec_rem (z : BitVec 1) (y : BitVec 1) (x : BitVec 1) (b : BitVec 5) (a : BitVec 5) (d : BitVec 5) (s : State) : exec (.rem z y x b a d) s = execRem z y x b a d s := rfl
theorem exec_remn (z : BitVec 1) (y : BitVec 1) (x : BitVec 1) (b : BitVec 5) (a : BitVec 5) (d : BitVec 5) (s : State) : exec (.remn z y x b a d) s = execRemn z y x b a d s := rfl
theorem exec_min (z : BitVec 1) (y : BitVec 1) (x : BitVec 1) (b : BitVec 5) (a : BitVec 5) (d : BitVec 5) (s : State) : exec (.min z y x b a d) s = execMin z y x b a d s := rfl
theorem exec_max (z : BitVec 1) (y : BitVec 1) (x : BitVec 1) (b : BitVec 5) (a : BitVec 5) (d : BitVec 5) (s : State) : exec (.max z y x b a d) s = execMax z y x b a d s := rfl
theorem exec_minn (z : BitVec 1) (y : BitVec 1) (x : BitVec 1) (b : BitVec 5) (a : BitVec 5) (d : BitVec 5) (s : State) : exec (.minn z y x b a d) s = execMinn z y x b a d s := rfl
theorem exec_maxn (z : BitVec 1) (y : BitVec 1) (x : BitVec 1) (b : BitVec 5) (a : BitVec 5) (d : BitVec 5) (s : State) : exec (.maxn z y x b a d) s = execMaxn z y x b a d s := rfl
theorem exec_slt (z : BitVec 1) (y : BitVec 1) (x : BitVec 1) (b : BitVec 5) (a : BitVec 5) (d : BitVec 5) (s : State) : exec (.slt z y x b a d) s = execSlt z y x b a d s := rfl
theorem exec_sltn (z : BitVec 1) (y : BitVec 1) (x : BitVec 1) (b : BitVec 5) (a : BitVec 5) (d : BitVec 5) (s : State) : exec (.sltn z y x b a d) s = execSltn z y x b a d s := rfl
theorem exec_seq (z : BitVec 1) (y : BitVec 1) (x : BitVec 1) (b : BitVec 5) (a : BitVec 5) (d : BitVec 5) (s : State) : exec (.seq z y x b a d) s = execSeq z y x b a d s := rfl
theorem exec_csel (z : BitVec 1) (y : BitVec 1) (b : BitVec 5) (a : BitVec 5) (d : BitVec 5) (s : State) : exec (.csel z y b a d) s = execCsel z y b a d s := rfl
theorem exec_clz (y : BitVec 1) (x : BitVec 1) (a : BitVec 5) (d : BitVec 5) (s : State) : exec (.clz y x a d) s = execClz y x a d s := rfl
theorem exec_ctz (y : BitVec 1) (x : BitVec 1) (a : BitVec 5) (d : BitVec 5) (s : State) : exec (.ctz y x a d) s = execCtz y x a d s := rfl
theorem exec_popc (y : BitVec 1) (x : BitVec 1) (a : BitVec 5) (d : BitVec 5) (s : State) : exec (.popc y x a d) s = execPopc y x a d s := rfl
theorem exec_sext (w : BitVec 2) (y : BitVec 1) (x : BitVec 1) (a : BitVec 5) (d : BitVec 5) (s : State) : exec (.sext w y x a d) s = execSext w y x a d s := rfl
theorem exec_zext (w : BitVec 2) (y : BitVec 1) (x : BitVec 1) (a : BitVec 5) (d : BitVec 5) (s : State) : exec (.zext w y x a d) s = execZext w y x a d s := rfl
theorem exec_addi (fi : BitVec 12) (a : BitVec 5) (d : BitVec 5) (s : State) : exec (.addi fi a d) s = execAddi fi a d s := rfl
theorem exec_andi (fi : BitVec 12) (a : BitVec 5) (d : BitVec 5) (s : State) : exec (.andi fi a d) s = execAndi fi a d s := rfl
theorem exec_ori (fi : BitVec 12) (a : BitVec 5) (d : BitVec 5) (s : State) : exec (.ori fi a d) s = execOri fi a d s := rfl
theorem exec_xori (fi : BitVec 12) (a : BitVec 5) (d : BitVec 5) (s : State) : exec (.xori fi a d) s = execXori fi a d s := rfl
theorem exec_shli (fi : BitVec 12) (a : BitVec 5) (d : BitVec 5) (s : State) : exec (.shli fi a d) s = execShli fi a d s := rfl
theorem exec_shri (fi : BitVec 12) (a : BitVec 5) (d : BitVec 5) (s : State) : exec (.shri fi a d) s = execShri fi a d s := rfl
theorem exec_srai (fi : BitVec 12) (a : BitVec 5) (d : BitVec 5) (s : State) : exec (.srai fi a d) s = execSrai fi a d s := rfl
theorem exec_slti (fi : BitVec 12) (a : BitVec 5) (d : BitVec 5) (s : State) : exec (.slti fi a d) s = execSlti fi a d s := rfl
theorem exec_lui (fi : BitVec 20) (d : BitVec 5) (s : State) : exec (.lui fi d) s = execLui fi d s := rfl
theorem exec_addpc (fi : BitVec 20) (d : BitVec 5) (s : State) : exec (.addpc fi d) s = execAddpc fi d s := rfl
theorem exec_ld (fs : BitVec 3) (fi : BitVec 12) (a : BitVec 5) (d : BitVec 5) (s : State) : exec (.ld fs fi a d) s = execLd fs fi a d s := rfl
theorem exec_st (fs : BitVec 2) (fi : BitVec 12) (a : BitVec 5) (c : BitVec 5) (s : State) : exec (.st fs fi a c) s = execSt fs fi a c s := rfl
theorem exec_ldx (fs : BitVec 3) (z : BitVec 1) (y : BitVec 1) (x : BitVec 1) (b : BitVec 5) (a : BitVec 5) (d : BitVec 5) (s : State) : exec (.ldx fs z y x b a d) s = execLdx fs z y x b a d s := rfl
theorem exec_stx (fs : BitVec 2) (z : BitVec 1) (y : BitVec 1) (x : BitVec 1) (b : BitVec 5) (a : BitVec 5) (c : BitVec 5) (s : State) : exec (.stx fs z y x b a c) s = execStx fs z y x b a c s := rfl
theorem exec_pref (fi : BitVec 12) (a : BitVec 5) (s : State) : exec (.pref fi a) s = execPref fi a s := rfl
theorem exec_alloc (t : BitVec 12) (a : BitVec 5) (d : BitVec 5) (s : State) : exec (.alloc t a d) s = execAlloc t a d s := rfl
theorem exec_free (a : BitVec 5) (d : BitVec 5) (s : State) : exec (.free a d) s = execFree a d s := rfl
theorem exec_beq (h : BitVec 1) (fi : BitVec 11) (b : BitVec 5) (a : BitVec 5) (s : State) : exec (.beq h fi b a) s = execBeq h fi b a s := rfl
theorem exec_bne (h : BitVec 1) (fi : BitVec 11) (b : BitVec 5) (a : BitVec 5) (s : State) : exec (.bne h fi b a) s = execBne h fi b a s := rfl
theorem exec_blt (h : BitVec 1) (fi : BitVec 11) (b : BitVec 5) (a : BitVec 5) (s : State) : exec (.blt h fi b a) s = execBlt h fi b a s := rfl
theorem exec_bge (h : BitVec 1) (fi : BitVec 11) (b : BitVec 5) (a : BitVec 5) (s : State) : exec (.bge h fi b a) s = execBge h fi b a s := rfl
theorem exec_bltn (h : BitVec 1) (fi : BitVec 11) (b : BitVec 5) (a : BitVec 5) (s : State) : exec (.bltn h fi b a) s = execBltn h fi b a s := rfl
theorem exec_bgen (h : BitVec 1) (fi : BitVec 11) (b : BitVec 5) (a : BitVec 5) (s : State) : exec (.bgen h fi b a) s = execBgen h fi b a s := rfl
theorem exec_loop (h : BitVec 1) (fi : BitVec 11) (a : BitVec 5) (s : State) : exec (.loop h fi a) s = execLoop h fi a s := rfl
theorem exec_jal (fi : BitVec 20) (d : BitVec 5) (s : State) : exec (.jal fi d) s = execJal fi d s := rfl
theorem exec_jalr (fi : BitVec 12) (a : BitVec 5) (d : BitVec 5) (s : State) : exec (.jalr fi a d) s = execJalr fi a d s := rfl
theorem exec_realign (n : BitVec 12) (s : State) : exec (.realign n) s = execRealign n s := rfl
theorem exec_fin (s : State) : exec .fin s = execFin s := rfl
theorem exec_nop (s : State) : exec .nop s = execNop s := rfl
theorem exec_vadd16 (m : BitVec 3) (fs : BitVec 4) (d : BitVec 4) (s : State) : exec (.vadd16 m fs d) s = execVadd16 m fs d s := rfl
theorem exec_vsub16 (m : BitVec 3) (fs : BitVec 4) (d : BitVec 4) (s : State) : exec (.vsub16 m fs d) s = execVsub16 m fs d s := rfl
theorem exec_vrsub16 (m : BitVec 3) (fs : BitVec 4) (d : BitVec 4) (s : State) : exec (.vrsub16 m fs d) s = execVrsub16 m fs d s := rfl
theorem exec_vmul16 (m : BitVec 3) (fs : BitVec 4) (d : BitVec 4) (s : State) : exec (.vmul16 m fs d) s = execVmul16 m fs d s := rfl
theorem exec_vmin16 (m : BitVec 3) (fs : BitVec 4) (d : BitVec 4) (s : State) : exec (.vmin16 m fs d) s = execVmin16 m fs d s := rfl
theorem exec_vmax16 (m : BitVec 3) (fs : BitVec 4) (d : BitVec 4) (s : State) : exec (.vmax16 m fs d) s = execVmax16 m fs d s := rfl
theorem exec_vand16 (m : BitVec 3) (fs : BitVec 4) (d : BitVec 4) (s : State) : exec (.vand16 m fs d) s = execVand16 m fs d s := rfl
theorem exec_vor16 (m : BitVec 3) (fs : BitVec 4) (d : BitVec 4) (s : State) : exec (.vor16 m fs d) s = execVor16 m fs d s := rfl
theorem exec_vxor16 (m : BitVec 3) (fs : BitVec 4) (d : BitVec 4) (s : State) : exec (.vxor16 m fs d) s = execVxor16 m fs d s := rfl
theorem exec_vmov16 (m : BitVec 3) (fs : BitVec 4) (d : BitVec 4) (s : State) : exec (.vmov16 m fs d) s = execVmov16 m fs d s := rfl
theorem exec_vabs16 (m : BitVec 3) (fs : BitVec 4) (d : BitVec 4) (s : State) : exec (.vabs16 m fs d) s = execVabs16 m fs d s := rfl
theorem exec_vneg16 (m : BitVec 3) (fs : BitVec 4) (d : BitVec 4) (s : State) : exec (.vneg16 m fs d) s = execVneg16 m fs d s := rfl
theorem exec_vshl16 (m : BitVec 3) (fs : BitVec 4) (d : BitVec 4) (s : State) : exec (.vshl16 m fs d) s = execVshl16 m fs d s := rfl
theorem exec_vshr16 (m : BitVec 3) (fs : BitVec 4) (d : BitVec 4) (s : State) : exec (.vshr16 m fs d) s = execVshr16 m fs d s := rfl
theorem exec_vsra16 (m : BitVec 3) (fs : BitVec 4) (d : BitVec 4) (s : State) : exec (.vsra16 m fs d) s = execVsra16 m fs d s := rfl
theorem exec_vfmak16 (m : BitVec 3) (fs : BitVec 4) (d : BitVec 4) (s : State) : exec (.vfmak16 m fs d) s = execVfmak16 m fs d s := rfl
theorem exec_vadd32 (t : BitVec 3) (m : BitVec 3) (b : BitVec 5) (a : BitVec 5) (d : BitVec 5) (s : State) : exec (.vadd32 t m b a d) s = execVadd32 t m b a d s := rfl
theorem exec_vsub32 (t : BitVec 3) (m : BitVec 3) (b : BitVec 5) (a : BitVec 5) (d : BitVec 5) (s : State) : exec (.vsub32 t m b a d) s = execVsub32 t m b a d s := rfl
theorem exec_vrsub32 (t : BitVec 3) (m : BitVec 3) (b : BitVec 5) (a : BitVec 5) (d : BitVec 5) (s : State) : exec (.vrsub32 t m b a d) s = execVrsub32 t m b a d s := rfl
theorem exec_vmul32 (t : BitVec 3) (m : BitVec 3) (b : BitVec 5) (a : BitVec 5) (d : BitVec 5) (s : State) : exec (.vmul32 t m b a d) s = execVmul32 t m b a d s := rfl
theorem exec_vmin32 (t : BitVec 3) (m : BitVec 3) (b : BitVec 5) (a : BitVec 5) (d : BitVec 5) (s : State) : exec (.vmin32 t m b a d) s = execVmin32 t m b a d s := rfl
theorem exec_vmax32 (t : BitVec 3) (m : BitVec 3) (b : BitVec 5) (a : BitVec 5) (d : BitVec 5) (s : State) : exec (.vmax32 t m b a d) s = execVmax32 t m b a d s := rfl
theorem exec_vand32 (t : BitVec 3) (m : BitVec 3) (b : BitVec 5) (a : BitVec 5) (d : BitVec 5) (s : State) : exec (.vand32 t m b a d) s = execVand32 t m b a d s := rfl
theorem exec_vor32 (t : BitVec 3) (m : BitVec 3) (b : BitVec 5) (a : BitVec 5) (d : BitVec 5) (s : State) : exec (.vor32 t m b a d) s = execVor32 t m b a d s := rfl
theorem exec_vxor32 (t : BitVec 3) (m : BitVec 3) (b : BitVec 5) (a : BitVec 5) (d : BitVec 5) (s : State) : exec (.vxor32 t m b a d) s = execVxor32 t m b a d s := rfl
theorem exec_vmov32 (t : BitVec 3) (m : BitVec 3) (a : BitVec 5) (d : BitVec 5) (s : State) : exec (.vmov32 t m a d) s = execVmov32 t m a d s := rfl
theorem exec_vabs32 (t : BitVec 3) (m : BitVec 3) (a : BitVec 5) (d : BitVec 5) (s : State) : exec (.vabs32 t m a d) s = execVabs32 t m a d s := rfl
theorem exec_vneg32 (t : BitVec 3) (m : BitVec 3) (a : BitVec 5) (d : BitVec 5) (s : State) : exec (.vneg32 t m a d) s = execVneg32 t m a d s := rfl
theorem exec_vshl32 (t : BitVec 3) (m : BitVec 3) (b : BitVec 5) (a : BitVec 5) (d : BitVec 5) (s : State) : exec (.vshl32 t m b a d) s = execVshl32 t m b a d s := rfl
theorem exec_vshr32 (t : BitVec 3) (m : BitVec 3) (b : BitVec 5) (a : BitVec 5) (d : BitVec 5) (s : State) : exec (.vshr32 t m b a d) s = execVshr32 t m b a d s := rfl
theorem exec_vsra32 (t : BitVec 3) (m : BitVec 3) (b : BitVec 5) (a : BitVec 5) (d : BitVec 5) (s : State) : exec (.vsra32 t m b a d) s = execVsra32 t m b a d s := rfl
theorem exec_vfmak32 (t : BitVec 3) (m : BitVec 3) (b : BitVec 5) (a : BitVec 5) (d : BitVec 5) (s : State) : exec (.vfmak32 t m b a d) s = execVfmak32 t m b a d s := rfl
theorem exec_vfma (t : BitVec 3) (m : BitVec 3) (c : BitVec 4) (b : BitVec 5) (a : BitVec 5) (d : BitVec 5) (s : State) : exec (.vfma t m c b a d) s = execVfma t m c b a d s := rfl
theorem exec_vfms (t : BitVec 3) (m : BitVec 3) (c : BitVec 4) (b : BitVec 5) (a : BitVec 5) (d : BitVec 5) (s : State) : exec (.vfms t m c b a d) s = execVfms t m c b a d s := rfl
theorem exec_vfnma (t : BitVec 3) (m : BitVec 3) (c : BitVec 4) (b : BitVec 5) (a : BitVec 5) (d : BitVec 5) (s : State) : exec (.vfnma t m c b a d) s = execVfnma t m c b a d s := rfl
theorem exec_vcmp (t : BitVec 3) (m : BitVec 3) (c : BitVec 4) (b : BitVec 5) (a : BitVec 5) (d : BitVec 5) (s : State) : exec (.vcmp t m c b a d) s = execVcmp t m c b a d s := rfl
theorem exec_vnot (t : BitVec 3) (m : BitVec 3) (a : BitVec 5) (d : BitVec 5) (s : State) : exec (.vnot t m a d) s = execVnot t m a d s := rfl
theorem exec_vexp2 (t : BitVec 3) (m : BitVec 3) (a : BitVec 5) (d : BitVec 5) (s : State) : exec (.vexp2 t m a d) s = execVexp2 t m a d s := rfl
theorem exec_vlog2 (t : BitVec 3) (m : BitVec 3) (a : BitVec 5) (d : BitVec 5) (s : State) : exec (.vlog2 t m a d) s = execVlog2 t m a d s := rfl
theorem exec_vrcp (t : BitVec 3) (m : BitVec 3) (a : BitVec 5) (d : BitVec 5) (s : State) : exec (.vrcp t m a d) s = execVrcp t m a d s := rfl
theorem exec_vrsq (t : BitVec 3) (m : BitVec 3) (a : BitVec 5) (d : BitVec 5) (s : State) : exec (.vrsq t m a d) s = execVrsq t m a d s := rfl
theorem exec_viota (t : BitVec 3) (m : BitVec 3) (d : BitVec 5) (s : State) : exec (.viota t m d) s = execViota t m d s := rfl
theorem exec_vcvt (t : BitVec 3) (m : BitVec 3) (fs : BitVec 3) (a : BitVec 5) (d : BitVec 5) (s : State) : exec (.vcvt t m fs a d) s = execVcvt t m fs a d s := rfl
theorem exec_vsel (t : BitVec 3) (m : BitVec 3) (b : BitVec 5) (a : BitVec 5) (d : BitVec 5) (s : State) : exec (.vsel t m b a d) s = execVsel t m b a d s := rfl
theorem exec_vperm (t : BitVec 3) (m : BitVec 3) (b : BitVec 5) (a : BitVec 5) (d : BitVec 5) (s : State) : exec (.vperm t m b a d) s = execVperm t m b a d s := rfl
theorem exec_vslideUp (t : BitVec 3) (m : BitVec 3) (b : BitVec 5) (a : BitVec 5) (d : BitVec 5) (s : State) : exec (.vslideUp t m b a d) s = execVslideUp t m b a d s := rfl
theorem exec_vslideDn (t : BitVec 3) (m : BitVec 3) (b : BitVec 5) (a : BitVec 5) (d : BitVec 5) (s : State) : exec (.vslideDn t m b a d) s = execVslideDn t m b a d s := rfl
theorem exec_vcompress (t : BitVec 3) (m : BitVec 3) (a : BitVec 5) (d : BitVec 5) (s : State) : exec (.vcompress t m a d) s = execVcompress t m a d s := rfl
theorem exec_vadds (t : BitVec 3) (m : BitVec 3) (b : BitVec 5) (a : BitVec 5) (d : BitVec 5) (s : State) : exec (.vadds t m b a d) s = execVadds t m b a d s := rfl
theorem exec_vscanpAdd (t : BitVec 3) (m : BitVec 3) (a : BitVec 5) (d : BitVec 5) (s : State) : exec (.vscanpAdd t m a d) s = execVscanpAdd t m a d s := rfl
theorem exec_vscanpMin (t : BitVec 3) (m : BitVec 3) (a : BitVec 5) (d : BitVec 5) (s : State) : exec (.vscanpMin t m a d) s = execVscanpMin t m a d s := rfl
theorem exec_vscanpMax (t : BitVec 3) (m : BitVec 3) (a : BitVec 5) (d : BitVec 5) (s : State) : exec (.vscanpMax t m a d) s = execVscanpMax t m a d s := rfl
theorem exec_vredAdd (t : BitVec 3) (m : BitVec 3) (q : BitVec 1) (a : BitVec 5) (d : BitVec 5) (s : State) : exec (.vredAdd t m q a d) s = execVredAdd t m q a d s := rfl
theorem exec_vredMin (t : BitVec 3) (m : BitVec 3) (q : BitVec 1) (a : BitVec 5) (d : BitVec 5) (s : State) : exec (.vredMin t m q a d) s = execVredMin t m q a d s := rfl
theorem exec_vredMax (t : BitVec 3) (m : BitVec 3) (q : BitVec 1) (a : BitVec 5) (d : BitVec 5) (s : State) : exec (.vredMax t m q a d) s = execVredMax t m q a d s := rfl
theorem exec_vredAnd (t : BitVec 3) (m : BitVec 3) (q : BitVec 1) (a : BitVec 5) (d : BitVec 5) (s : State) : exec (.vredAnd t m q a d) s = execVredAnd t m q a d s := rfl
theorem exec_vredOr (t : BitVec 3) (m : BitVec 3) (q : BitVec 1) (a : BitVec 5) (d : BitVec 5) (s : State) : exec (.vredOr t m q a d) s = execVredOr t m q a d s := rfl
theorem exec_vredXor (t : BitVec 3) (m : BitVec 3) (q : BitVec 1) (a : BitVec 5) (d : BitVec 5) (s : State) : exec (.vredXor t m q a d) s = execVredXor t m q a d s := rfl
theorem exec_vdot (t : BitVec 3) (m : BitVec 3) (q : BitVec 1) (b : BitVec 5) (a : BitVec 5) (d : BitVec 5) (s : State) : exec (.vdot t m q b a d) s = execVdot t m q b a d s := rfl
theorem exec_vbcast (t : BitVec 3) (a : BitVec 5) (d : BitVec 5) (s : State) : exec (.vbcast t a d) s = execVbcast t a d s := rfl
theorem exec_vins (t : BitVec 3) (b : BitVec 5) (a : BitVec 5) (d : BitVec 5) (s : State) : exec (.vins t b a d) s = execVins t b a d s := rfl
theorem exec_vext (t : BitVec 3) (b : BitVec 5) (a : BitVec 5) (d : BitVec 5) (s : State) : exec (.vext t b a d) s = execVext t b a d s := rfl
theorem exec_unpkT5 (l : BitVec 3) (a : BitVec 5) (d : BitVec 5) (s : State) : exec (.unpkT5 l a d) s = execUnpkT5 l a d s := rfl
theorem exec_unpkI8 (l : BitVec 3) (a : BitVec 5) (d : BitVec 5) (s : State) : exec (.unpkI8 l a d) s = execUnpkI8 l a d s := rfl
theorem exec_unpkN8 (l : BitVec 3) (a : BitVec 5) (d : BitVec 5) (s : State) : exec (.unpkN8 l a d) s = execUnpkN8 l a d s := rfl
theorem exec_unpkI4 (l : BitVec 3) (a : BitVec 5) (d : BitVec 5) (s : State) : exec (.unpkI4 l a d) s = execUnpkI4 l a d s := rfl
theorem exec_unpkN4 (l : BitVec 3) (a : BitVec 5) (d : BitVec 5) (s : State) : exec (.unpkN4 l a d) s = execUnpkN4 l a d s := rfl
theorem exec_mand (b : BitVec 5) (a : BitVec 5) (d : BitVec 5) (s : State) : exec (.mand b a d) s = execMand b a d s := rfl
theorem exec_mor (b : BitVec 5) (a : BitVec 5) (d : BitVec 5) (s : State) : exec (.mor b a d) s = execMor b a d s := rfl
theorem exec_mxor (b : BitVec 5) (a : BitVec 5) (d : BitVec 5) (s : State) : exec (.mxor b a d) s = execMxor b a d s := rfl
theorem exec_mnot (a : BitVec 5) (d : BitVec 5) (s : State) : exec (.mnot a d) s = execMnot a d s := rfl
theorem exec_mpop (t : BitVec 3) (a : BitVec 5) (d : BitVec 5) (s : State) : exec (.mpop t a d) s = execMpop t a d s := rfl
theorem exec_vtype (t : BitVec 3) (s : State) : exec (.vtype t) s = execVtype t s := rfl
theorem exec_vld (t : BitVec 3) (m : BitVec 3) (fi : BitVec 9) (a : BitVec 5) (d : BitVec 5) (s : State) : exec (.vld t m fi a d) s = execVld t m fi a d s := rfl
theorem exec_vst (t : BitVec 3) (m : BitVec 3) (fi : BitVec 9) (a : BitVec 5) (c : BitVec 5) (s : State) : exec (.vst t m fi a c) s = execVst t m fi a c s := rfl
theorem exec_vlds (t : BitVec 3) (m : BitVec 3) (b : BitVec 5) (a : BitVec 5) (d : BitVec 5) (s : State) : exec (.vlds t m b a d) s = execVlds t m b a d s := rfl
theorem exec_vsts (t : BitVec 3) (m : BitVec 3) (b : BitVec 5) (a : BitVec 5) (c : BitVec 5) (s : State) : exec (.vsts t m b a c) s = execVsts t m b a c s := rfl
theorem exec_vgath (t : BitVec 3) (m : BitVec 3) (b : BitVec 5) (a : BitVec 5) (d : BitVec 5) (s : State) : exec (.vgath t m b a d) s = execVgath t m b a d s := rfl
theorem exec_vscat (t : BitVec 3) (m : BitVec 3) (b : BitVec 5) (a : BitVec 5) (c : BitVec 5) (s : State) : exec (.vscat t m b a c) s = execVscat t m b a c s := rfl
theorem exec_vldIndexed (t : BitVec 3) (m : BitVec 3) (b : BitVec 5) (a : BitVec 5) (d : BitVec 5) (s : State) : exec (.vldIndexed t m b a d) s = execVldIndexed t m b a d s := rfl
theorem exec_vstIndexed (t : BitVec 3) (m : BitVec 3) (b : BitVec 5) (a : BitVec 5) (c : BitVec 5) (s : State) : exec (.vstIndexed t m b a c) s = execVstIndexed t m b a c s := rfl
theorem exec_mma (n : BitVec 4) (b : BitVec 5) (a : BitVec 5) (k : BitVec 2) (s : State) : exec (.mma n b a k) s = execMma n b a k s := rfl
theorem exec_mmag (n : BitVec 4) (b : BitVec 5) (g : BitVec 5) (k : BitVec 2) (s : State) : exec (.mmag n b g k) s = execMmag n b g k s := rfl
theorem exec_mzero (k : BitVec 2) (s : State) : exec (.mzero k) s = execMzero k s := rfl
theorem exec_mldb (a : BitVec 5) (b : BitVec 5) (s : State) : exec (.mldb a b) s = execMldb a b s := rfl
theorem exec_mdrn (fi : BitVec 7) (c : BitVec 5) (a : BitVec 5) (f : BitVec 3) (k : BitVec 2) (s : State) : exec (.mdrn fi c a f k) s = execMdrn fi c a f k s := rfl
theorem exec_mcfg (a : BitVec 5) (n : BitVec 2) (s : State) : exec (.mcfg a n) s = execMcfg a n s := rfl
theorem exec_pfx (q : BitVec 5) (g : BitVec 2) (b : BitVec 3) (a : BitVec 3) (s : State) : exec (.pfx q g b a) s = execPfx q g b a s := rfl
theorem exec_ecopy (fi : BitVec 7) (a : BitVec 5) (s : State) : exec (.ecopy fi a) s = execEcopy fi a s := rfl
theorem exec_barinit (b : BitVec 5) (a : BitVec 5) (s : State) : exec (.barinit b a) s = execBarinit b a s := rfl
theorem exec_baradd (b : BitVec 5) (a : BitVec 5) (s : State) : exec (.baradd b a) s = execBaradd b a s := rfl
theorem exec_cabcfg (fi : BitVec 7) (c : BitVec 5) (k : BitVec 5) (s : State) : exec (.cabcfg fi c k) s = execCabcfg fi c k s := rfl
theorem exec_cabpush (m : BitVec 3) (v : BitVec 5) (k : BitVec 5) (w : BitVec 5) (s : State) : exec (.cabpush m v k w) s = execCabpush m v k w s := rfl
theorem exec_cabmrg (k : BitVec 5) (d : BitVec 5) (s : State) : exec (.cabmrg k d) s = execCabmrg k d s := rfl
theorem exec_cabrd (c : BitVec 5) (k : BitVec 5) (fi : BitVec 5) (s : State) : exec (.cabrd c k fi) s = execCabrd c k fi s := rfl
theorem exec_cabdrn (fi : BitVec 7) (c : BitVec 5) (k : BitVec 5) (s : State) : exec (.cabdrn fi c k) s = execCabdrn fi c k s := rfl
theorem exec_cabclr (k : BitVec 5) (s : State) : exec (.cabclr k) s = execCabclr k s := rfl
theorem exec_scan (fi : BitVec 7) (a : BitVec 5) (s : State) : exec (.scan fi a) s = execScan fi a s := rfl
theorem exec_amoAdd (c : BitVec 1) (z : BitVec 1) (fs : BitVec 4) (b : BitVec 5) (a : BitVec 5) (d : BitVec 5) (s : State) : exec (.amoAdd c z fs b a d) s = execAmoAdd c z fs b a d s := rfl
theorem exec_amoAnd (c : BitVec 1) (z : BitVec 1) (fs : BitVec 4) (b : BitVec 5) (a : BitVec 5) (d : BitVec 5) (s : State) : exec (.amoAnd c z fs b a d) s = execAmoAnd c z fs b a d s := rfl
theorem exec_amoOr (c : BitVec 1) (z : BitVec 1) (fs : BitVec 4) (b : BitVec 5) (a : BitVec 5) (d : BitVec 5) (s : State) : exec (.amoOr c z fs b a d) s = execAmoOr c z fs b a d s := rfl
theorem exec_amoXor (c : BitVec 1) (z : BitVec 1) (fs : BitVec 4) (b : BitVec 5) (a : BitVec 5) (d : BitVec 5) (s : State) : exec (.amoXor c z fs b a d) s = execAmoXor c z fs b a d s := rfl
theorem exec_amoMin (c : BitVec 1) (z : BitVec 1) (fs : BitVec 4) (b : BitVec 5) (a : BitVec 5) (d : BitVec 5) (s : State) : exec (.amoMin c z fs b a d) s = execAmoMin c z fs b a d s := rfl
theorem exec_amoMax (c : BitVec 1) (z : BitVec 1) (fs : BitVec 4) (b : BitVec 5) (a : BitVec 5) (d : BitVec 5) (s : State) : exec (.amoMax c z fs b a d) s = execAmoMax c z fs b a d s := rfl
theorem exec_amoMinn (c : BitVec 1) (z : BitVec 1) (fs : BitVec 4) (b : BitVec 5) (a : BitVec 5) (d : BitVec 5) (s : State) : exec (.amoMinn c z fs b a d) s = execAmoMinn c z fs b a d s := rfl
theorem exec_amoMaxn (c : BitVec 1) (z : BitVec 1) (fs : BitVec 4) (b : BitVec 5) (a : BitVec 5) (d : BitVec 5) (s : State) : exec (.amoMaxn c z fs b a d) s = execAmoMaxn c z fs b a d s := rfl
theorem exec_amoSwap (c : BitVec 1) (z : BitVec 1) (fs : BitVec 4) (b : BitVec 5) (a : BitVec 5) (d : BitVec 5) (s : State) : exec (.amoSwap c z fs b a d) s = execAmoSwap c z fs b a d s := rfl
theorem exec_cas (c : BitVec 1) (z : BitVec 1) (fs : BitVec 4) (b : BitVec 5) (a : BitVec 5) (d : BitVec 5) (s : State) : exec (.cas c z fs b a d) s = execCas c z fs b a d s := rfl
theorem exec_ldlk (z : BitVec 1) (a : BitVec 5) (d : BitVec 5) (s : State) : exec (.ldlk z a d) s = execLdlk z a d s := rfl
theorem exec_stul (z : BitVec 1) (b : BitVec 5) (a : BitVec 5) (s : State) : exec (.stul z b a) s = execStul z b a s := rfl
theorem exec_acq (z : BitVec 1) (fs : BitVec 4) (a : BitVec 5) (d : BitVec 5) (s : State) : exec (.acq z fs a d) s = execAcq z fs a d s := rfl
theorem exec_rel (z : BitVec 1) (fs : BitVec 4) (b : BitVec 5) (a : BitVec 5) (s : State) : exec (.rel z fs b a) s = execRel z fs b a s := rfl
theorem exec_scld (z : BitVec 1) (fs : BitVec 4) (a : BitVec 5) (d : BitVec 5) (s : State) : exec (.scld z fs a d) s = execScld z fs a d s := rfl
theorem exec_scst (z : BitVec 1) (fs : BitVec 4) (b : BitVec 5) (a : BitVec 5) (s : State) : exec (.scst z fs b a) s = execScst z fs b a s := rfl
theorem exec_fence (fs : BitVec 4) (s : State) : exec (.fence fs) s = execFence fs s := rfl
theorem exec_fenceP (fs : BitVec 4) (q : BitVec 5) (p : BitVec 5) (s : State) : exec (.fenceP fs q p) s = execFenceP fs q p s := rfl
theorem exec_cmt (s : State) : exec .cmt s = execCmt s := rfl
theorem exec_trig (s : State) : exec .trig s = execTrig s := rfl
theorem exec_waitList (c : BitVec 1) (fs : BitVec 4) (a : BitVec 5) (d : BitVec 5) (s : State) : exec (.waitList c fs a d) s = execWaitList c fs a d s := rfl
theorem exec_waitBar (c : BitVec 1) (fs : BitVec 4) (a : BitVec 5) (d : BitVec 5) (s : State) : exec (.waitBar c fs a d) s = execWaitBar c fs a d s := rfl
theorem exec_waitPipe (c : BitVec 1) (fs : BitVec 4) (b : BitVec 5) (a : BitVec 5) (d : BitVec 5) (s : State) : exec (.waitPipe c fs b a d) s = execWaitPipe c fs b a d s := rfl
theorem exec_waitJoin (c : BitVec 1) (fs : BitVec 4) (a : BitVec 5) (d : BitVec 5) (s : State) : exec (.waitJoin c fs a d) s = execWaitJoin c fs a d s := rfl
theorem exec_waitEvq (c : BitVec 1) (fs : BitVec 4) (d : BitVec 5) (s : State) : exec (.waitEvq c fs d) s = execWaitEvq c fs d s := rfl
theorem exec_waitNotice (c : BitVec 1) (fs : BitVec 4) (d : BitVec 5) (s : State) : exec (.waitNotice c fs d) s = execWaitNotice c fs d s := rfl
theorem exec_waitProd (c : BitVec 1) (fs : BitVec 4) (d : BitVec 5) (s : State) : exec (.waitProd c fs d) s = execWaitProd c fs d s := rfl
theorem exec_waitMem (z : BitVec 1) (o : BitVec 3) (c : BitVec 1) (fs : BitVec 4) (b : BitVec 5) (a : BitVec 5) (d : BitVec 5) (s : State) : exec (.waitMem z o c fs b a d) s = execWaitMem z o c fs b a d s := rfl
theorem exec_send (fs : BitVec 4) (a : BitVec 5) (d : BitVec 5) (s : State) : exec (.send fs a d) s = execSend fs a d s := rfl
theorem exec_htag (a : BitVec 5) (t : BitVec 4) (s : State) : exec (.htag a t) s = execHtag a t s := rfl
theorem exec_spawn (a : BitVec 5) (s : State) : exec (.spawn a) s = execSpawn a s := rfl
theorem exec_join (fs : BitVec 4) (a : BitVec 5) (s : State) : exec (.join fs a) s = execJoin fs a s := rfl
theorem exec_launch (fs : BitVec 4) (a : BitVec 5) (d : BitVec 5) (s : State) : exec (.launch fs a d) s = execLaunch fs a d s := rfl
theorem exec_wid (fi : BitVec 5) (d : BitVec 5) (s : State) : exec (.wid fi d) s = execWid fi d s := rfl
theorem exec_ppush (a : BitVec 5) (p : BitVec 5) (s : State) : exec (.ppush a p) s = execPpush a p s := rfl
theorem exec_ppop (a : BitVec 5) (p : BitVec 5) (s : State) : exec (.ppop a p) s = execPpop a p s := rfl
theorem exec_ppeek (p : BitVec 5) (d : BitVec 5) (s : State) : exec (.ppeek p d) s = execPpeek p d s := rfl
theorem exec_migr (a : BitVec 5) (d : BitVec 5) (s : State) : exec (.migr a d) s = execMigr a d s := rfl
theorem exec_lease (b : BitVec 1) (c : BitVec 5) (a : BitVec 5) (d : BitVec 5) (s : State) : exec (.lease b c a d) s = execLease b c a d s := rfl
theorem exec_unlease (b : BitVec 1) (a : BitVec 5) (d : BitVec 5) (s : State) : exec (.unlease b a d) s = execUnlease b a d s := rfl
theorem exec_role (x : BitVec 2) (a : BitVec 5) (d : BitVec 5) (s : State) : exec (.role x a d) s = execRole x a d s := rfl
theorem exec_nack (a : BitVec 5) (d : BitVec 5) (s : State) : exec (.nack a d) s = execNack a d s := rfl
theorem exec_boost (a : BitVec 5) (d : BitVec 5) (s : State) : exec (.boost a d) s = execBoost a d s := rfl
theorem exec_crr (r : BitVec 12) (d : BitVec 5) (s : State) : exec (.crr r d) s = execCrr r d s := rfl
theorem exec_crrEvq (d : BitVec 5) (s : State) : exec (.crrEvq d) s = execCrrEvq d s := rfl
theorem exec_crw (r : BitVec 12) (a : BitVec 5) (s : State) : exec (.crw r a) s = execCrw r a s := rfl
theorem exec_trap (n : BitVec 12) (s : State) : exec (.trap n) s = execTrap n s := rfl
theorem exec_sysc (n : BitVec 12) (s : State) : exec (.sysc n) s = execSysc n s := rfl
theorem exec_bkpt (n : BitVec 12) (s : State) : exec (.bkpt n) s = execBkpt n s := rfl
theorem exec_eret (s : State) : exec .eret s = execEret s := rfl
theorem exec_tack (s : State) : exec .tack s = execTack s := rfl
theorem exec_tlbw (b : BitVec 5) (a : BitVec 5) (s : State) : exec (.tlbw b a) s = execTlbw b a s := rfl
theorem exec_tlbi (fs : BitVec 4) (a : BitVec 5) (s : State) : exec (.tlbi fs a) s = execTlbi fs a s := rfl
theorem exec_powerUp (s : State) : exec .powerUp s = execPowerUp s := rfl
theorem exec_bootGo (s : State) : exec .bootGo s = execBootGo s := rfl
theorem exec_chanterBoot (s : State) : exec .chanterBoot s = execChanterBoot s := rfl
theorem exec_droneReady (s : State) : exec .droneReady s = execDroneReady s := rfl
theorem exec_hostAccess (s : State) : exec .hostAccess s = execHostAccess s := rfl
theorem exec_registerWrite (s : State) : exec .registerWrite s = execRegisterWrite s := rfl
theorem exec_doorbell (s : State) : exec .doorbell s = execDoorbell s := rfl
theorem exec_completionDoorbell (s : State) : exec .completionDoorbell s = execCompletionDoorbell s := rfl
theorem exec_qcplWrite (s : State) : exec .qcplWrite s = execQcplWrite s := rfl
theorem exec_launchEnqueueResume (s : State) : exec .launchEnqueueResume s = execLaunchEnqueueResume s := rfl
theorem exec_launchAdmission (s : State) : exec .launchAdmission s = execLaunchAdmission s := rfl
theorem exec_rackLaunch (s : State) : exec .rackLaunch s = execRackLaunch s := rfl
theorem exec_residencyReport (s : State) : exec .residencyReport s = execResidencyReport s := rfl
theorem exec_dispatch (s : State) : exec .dispatch s = execDispatch s := rfl
theorem exec_pipeActorFire (s : State) : exec .pipeActorFire s = execPipeActorFire s := rfl
theorem exec_priorityAge (s : State) : exec .priorityAge s = execPriorityAge s := rfl
theorem exec_fitStarvation (s : State) : exec .fitStarvation s = execFitStarvation s := rfl
theorem exec_migrationComplete (s : State) : exec .migrationComplete s = execMigrationComplete s := rfl
theorem exec_forwardingExpire (s : State) : exec .forwardingExpire s = execForwardingExpire s := rfl
theorem exec_pageResident (s : State) : exec .pageResident s = execPageResident s := rfl
theorem exec_quotaDecline (s : State) : exec .quotaDecline s = execQuotaDecline s := rfl
theorem exec_tlbMiss (s : State) : exec .tlbMiss s = execTlbMiss s := rfl
theorem exec_regionTimeCommit (s : State) : exec .regionTimeCommit s = execRegionTimeCommit s := rfl
theorem exec_intervalTimeClose (s : State) : exec .intervalTimeClose s = execIntervalTimeClose s := rfl
theorem exec_loadDataReturn (s : State) : exec .loadDataReturn s = execLoadDataReturn s := rfl
theorem exec_postedLineAtHome (s : State) : exec .postedLineAtHome s = execPostedLineAtHome s := rfl
theorem exec_storeAck (s : State) : exec .storeAck s = execStoreAck s := rfl
theorem exec_checkedAccessAtHome (s : State) : exec .checkedAccessAtHome s = execCheckedAccessAtHome s := rfl
theorem exec_lockGrant (s : State) : exec .lockGrant s = execLockGrant s := rfl
theorem exec_pageMigration (s : State) : exec .pageMigration s = execPageMigration s := rfl
theorem exec_panpipeDelivery (s : State) : exec .panpipeDelivery s = execPanpipeDelivery s := rfl
theorem exec_roleMapAck (s : State) : exec .roleMapAck s = execRoleMapAck s := rfl
theorem exec_staleRequestReturn (s : State) : exec .staleRequestReturn s = execStaleRequestReturn s := rfl
theorem exec_injectionSend (s : State) : exec .injectionSend s = execInjectionSend s := rfl
theorem exec_messageDelivery (s : State) : exec .messageDelivery s = execMessageDelivery s := rfl
theorem exec_handlerCreate (s : State) : exec .handlerCreate s = execHandlerCreate s := rfl
theorem exec_recordPass (s : State) : exec .recordPass s = execRecordPass s := rfl
theorem exec_firingRetire (s : State) : exec .firingRetire s = execFiringRetire s := rfl
theorem exec_subtileRelease (s : State) : exec .subtileRelease s = execSubtileRelease s := rfl
theorem exec_launchComplete (s : State) : exec .launchComplete s = execLaunchComplete s := rfl
theorem exec_completionJoinResume (s : State) : exec .completionJoinResume s = execCompletionJoinResume s := rfl
theorem exec_launchEndWrite (s : State) : exec .launchEndWrite s = execLaunchEndWrite s := rfl
theorem exec_waitConditionMet (s : State) : exec .waitConditionMet s = execWaitConditionMet s := rfl
theorem exec_waitTimeout (s : State) : exec .waitTimeout s = execWaitTimeout s := rfl
theorem exec_realignTimeout (s : State) : exec .realignTimeout s = execRealignTimeout s := rfl
theorem exec_censusSample (s : State) : exec .censusSample s = execCensusSample s := rfl
theorem exec_recastProposal (s : State) : exec .recastProposal s = execRecastProposal s := rfl
theorem exec_recastDeadline (s : State) : exec .recastDeadline s = execRecastDeadline s := rfl
theorem exec_storageCopyDone (s : State) : exec .storageCopyDone s = execStorageCopyDone s := rfl
theorem exec_computeRecastRebind (s : State) : exec .computeRecastRebind s = execComputeRecastRebind s := rfl
theorem exec_recastFinish (s : State) : exec .recastFinish s = execRecastFinish s := rfl
theorem exec_leaseExpire (s : State) : exec .leaseExpire s = execLeaseExpire s := rfl
theorem exec_matrixGrant (s : State) : exec .matrixGrant s = execMatrixGrant s := rfl
theorem exec_matrixCommandDone (s : State) : exec .matrixCommandDone s = execMatrixCommandDone s := rfl
theorem exec_copyChainStart (s : State) : exec .copyChainStart s = execCopyChainStart s := rfl
theorem exec_scanChainStart (s : State) : exec .scanChainStart s = execScanChainStart s := rfl
theorem exec_chainCopy (s : State) : exec .chainCopy s = execChainCopy s := rfl
theorem exec_chainMcast (s : State) : exec .chainMcast s = execChainMcast s := rfl
theorem exec_chainDeal (s : State) : exec .chainDeal s = execChainDeal s := rfl
theorem exec_chainLoop (s : State) : exec .chainLoop s = execChainLoop s := rfl
theorem exec_chainIfz (s : State) : exec .chainIfz s = execChainIfz s := rfl
theorem exec_chainIfnz (s : State) : exec .chainIfnz s = execChainIfnz s := rfl
theorem exec_chainSignal (s : State) : exec .chainSignal s = execChainSignal s := rfl
theorem exec_chainEnd (s : State) : exec .chainEnd s = execChainEnd s := rfl
theorem exec_chainSel (s : State) : exec .chainSel s = execChainSel s := rfl
theorem exec_mcastLineArrival (s : State) : exec .mcastLineArrival s = execMcastLineArrival s := rfl
theorem exec_scanPart (s : State) : exec .scanPart s = execScanPart s := rfl
theorem exec_scanMerge (s : State) : exec .scanMerge s = execScanMerge s := rfl
theorem exec_cabArrival (s : State) : exec .cabArrival s = execCabArrival s := rfl
theorem exec_budgetDivision (s : State) : exec .budgetDivision s = execBudgetDivision s := rfl
theorem exec_allocationEffect (s : State) : exec .allocationEffect s = execAllocationEffect s := rfl
theorem exec_peakCapReached (s : State) : exec .peakCapReached s = execPeakCapReached s := rfl
theorem exec_voltageStep (s : State) : exec .voltageStep s = execVoltageStep s := rfl
theorem exec_boostExpire (s : State) : exec .boostExpire s = execBoostExpire s := rfl
theorem exec_regulatorTimeout (s : State) : exec .regulatorTimeout s = execRegulatorTimeout s := rfl
theorem exec_trapDelivery (s : State) : exec .trapDelivery s = execTrapDelivery s := rfl
theorem exec_trapEscalation (s : State) : exec .trapEscalation s = execTrapEscalation s := rfl
theorem exec_journalRetry (s : State) : exec .journalRetry s = execJournalRetry s := rfl
theorem exec_journalDiscard (s : State) : exec .journalDiscard s = execJournalDiscard s := rfl
theorem exec_freezeStart (s : State) : exec .freezeStart s = execFreezeStart s := rfl
theorem exec_rackFreeze (s : State) : exec .rackFreeze s = execRackFreeze s := rfl
theorem exec_freezeTargetTimeout (s : State) : exec .freezeTargetTimeout s = execFreezeTargetTimeout s := rfl
theorem exec_freezeComplete (s : State) : exec .freezeComplete s = execFreezeComplete s := rfl
theorem exec_freezeResume (s : State) : exec .freezeResume s = execFreezeResume s := rfl
theorem exec_resumeComplete (s : State) : exec .resumeComplete s = execResumeComplete s := rfl
theorem exec_attest (s : State) : exec .attest s = execAttest s := rfl
theorem exec_identity (s : State) : exec .identity s = execIdentity s := rfl
theorem exec_release (s : State) : exec .release s = execRelease s := rfl
theorem exec_ceilings (s : State) : exec .ceilings s = execCeilings s := rfl
theorem exec_powerOff (s : State) : exec .powerOff s = execPowerOff s := rfl
theorem exec_ualinkTargetRequest (s : State) : exec .ualinkTargetRequest s = execUalinkTargetRequest s := rfl
theorem exec_softError (s : State) : exec .softError s = execSoftError s := rfl

end Sys2Proof.Laws
end

