-- ==== Sys2Proof/Laws/Encode.lean ====
section
/-! SUPPORT. Reading back the fields of a packed word. -/

set_option Elab.async false

namespace Sys2Proof.Laws

open Sys2Proof

theorem bits_head (n : Nat) (v : BitVec n) (r : List Chunk) : bits (pack (⟨n, v⟩ :: r)) 0 n = v.toNat := by
  simp [bits, pack, Nat.add_mul_mod_self_left]

theorem bits_tail (k : Nat) (v : BitVec k) (r : List Chunk) (lo n : Nat) (h : k ≤ lo) :
    bits (pack (⟨k, v⟩ :: r)) lo n = bits (pack r) (lo - k) n := by
  have hv := v.isLt
  have e : 2 ^ lo = 2 ^ k * 2 ^ (lo - k) := by rw [← Nat.pow_add]; congr 1; omega
  simp only [bits, pack, e, ← Nat.div_div_eq_div_mul]
  rw [Nat.add_mul_div_left _ _ (Nat.two_pow_pos _), Nat.div_eq_of_lt hv, Nat.zero_add]

theorem fld_head (n : Nat) (v : BitVec n) (r : List Chunk) : fld (pack (⟨n, v⟩ :: r)) 0 n = v := by
  simp [fld, bits_head]

theorem fld_tail (k : Nat) (v : BitVec k) (r : List Chunk) (lo n : Nat) (h : k ≤ lo) :
    fld (pack (⟨k, v⟩ :: r)) lo n = fld (pack r) (lo - k) n := by simp [fld, bits_tail _ _ _ _ _ h]

/-- The width of a packed word. -/
def width : List Chunk → Nat
  | [] => 0
  | c :: r => c.1 + width r

theorem pack_lt (l : List Chunk) : pack l < 2 ^ width l := by
  induction l with
  | nil => simp [pack, width]
  | cons c r ih =>
    have hc := c.2.isLt
    simp only [pack, width, Nat.pow_add]
    calc c.2.toNat + 2 ^ c.1 * pack r < 2 ^ c.1 + 2 ^ c.1 * pack r := by omega
      _ = 2 ^ c.1 * (pack r + 1) := by rw [Nat.mul_add, Nat.mul_one, Nat.add_comm]
      _ ≤ 2 ^ c.1 * 2 ^ width r := Nat.mul_le_mul_left _ ih

theorem pack_lt' (l : List Chunk) (n : Nat) (h : width l = n) : pack l < 2 ^ n := h ▸ pack_lt l

theorem pack_odd (v : BitVec 1) (r : List Chunk) : pack (⟨1, v⟩ :: r) % 2 = v.toNat := by
  have := bits_head 1 v r
  simpa [bits] using this

end Sys2Proof.Laws
end

