-- ==== Sys2Proof/Laws/Issue.lean ====
section
/-! SUPPORT. What the shared operations around an instruction do. -/

set_option Elab.async false

namespace Sys2Proof.Laws

open Sys2Proof Sys2Proof.Machine

/-- The instruction in hand of an issuer whose turn it is. -/
theorem hand_of_turn {s : State} {who : Issuer} {c : Ctx} (h : turn s who c) :
    s.hand = some { s := s, who := who, c := c } := by
  obtain ⟨h1, h2, h3, h4, _⟩ := h
  simp [State.hand, h1, h2, h3, h4]

/-- A legal instruction whose form the issuer has comes to its effect. -/
theorem attempt_ok {x : Cx} {h : How} {i : Instr} {legal : Bool} {body : Cx → Except Stop State}
    (hw : i.wellFormed = true) (hl : legal = true) (hp : bit x.c.regs.status 5 = false ∨ h.prefixed = true)
    (hv : h.privileged = false ∨ x.isFiring = false) (hs : x.isFiring = true ∨ h.system = true)
    (hm : h.meets.free x.c = true) (hr : x.c.regs.due = []) (hd : x.c.regs.vdue = []) :
    x.attempt h i legal body = body x := by
  have e1 : (!i.wellFormed || !legal || (bit x.c.regs.status 5 && !h.prefixed)) = false := by
    rcases hp with hp | hp <;> simp [hw, hl, hp]
  have e2 : (h.privileged && x.isFiring) = false := by rcases hv with hv | hv <;> simp [hv]
  have e3 : (!x.isFiring && !h.system) = false := by rcases hs with hs | hs <;> simp [hs]
  have e4 : x.c.arrived h i = true := by
    cases hmm : h.meets <;> simp [Ctx.arrived, Ctx.vwaits, hr, hd, hmm]
  simp [Cx.attempt, e1, e2, e3, hm, e4]

/-- With no asynchronous trap waiting, a completed attempt is the next state. -/
theorem conclude_ok {x : Cx} {s t : State} (h : x.c.asyncs = []) : x.conclude s (.ok t) = .next t := by
  simp [Cx.conclude, h]

/-- Nothing forwarded: every instruction may go on. -/
theorem meets_free {m : Meets} {c : Ctx} (h : c.vstream = []) : m.free c = true := by
  cases m <;> simp [Meets.free, h]

/-- An instruction that its issuer may issue, and whose effect is a state, gives that state. -/
theorem issue_ok {h : How} {i : Instr} {legal : Ctx → Bool} {body : Cx → Except Stop State} {s t : State} {who : Issuer}
    {c : Ctx} (hi : turn s who c) (hp : bit c.regs.status 5 = false ∨ h.prefixed = true) (hw : i.wellFormed = true)
    (hl : legal c = true) (hv : h.privileged = false ∨ Cx.isFiring ⟨s, who, c⟩ = false)
    (hs : Cx.isFiring ⟨s, who, c⟩ = true ∨ h.system = true) (hb : body ⟨s, who, c⟩ = .ok t) :
    issue h i legal body s = .next t := by
  have hh := hand_of_turn hi
  obtain ⟨_, _, _, _, h5, h6, _, h8, h9, _⟩ := hi
  have ha : (Cx.mk s who c).attempt h i (legal c) body = body ⟨s, who, c⟩ :=
    attempt_ok hw hl hp hv hs (meets_free h5) h8 h9
  have hc : (Cx.mk s who c).conclude s (.ok t) = .next t := conclude_ok h6
  simp only [issue, hh, ha, hb, hc]

/-- The usual case. -/
theorem issueOn_ok {h : How} {i : Instr} {body : Cx → Except Stop Cx} {s : State} {k : Cx} {who : Issuer}
    {c : Ctx} (hi : issues s who c) (hw : i.wellFormed = true)
    (hv : h.privileged = false ∨ Cx.isFiring ⟨s, who, c⟩ = false)
    (hs : Cx.isFiring ⟨s, who, c⟩ = true ∨ h.system = true) (hb : body ⟨s, who, c⟩ = .ok k) :
    issueOn h i body s = .next k.put :=
  issue_ok hi.1 (.inl hi.2) hw rfl hv hs (by simp [hb, Except.map])

/-- A precise trap of an instruction that its issuer may issue is taken. -/
theorem issue_raise {h : How} {i : Instr} {legal : Ctx → Bool} {body : Cx → Except Stop State} {s : State} {who : Issuer}
    {c : Ctx} {tr : Trap} (hi : turn s who c) (hp : bit c.regs.status 5 = false ∨ h.prefixed = true)
    (hw : i.wellFormed = true) (hl : legal c = true) (hv : h.privileged = false ∨ Cx.isFiring ⟨s, who, c⟩ = false)
    (hs : Cx.isFiring ⟨s, who, c⟩ = true ∨ h.system = true) (hb : body ⟨s, who, c⟩ = .error (.raise tr)) :
    issue h i legal body s = .next ((Cx.raise ⟨s, who, c⟩ tr).settle (Cx.slot ⟨s, who, c⟩)) := by
  have hh := hand_of_turn hi
  obtain ⟨_, _, _, _, h5, h6, _, h8, h9, _⟩ := hi
  have ha : (Cx.mk s who c).attempt h i (legal c) body = body ⟨s, who, c⟩ :=
    attempt_ok hw hl hp hv hs (meets_free h5) h8 h9
  simp only [issue, hh, ha, hb, Cx.conclude, h5, if_pos]

/-- A vector instruction whose slot has forwarded nothing takes effect at once. -/
theorem vissue_ok {h : VHow} {i : Instr} {legal : Word → Bool} {body : VIn → Cx → Except Stop Cx} {s : State} {k : Nat}
    {c : Ctx} {y : Cx} (hi : issuesIn s k c) (hw : i.wellFormed = true) (hl : legal c.regs.status = true)
    (hb : body { pc := c.pc, x := h.x c, y := h.y c, status := c.regs.status } ⟨s, .slot k, c⟩ = .ok y) :
    vissue h i legal body s = .next (y.next h.len).put := by
  have hv := hi.1.2.2.2.2.1
  have ht : s.vecTurn = false := hi.1.2.2.2.2.2.2.1
  rw [vissue, if_neg (by simp [ht])]
  refine issue_ok (h := { meets := .beside h.ops none }) (legal := fun c => legal c.regs.status) hi.1 (.inl hi.2) hw hl (.inl rfl)
    (.inl rfl) ?_
  have hd : c.vwaits i = false := by simp [Ctx.vwaits, hi.1.2.2.2.2.2.2.2.2.1]
  simp [hv, hb, hd]

/-- An event that is enabled occurs. -/
theorem event_some {f : State → Option State} {s t : State} (h : f s = some t) : event f s = .next t := by
  simp [event, h]

/-- An event that is not enabled changes nothing. -/
theorem event_none {f : State → Option State} {s : State} (h : f s = none) : event f s = .next s := by
  simp [event, h]

/-- What an event can do. -/
theorem event_cases {f : State → Option State} {s t : State} (h : event f s = .next t) : f s = some t ∨ t = s := by
  cases e : f s with
  | none => rw [event_none e] at h; cases h; exact .inr rfl
  | some u => rw [event_some e] at h; cases h; exact .inl rfl

end Sys2Proof.Laws
end

