-- ==== Sys2Proof/Laws/Lanes.lean ====
section
/-! SUPPORT. Lanes of a vector that has been put together, and the lanes and flags of a lane-wise result. -/

set_option Elab.async false

namespace Sys2Proof.Laws

open Sys2Proof Sys2Proof.Machine

theorem packLanes_lt (w : Nat) (l : List Nat) : packLanes w l < 2 ^ (w * l.length) := by
  induction l with
  | nil => simp [packLanes]
  | cons a l ih =>
    simp only [packLanes, List.length_cons]
    have := Nat.mod_lt a (Nat.two_pow_pos w)
    rw [show w * (l.length + 1) = w + w * l.length by rw [Nat.mul_add]; omega, Nat.pow_add]
    calc a % 2 ^ w + 2 ^ w * packLanes w l < 2 ^ w + 2 ^ w * packLanes w l := by omega
      _ = 2 ^ w * (packLanes w l + 1) := by rw [Nat.mul_add]; omega
      _ ≤ _ := Nat.mul_le_mul_left _ ih

theorem packLanes_lane (w : Nat) (l : List Nat) (j : Nat) :
    packLanes w l / 2 ^ (w * j) % 2 ^ w = (l[j]?).getD 0 % 2 ^ w := by
  induction l generalizing j with
  | nil => simp [packLanes]
  | cons a l ih =>
    have ha := Nat.mod_lt a (Nat.two_pow_pos w)
    cases j with
    | zero => simp [packLanes, Nat.add_mul_mod_self_left]
    | succ j =>
      rw [show w * (j + 1) = w + w * j by rw [Nat.mul_add]; omega, Nat.pow_add, ← Nat.div_div_eq_div_mul, packLanes,
        Nat.add_mul_div_left _ _ (Nat.two_pow_pos _), Nat.div_eq_of_lt ha, Nat.zero_add, ih]
      simp

/-- A lane of a vector made of lanes that fit it. -/
theorem lane_ofLanes {w : Nat} {l : List Nat} (h : w * l.length ≤ 1024) (j : Nat) :
    lane (ofLanes w l) w j = (l[j]?).getD 0 % 2 ^ w := by
  have h1 := packLanes_lt w l
  have h2 : packLanes w l % 2 ^ 1024 = packLanes w l :=
    Nat.mod_eq_of_lt (Nat.lt_of_lt_of_le h1 (Nat.pow_le_pow_right Nat.two_pos h))
  unfold lane ofLanes
  rw [BitVec.toNat_ofNat, h2, packLanes_lane]

theorem laneCount_width (t : Nat) : 1024 / laneWidth t = laneCount t ∧ laneWidth t * laneCount t = 1024 := by
  unfold laneWidth laneCount; split <;> decide

/-- Each lane of a lane-wise result over all lanes of a type. -/
theorem laneResults_lane (t : Nat) (m : Word) (old : Vec) (f : Nat → Nat × Nat) (j : Nat) (hj : j < laneCount t) :
    lane (laneResults (laneWidth t) (laneCount t) m old f).1 (laneWidth t) j =
      if enabled m j then (f j).1 % 2 ^ laneWidth t else lane old (laneWidth t) j := by
  simp only [laneResults]
  rw [lane_ofLanes (by simp [(laneCount_width t).1, (laneCount_width t).2])]
  simp [(laneCount_width t).1, hj]
  cases enabled m j
  · simp [lane]
  · simp

theorem foldl_flags (m : Word) (n : Nat) (f : Nat → Nat × Nat) (g : Nat → Nat) :
    ∀ (l : List Nat) (a : Nat), (∀ j ∈ l, j < n) →
      (l.map fun j => if decide (j < n) && enabled m j then f j else (g j, 0)).foldl (fun a p => a ||| p.2) a =
        l.foldl (fun a j => if enabled m j then a ||| (f j).2 else a) a
  | [], _, _ => rfl
  | x :: l, a, h => by
    have hx : x < n := h x (by simp)
    simp only [List.map_cons, List.foldl_cons, hx, decide_true, Bool.true_and]
    rw [foldl_flags m n f g l _ (fun j hj => h j (by simp [hj]))]
    cases enabled m x <;> simp

/-- The flags of a lane-wise result over all lanes of a type. -/
theorem laneResults_flags (t : Nat) (m : Word) (old : Vec) (f : Nat → Nat × Nat) :
    (laneResults (laneWidth t) (laneCount t) m old f).2 =
      (List.range (laneCount t)).foldl (fun a j => if enabled m j then a ||| (f j).2 else a) 0 := by
  simp only [laneResults, (laneCount_width t).1]
  exact foldl_flags _ _ _ _ _ _ (by simp)

/-- Raising no flag changes nothing. -/
theorem raiseFlags_zero (c : Ctx) : c.raiseFlags 0 = c := by simp [Ctx.raiseFlags, Ctx.setStatus]

end Sys2Proof.Laws
end

