-- ==== Sys2Proof/Laws/Map.lean ====
section
/-! SUPPORT. Laws of sparse maps: reading after writing, and the canonical form that every operation keeps. -/

set_option Elab.async false

namespace Sys2Proof

variable {α : Type}

theorem Map.get?_erase_same (m : Map α) (k : Nat) : Map.get? (Map.erase m k) k = none := by
  induction m with
  | nil => rfl
  | cons e m ih =>
    obtain ⟨k', v⟩ := e
    by_cases h : k' = k
    · simpa [Map.erase, h] using ih
    · simpa [Map.erase, Map.get?, h] using ih

theorem Map.get?_erase_ne (m : Map α) {k j : Nat} (h : j ≠ k) : Map.get? (Map.erase m k) j = Map.get? m j := by
  induction m with
  | nil => rfl
  | cons e m ih =>
    obtain ⟨k', v⟩ := e
    by_cases hk : k' = k
    · subst hk; simp [Map.erase, Map.get?, ih, Ne.symm h]
    · rw [Map.erase, if_neg hk, Map.get?, Map.get?, ih]

theorem Map.get?_insert_same (m : Map α) (k : Nat) (v : α) : Map.get? (Map.insert m k v) k = some v := by
  induction m with
  | nil => simp [Map.insert, Map.get?]
  | cons e m ih =>
    obtain ⟨k', v'⟩ := e
    by_cases h1 : k' < k
    · simp [Map.insert, Map.get?, h1, Nat.ne_of_lt h1, ih]
    · by_cases h2 : k' = k <;> simp [Map.insert, Map.get?, h1, h2]

theorem Map.get?_insert_ne (m : Map α) {k j : Nat} (v : α) (h : j ≠ k) :
    Map.get? (Map.insert m k v) j = Map.get? m j := by
  induction m with
  | nil => simp [Map.insert, Map.get?, Ne.symm h]
  | cons e m ih =>
    obtain ⟨k', v'⟩ := e
    by_cases h1 : k' < k
    · rw [Map.insert, if_pos h1, Map.get?, Map.get?, ih]
    · by_cases h2 : k' = k
      · subst h2; simp [Map.insert, Map.get?, Ne.symm h, Map.get?_erase_ne m h]
      · simp only [Map.insert, h1, h2, if_false]
        rw [Map.get?, if_neg (Ne.symm h), Map.get?_erase_ne _ h]

section

variable [DecidableEq α]

/-- A read after a write to the same key gives the value written. -/
theorem Map.get_set_same (m : Map α) (k : Nat) (v d : α) : Map.get (Map.set m k v d) k d = v := by
  by_cases h : v = d
  · simp [Map.set, Map.get, h, Map.get?_erase_same]
  · simp [Map.set, Map.get, h, Map.get?_insert_same]

/-- A write leaves every other key alone. -/
theorem Map.get_set_ne (m : Map α) {k j : Nat} (v d : α) (h : j ≠ k) :
    Map.get (Map.set m k v d) j d = Map.get m j d := by
  by_cases hv : v = d
  · simp [Map.set, Map.get, hv, Map.get?_erase_ne m h]
  · simp [Map.set, Map.get, hv, Map.get?_insert_ne m v h]

end

/-! ## The canonical form -/

/-- Every key of a map exceeds a bound. -/
def Map.above (k : Nat) (m : Map α) : Prop := ∀ e ∈ m, k < e.1

theorem Map.rising_cons (k : Nat) (v : α) (m : Map α) :
    Map.rising ((k, v) :: m) = true ↔ Map.above k m ∧ Map.rising m = true := by
  induction m generalizing k v with
  | nil => simp [Map.rising, Map.above]
  | cons e m ih =>
    obtain ⟨k', v'⟩ := e
    constructor
    · intro h
      simp only [Map.rising, Bool.and_eq_true, decide_eq_true_eq] at h
      refine ⟨?_, h.2⟩
      intro e he
      rcases List.mem_cons.mp he with rfl | he
      · exact h.1
      · exact Nat.lt_trans h.1 (((ih k' v').mp h.2).1 e he)
    · intro h
      simp only [Map.rising, Bool.and_eq_true, decide_eq_true_eq]
      exact ⟨h.1 _ (List.mem_cons_self ..), h.2⟩

theorem Map.mem_erase {m : Map α} {k : Nat} {e : Nat × α} (h : e ∈ Map.erase m k) : e ∈ m ∧ e.1 ≠ k := by
  induction m with
  | nil => simp [Map.erase] at h
  | cons x m ih =>
    obtain ⟨k', v⟩ := x
    by_cases hk : k' = k
    · rw [Map.erase, if_pos hk] at h
      exact ⟨List.mem_cons_of_mem _ (ih h).1, (ih h).2⟩
    · rw [Map.erase, if_neg hk] at h
      rcases List.mem_cons.mp h with rfl | h
      · exact ⟨List.mem_cons_self .., hk⟩
      · exact ⟨List.mem_cons_of_mem _ (ih h).1, (ih h).2⟩

theorem Map.rising_erase (m : Map α) (k : Nat) (h : Map.rising m = true) : Map.rising (Map.erase m k) = true := by
  induction m with
  | nil => rfl
  | cons e m ih =>
    obtain ⟨k', v⟩ := e
    have hm := (Map.rising_cons k' v m).mp h
    by_cases hk : k' = k
    · rw [Map.erase, if_pos hk]; exact ih hm.2
    · rw [Map.erase, if_neg hk, Map.rising_cons]
      exact ⟨fun e he => hm.1 e (Map.mem_erase he).1, ih hm.2⟩

theorem Map.mem_insert {m : Map α} {k : Nat} {v : α} {e : Nat × α} (h : e ∈ Map.insert m k v) :
    e = (k, v) ∨ e ∈ m := by
  induction m with
  | nil => simpa [Map.insert] using h
  | cons x m ih =>
    obtain ⟨k', v'⟩ := x
    rw [Map.insert] at h
    split at h
    · rcases List.mem_cons.mp h with rfl | h
      · exact Or.inr (List.mem_cons_self ..)
      · exact (ih h).imp id (List.mem_cons_of_mem _)
    · split at h
      · rcases List.mem_cons.mp h with rfl | h
        · exact Or.inl rfl
        · exact Or.inr (List.mem_cons_of_mem _ (Map.mem_erase h).1)
      · rcases List.mem_cons.mp h with rfl | h
        · exact Or.inl rfl
        · exact Or.inr (Map.mem_erase h).1

theorem Map.rising_insert (m : Map α) (k : Nat) (v : α) (h : Map.rising m = true) :
    Map.rising (Map.insert m k v) = true := by
  induction m with
  | nil => rfl
  | cons e m ih =>
    obtain ⟨k', v'⟩ := e
    have hm := (Map.rising_cons k' v' m).mp h
    rw [Map.insert]
    split
    · rename_i h1
      rw [Map.rising_cons]
      refine ⟨?_, ih hm.2⟩
      intro e he
      rcases Map.mem_insert he with rfl | he
      · exact h1
      · exact hm.1 e he
    · rename_i h1
      split
      · rename_i h2
        subst h2
        rw [Map.rising_cons]
        exact ⟨fun e he => hm.1 e (Map.mem_erase he).1, Map.rising_erase m _ hm.2⟩
      · rename_i h2
        have hk : k < k' := by omega
        rw [Map.rising_cons]
        refine ⟨?_, Map.rising_erase _ _ h⟩
        intro e he
        rcases List.mem_cons.mp (Map.mem_erase he).1 with rfl | he
        · exact hk
        · exact Nat.lt_trans hk (hm.1 e he)

variable [DecidableEq α]

theorem Map.wf_iff (d : α) (m : Map α) : Map.wf d m = true ↔ Map.rising m = true ∧ ∀ e ∈ m, e.2 ≠ d := by
  simp only [Map.wf, Bool.and_eq_true, List.all_eq_true, decide_eq_true_eq]

theorem Map.wf_nil (d : α) : Map.wf d ([] : Map α) = true := rfl

/-- A write keeps the canonical form. -/
theorem Map.wf_set (m : Map α) (k : Nat) (v d : α) (h : Map.wf d m = true) : Map.wf d (Map.set m k v d) = true := by
  rw [Map.wf_iff] at h ⊢
  by_cases hv : v = d
  · rw [Map.set, if_pos hv]
    exact ⟨Map.rising_erase m k h.1, fun e he => h.2 e (Map.mem_erase he).1⟩
  · rw [Map.set, if_neg hv]
    refine ⟨Map.rising_insert m k v h.1, ?_⟩
    intro e he
    rcases Map.mem_insert he with rfl | he
    · exact hv
    · exact h.2 e he

/-- What a filter keeps is in canonical form. -/
theorem Map.wf_filter (m : Map α) (d : α) (p : Nat × α → Bool) (h : Map.wf d m = true) :
    Map.wf d (List.filter p m) = true := by
  rw [Map.wf_iff] at h ⊢
  refine ⟨?_, fun e he => h.2 e (List.mem_filter.mp he).1⟩
  have h1 := h.1
  clear h
  induction m with
  | nil => rfl
  | cons e m ih =>
    obtain ⟨k, v⟩ := e
    have hm := (Map.rising_cons k v m).mp h1
    rw [List.filter_cons]
    split
    · rw [Map.rising_cons]
      exact ⟨fun e he => hm.1 e (List.mem_filter.mp he).1, ih hm.2⟩
    · exact ih hm.2

/-- Writes in turn keep the canonical form. -/
theorem Map.wf_foldl {β : Type} (d : α) (f : Map α → β → Map α)
    (hf : ∀ m b, Map.wf d m = true → Map.wf d (f m b) = true) (l : List β) (m : Map α) (h : Map.wf d m = true) :
    Map.wf d (l.foldl f m) = true := by
  induction l generalizing m with
  | nil => exact h
  | cons b l ih => exact ih _ (hf m b h)

end Sys2Proof
end

