-- ==== Sys2Proof/Laws/State.lean ====
section
/-! SUPPORT. What each named update of the state changes, field by field, and what the accessors read after it: later proofs
cite these and unfold no record update. -/

set_option Elab.async false

namespace Sys2Proof.Machine

/-! ## `State.setSlot` -/

@[simp] theorem State.setSlot_time (s : State) (k : Nat) (v : Slot) : (s.setSlot k v).time = s.time := rfl
@[simp] theorem State.setSlot_cur (s : State) (k : Nat) (v : Slot) : (s.setSlot k v).cur = s.cur := rfl
@[simp] theorem State.setSlot_inputs (s : State) (k : Nat) (v : Slot) : (s.setSlot k v).inputs = s.inputs := rfl
@[simp] theorem State.setSlot_args (s : State) (k : Nat) (v : Slot) : (s.setSlot k v).args = s.args := rfl
@[simp] theorem State.setSlot_vecTurn (s : State) (k : Nat) (v : Slot) : (s.setSlot k v).vecTurn = s.vecTurn := rfl
@[simp] theorem State.setSlot_late (s : State) (k : Nat) (v : Slot) : (s.setSlot k v).late = s.late := rfl
@[simp] theorem State.setSlot_fresh (s : State) (k : Nat) (v : Slot) : (s.setSlot k v).fresh = s.fresh := rfl
@[simp] theorem State.setSlot_nextUid (s : State) (k : Nat) (v : Slot) : (s.setSlot k v).nextUid = s.nextUid := rfl
@[simp] theorem State.setSlot_nextId (s : State) (k : Nat) (v : Slot) : (s.setSlot k v).nextId = s.nextId := rfl
@[simp] theorem State.setSlot_mem (s : State) (k : Nat) (v : Slot) : (s.setSlot k v).mem = s.mem := rfl
@[simp] theorem State.setSlot_unseen (s : State) (k : Nat) (v : Slot) : (s.setSlot k v).unseen = s.unseen := rfl
@[simp] theorem State.setSlot_tags (s : State) (k : Nat) (v : Slot) : (s.setSlot k v).tags = s.tags := rfl
@[simp] theorem State.setSlot_closed (s : State) (k : Nat) (v : Slot) : (s.setSlot k v).closed = s.closed := rfl
@[simp] theorem State.setSlot_locks (s : State) (k : Nat) (v : Slot) : (s.setSlot k v).locks = s.locks := rfl
@[simp] theorem State.setSlot_badLines (s : State) (k : Nat) (v : Slot) : (s.setSlot k v).badLines = s.badLines := rfl
@[simp] theorem State.setSlot_flights (s : State) (k : Nat) (v : Slot) : (s.setSlot k v).flights = s.flights := rfl
@[simp] theorem State.setSlot_slots (s : State) (k : Nat) (v : Slot) : (s.setSlot k v).slots = s.slots.set k v {} := rfl
@[simp] theorem State.setSlot_cores (s : State) (k : Nat) (v : Slot) : (s.setSlot k v).cores = s.cores := rfl
@[simp] theorem State.setSlot_tiles (s : State) (k : Nat) (v : Slot) : (s.setSlot k v).tiles = s.tiles := rfl
@[simp] theorem State.setSlot_subs (s : State) (k : Nat) (v : Slot) : (s.setSlot k v).subs = s.subs := rfl
@[simp] theorem State.setSlot_quads (s : State) (k : Nat) (v : Slot) : (s.setSlot k v).quads = s.quads := rfl
@[simp] theorem State.setSlot_banks (s : State) (k : Nat) (v : Slot) : (s.setSlot k v).banks = s.banks := rfl
@[simp] theorem State.setSlot_roles (s : State) (k : Nat) (v : Slot) : (s.setSlot k v).roles = s.roles := rfl
@[simp] theorem State.setSlot_absentHubs (s : State) (k : Nat) (v : Slot) : (s.setSlot k v).absentHubs = s.absentHubs := rfl
@[simp] theorem State.setSlot_epoch (s : State) (k : Nat) (v : Slot) : (s.setSlot k v).epoch = s.epoch := rfl
@[simp] theorem State.setSlot_recasts (s : State) (k : Nat) (v : Slot) : (s.setSlot k v).recasts = s.recasts := rfl
@[simp] theorem State.setSlot_recastCode (s : State) (k : Nat) (v : Slot) : (s.setSlot k v).recastCode = s.recastCode := rfl
@[simp] theorem State.setSlot_noticeSerial (s : State) (k : Nat) (v : Slot) : (s.setSlot k v).noticeSerial = s.noticeSerial := rfl
@[simp] theorem State.setSlot_leases (s : State) (k : Nat) (v : Slot) : (s.setSlot k v).leases = s.leases := rfl
@[simp] theorem State.setSlot_windows (s : State) (k : Nat) (v : Slot) : (s.setSlot k v).windows = s.windows := rfl
@[simp] theorem State.setSlot_census (s : State) (k : Nat) (v : Slot) : (s.setSlot k v).census = s.census := rfl
@[simp] theorem State.setSlot_conts (s : State) (k : Nat) (v : Slot) : (s.setSlot k v).conts = s.conts := rfl
@[simp] theorem State.setSlot_hubHeld (s : State) (k : Nat) (v : Slot) : (s.setSlot k v).hubHeld = s.hubHeld := rfl
@[simp] theorem State.setSlot_pan (s : State) (k : Nat) (v : Slot) : (s.setSlot k v).pan = s.pan := rfl
@[simp] theorem State.setSlot_flying (s : State) (k : Nat) (v : Slot) : (s.setSlot k v).flying = s.flying := rfl
@[simp] theorem State.setSlot_arrived (s : State) (k : Nat) (v : Slot) : (s.setSlot k v).arrived = s.arrived := rfl
@[simp] theorem State.setSlot_launches (s : State) (k : Nat) (v : Slot) : (s.setSlot k v).launches = s.launches := rfl
@[simp] theorem State.setSlot_gens (s : State) (k : Nat) (v : Slot) : (s.setSlot k v).gens = s.gens := rfl
@[simp] theorem State.setSlot_pool (s : State) (k : Nat) (v : Slot) : (s.setSlot k v).pool = s.pool := rfl
@[simp] theorem State.setSlot_admission (s : State) (k : Nat) (v : Slot) : (s.setSlot k v).admission = s.admission := rfl
@[simp] theorem State.setSlot_joins (s : State) (k : Nat) (v : Slot) : (s.setSlot k v).joins = s.joins := rfl
@[simp] theorem State.setSlot_rackDue (s : State) (k : Nat) (v : Slot) : (s.setSlot k v).rackDue = s.rackDue := rfl
@[simp] theorem State.setSlot_ready (s : State) (k : Nat) (v : Slot) : (s.setSlot k v).ready = s.ready := rfl
@[simp] theorem State.setSlot_moves (s : State) (k : Nat) (v : Slot) : (s.setSlot k v).moves = s.moves := rfl
@[simp] theorem State.setSlot_pageMoves (s : State) (k : Nat) (v : Slot) : (s.setSlot k v).pageMoves = s.pageMoves := rfl
@[simp] theorem State.setSlot_walks (s : State) (k : Nat) (v : Slot) : (s.setSlot k v).walks = s.walks := rfl
@[simp] theorem State.setSlot_pools (s : State) (k : Nat) (v : Slot) : (s.setSlot k v).pools = s.pools := rfl
@[simp] theorem State.setSlot_freeFrames (s : State) (k : Nat) (v : Slot) : (s.setSlot k v).freeFrames = s.freeFrames := rfl
@[simp] theorem State.setSlot_lostPages (s : State) (k : Nat) (v : Slot) : (s.setSlot k v).lostPages = s.lostPages := rfl
@[simp] theorem State.setSlot_chains (s : State) (k : Nat) (v : Slot) : (s.setSlot k v).chains = s.chains := rfl
@[simp] theorem State.setSlot_mcasts (s : State) (k : Nat) (v : Slot) : (s.setSlot k v).mcasts = s.mcasts := rfl
@[simp] theorem State.setSlot_copies (s : State) (k : Nat) (v : Slot) : (s.setSlot k v).copies = s.copies := rfl
@[simp] theorem State.setSlot_scans (s : State) (k : Nat) (v : Slot) : (s.setSlot k v).scans = s.scans := rfl
@[simp] theorem State.setSlot_power (s : State) (k : Nat) (v : Slot) : (s.setSlot k v).power = s.power := rfl
@[simp] theorem State.setSlot_sys (s : State) (k : Nat) (v : Slot) : (s.setSlot k v).sys = s.sys := rfl
@[simp] theorem State.setSlot_trapq (s : State) (k : Nat) (v : Slot) : (s.setSlot k v).trapq = s.trapq := rfl
@[simp] theorem State.setSlot_orphans (s : State) (k : Nat) (v : Slot) : (s.setSlot k v).orphans = s.orphans := rfl
@[simp] theorem State.setSlot_kills (s : State) (k : Nat) (v : Slot) : (s.setSlot k v).kills = s.kills := rfl
@[simp] theorem State.setSlot_reports (s : State) (k : Nat) (v : Slot) : (s.setSlot k v).reports = s.reports := rfl
@[simp] theorem State.setSlot_kreserved (s : State) (k : Nat) (v : Slot) : (s.setSlot k v).kreserved = s.kreserved := rfl
@[simp] theorem State.setSlot_kreservedLocked (s : State) (k : Nat) (v : Slot) : (s.setSlot k v).kreservedLocked = s.kreservedLocked := rfl
@[simp] theorem State.setSlot_enqTlb (s : State) (k : Nat) (v : Slot) : (s.setSlot k v).enqTlb = s.enqTlb := rfl
@[simp] theorem State.setSlot_host (s : State) (k : Nat) (v : Slot) : (s.setSlot k v).host = s.host := rfl
@[simp] theorem State.setSlot_freeze (s : State) (k : Nat) (v : Slot) : (s.setSlot k v).freeze = s.freeze := rfl
@[simp] theorem State.setSlot_images (s : State) (k : Nat) (v : Slot) : (s.setSlot k v).images = s.images := rfl

/-! ## `State.setCore` -/

@[simp] theorem State.setCore_time (s : State) (k : Nat) (v : Core) : (s.setCore k v).time = s.time := rfl
@[simp] theorem State.setCore_cur (s : State) (k : Nat) (v : Core) : (s.setCore k v).cur = s.cur := rfl
@[simp] theorem State.setCore_inputs (s : State) (k : Nat) (v : Core) : (s.setCore k v).inputs = s.inputs := rfl
@[simp] theorem State.setCore_args (s : State) (k : Nat) (v : Core) : (s.setCore k v).args = s.args := rfl
@[simp] theorem State.setCore_vecTurn (s : State) (k : Nat) (v : Core) : (s.setCore k v).vecTurn = s.vecTurn := rfl
@[simp] theorem State.setCore_late (s : State) (k : Nat) (v : Core) : (s.setCore k v).late = s.late := rfl
@[simp] theorem State.setCore_fresh (s : State) (k : Nat) (v : Core) : (s.setCore k v).fresh = s.fresh := rfl
@[simp] theorem State.setCore_nextUid (s : State) (k : Nat) (v : Core) : (s.setCore k v).nextUid = s.nextUid := rfl
@[simp] theorem State.setCore_nextId (s : State) (k : Nat) (v : Core) : (s.setCore k v).nextId = s.nextId := rfl
@[simp] theorem State.setCore_mem (s : State) (k : Nat) (v : Core) : (s.setCore k v).mem = s.mem := rfl
@[simp] theorem State.setCore_unseen (s : State) (k : Nat) (v : Core) : (s.setCore k v).unseen = s.unseen := rfl
@[simp] theorem State.setCore_tags (s : State) (k : Nat) (v : Core) : (s.setCore k v).tags = s.tags := rfl
@[simp] theorem State.setCore_closed (s : State) (k : Nat) (v : Core) : (s.setCore k v).closed = s.closed := rfl
@[simp] theorem State.setCore_locks (s : State) (k : Nat) (v : Core) : (s.setCore k v).locks = s.locks := rfl
@[simp] theorem State.setCore_badLines (s : State) (k : Nat) (v : Core) : (s.setCore k v).badLines = s.badLines := rfl
@[simp] theorem State.setCore_flights (s : State) (k : Nat) (v : Core) : (s.setCore k v).flights = s.flights := rfl
@[simp] theorem State.setCore_slots (s : State) (k : Nat) (v : Core) : (s.setCore k v).slots = s.slots := rfl
@[simp] theorem State.setCore_cores (s : State) (k : Nat) (v : Core) : (s.setCore k v).cores = s.cores.set k v {} := rfl
@[simp] theorem State.setCore_tiles (s : State) (k : Nat) (v : Core) : (s.setCore k v).tiles = s.tiles := rfl
@[simp] theorem State.setCore_subs (s : State) (k : Nat) (v : Core) : (s.setCore k v).subs = s.subs := rfl
@[simp] theorem State.setCore_quads (s : State) (k : Nat) (v : Core) : (s.setCore k v).quads = s.quads := rfl
@[simp] theorem State.setCore_banks (s : State) (k : Nat) (v : Core) : (s.setCore k v).banks = s.banks := rfl
@[simp] theorem State.setCore_roles (s : State) (k : Nat) (v : Core) : (s.setCore k v).roles = s.roles := rfl
@[simp] theorem State.setCore_absentHubs (s : State) (k : Nat) (v : Core) : (s.setCore k v).absentHubs = s.absentHubs := rfl
@[simp] theorem State.setCore_epoch (s : State) (k : Nat) (v : Core) : (s.setCore k v).epoch = s.epoch := rfl
@[simp] theorem State.setCore_recasts (s : State) (k : Nat) (v : Core) : (s.setCore k v).recasts = s.recasts := rfl
@[simp] theorem State.setCore_recastCode (s : State) (k : Nat) (v : Core) : (s.setCore k v).recastCode = s.recastCode := rfl
@[simp] theorem State.setCore_noticeSerial (s : State) (k : Nat) (v : Core) : (s.setCore k v).noticeSerial = s.noticeSerial := rfl
@[simp] theorem State.setCore_leases (s : State) (k : Nat) (v : Core) : (s.setCore k v).leases = s.leases := rfl
@[simp] theorem State.setCore_windows (s : State) (k : Nat) (v : Core) : (s.setCore k v).windows = s.windows := rfl
@[simp] theorem State.setCore_census (s : State) (k : Nat) (v : Core) : (s.setCore k v).census = s.census := rfl
@[simp] theorem State.setCore_conts (s : State) (k : Nat) (v : Core) : (s.setCore k v).conts = s.conts := rfl
@[simp] theorem State.setCore_hubHeld (s : State) (k : Nat) (v : Core) : (s.setCore k v).hubHeld = s.hubHeld := rfl
@[simp] theorem State.setCore_pan (s : State) (k : Nat) (v : Core) : (s.setCore k v).pan = s.pan := rfl
@[simp] theorem State.setCore_flying (s : State) (k : Nat) (v : Core) : (s.setCore k v).flying = s.flying := rfl
@[simp] theorem State.setCore_arrived (s : State) (k : Nat) (v : Core) : (s.setCore k v).arrived = s.arrived := rfl
@[simp] theorem State.setCore_launches (s : State) (k : Nat) (v : Core) : (s.setCore k v).launches = s.launches := rfl
@[simp] theorem State.setCore_gens (s : State) (k : Nat) (v : Core) : (s.setCore k v).gens = s.gens := rfl
@[simp] theorem State.setCore_pool (s : State) (k : Nat) (v : Core) : (s.setCore k v).pool = s.pool := rfl
@[simp] theorem State.setCore_admission (s : State) (k : Nat) (v : Core) : (s.setCore k v).admission = s.admission := rfl
@[simp] theorem State.setCore_joins (s : State) (k : Nat) (v : Core) : (s.setCore k v).joins = s.joins := rfl
@[simp] theorem State.setCore_rackDue (s : State) (k : Nat) (v : Core) : (s.setCore k v).rackDue = s.rackDue := rfl
@[simp] theorem State.setCore_ready (s : State) (k : Nat) (v : Core) : (s.setCore k v).ready = s.ready := rfl
@[simp] theorem State.setCore_moves (s : State) (k : Nat) (v : Core) : (s.setCore k v).moves = s.moves := rfl
@[simp] theorem State.setCore_pageMoves (s : State) (k : Nat) (v : Core) : (s.setCore k v).pageMoves = s.pageMoves := rfl
@[simp] theorem State.setCore_walks (s : State) (k : Nat) (v : Core) : (s.setCore k v).walks = s.walks := rfl
@[simp] theorem State.setCore_pools (s : State) (k : Nat) (v : Core) : (s.setCore k v).pools = s.pools := rfl
@[simp] theorem State.setCore_freeFrames (s : State) (k : Nat) (v : Core) : (s.setCore k v).freeFrames = s.freeFrames := rfl
@[simp] theorem State.setCore_lostPages (s : State) (k : Nat) (v : Core) : (s.setCore k v).lostPages = s.lostPages := rfl
@[simp] theorem State.setCore_chains (s : State) (k : Nat) (v : Core) : (s.setCore k v).chains = s.chains := rfl
@[simp] theorem State.setCore_mcasts (s : State) (k : Nat) (v : Core) : (s.setCore k v).mcasts = s.mcasts := rfl
@[simp] theorem State.setCore_copies (s : State) (k : Nat) (v : Core) : (s.setCore k v).copies = s.copies := rfl
@[simp] theorem State.setCore_scans (s : State) (k : Nat) (v : Core) : (s.setCore k v).scans = s.scans := rfl
@[simp] theorem State.setCore_power (s : State) (k : Nat) (v : Core) : (s.setCore k v).power = s.power := rfl
@[simp] theorem State.setCore_sys (s : State) (k : Nat) (v : Core) : (s.setCore k v).sys = s.sys := rfl
@[simp] theorem State.setCore_trapq (s : State) (k : Nat) (v : Core) : (s.setCore k v).trapq = s.trapq := rfl
@[simp] theorem State.setCore_orphans (s : State) (k : Nat) (v : Core) : (s.setCore k v).orphans = s.orphans := rfl
@[simp] theorem State.setCore_kills (s : State) (k : Nat) (v : Core) : (s.setCore k v).kills = s.kills := rfl
@[simp] theorem State.setCore_reports (s : State) (k : Nat) (v : Core) : (s.setCore k v).reports = s.reports := rfl
@[simp] theorem State.setCore_kreserved (s : State) (k : Nat) (v : Core) : (s.setCore k v).kreserved = s.kreserved := rfl
@[simp] theorem State.setCore_kreservedLocked (s : State) (k : Nat) (v : Core) : (s.setCore k v).kreservedLocked = s.kreservedLocked := rfl
@[simp] theorem State.setCore_enqTlb (s : State) (k : Nat) (v : Core) : (s.setCore k v).enqTlb = s.enqTlb := rfl
@[simp] theorem State.setCore_host (s : State) (k : Nat) (v : Core) : (s.setCore k v).host = s.host := rfl
@[simp] theorem State.setCore_freeze (s : State) (k : Nat) (v : Core) : (s.setCore k v).freeze = s.freeze := rfl
@[simp] theorem State.setCore_images (s : State) (k : Nat) (v : Core) : (s.setCore k v).images = s.images := rfl

/-! ## `State.setTile` -/

@[simp] theorem State.setTile_time (s : State) (k : Nat) (v : Tile) : (s.setTile k v).time = s.time := rfl
@[simp] theorem State.setTile_cur (s : State) (k : Nat) (v : Tile) : (s.setTile k v).cur = s.cur := rfl
@[simp] theorem State.setTile_inputs (s : State) (k : Nat) (v : Tile) : (s.setTile k v).inputs = s.inputs := rfl
@[simp] theorem State.setTile_args (s : State) (k : Nat) (v : Tile) : (s.setTile k v).args = s.args := rfl
@[simp] theorem State.setTile_vecTurn (s : State) (k : Nat) (v : Tile) : (s.setTile k v).vecTurn = s.vecTurn := rfl
@[simp] theorem State.setTile_late (s : State) (k : Nat) (v : Tile) : (s.setTile k v).late = s.late := rfl
@[simp] theorem State.setTile_fresh (s : State) (k : Nat) (v : Tile) : (s.setTile k v).fresh = s.fresh := rfl
@[simp] theorem State.setTile_nextUid (s : State) (k : Nat) (v : Tile) : (s.setTile k v).nextUid = s.nextUid := rfl
@[simp] theorem State.setTile_nextId (s : State) (k : Nat) (v : Tile) : (s.setTile k v).nextId = s.nextId := rfl
@[simp] theorem State.setTile_mem (s : State) (k : Nat) (v : Tile) : (s.setTile k v).mem = s.mem := rfl
@[simp] theorem State.setTile_unseen (s : State) (k : Nat) (v : Tile) : (s.setTile k v).unseen = s.unseen := rfl
@[simp] theorem State.setTile_tags (s : State) (k : Nat) (v : Tile) : (s.setTile k v).tags = s.tags := rfl
@[simp] theorem State.setTile_closed (s : State) (k : Nat) (v : Tile) : (s.setTile k v).closed = s.closed := rfl
@[simp] theorem State.setTile_locks (s : State) (k : Nat) (v : Tile) : (s.setTile k v).locks = s.locks := rfl
@[simp] theorem State.setTile_badLines (s : State) (k : Nat) (v : Tile) : (s.setTile k v).badLines = s.badLines := rfl
@[simp] theorem State.setTile_flights (s : State) (k : Nat) (v : Tile) : (s.setTile k v).flights = s.flights := rfl
@[simp] theorem State.setTile_slots (s : State) (k : Nat) (v : Tile) : (s.setTile k v).slots = s.slots := rfl
@[simp] theorem State.setTile_cores (s : State) (k : Nat) (v : Tile) : (s.setTile k v).cores = s.cores := rfl
@[simp] theorem State.setTile_tiles (s : State) (k : Nat) (v : Tile) : (s.setTile k v).tiles = s.tiles.set k v {} := rfl
@[simp] theorem State.setTile_subs (s : State) (k : Nat) (v : Tile) : (s.setTile k v).subs = s.subs := rfl
@[simp] theorem State.setTile_quads (s : State) (k : Nat) (v : Tile) : (s.setTile k v).quads = s.quads := rfl
@[simp] theorem State.setTile_banks (s : State) (k : Nat) (v : Tile) : (s.setTile k v).banks = s.banks := rfl
@[simp] theorem State.setTile_roles (s : State) (k : Nat) (v : Tile) : (s.setTile k v).roles = s.roles := rfl
@[simp] theorem State.setTile_absentHubs (s : State) (k : Nat) (v : Tile) : (s.setTile k v).absentHubs = s.absentHubs := rfl
@[simp] theorem State.setTile_epoch (s : State) (k : Nat) (v : Tile) : (s.setTile k v).epoch = s.epoch := rfl
@[simp] theorem State.setTile_recasts (s : State) (k : Nat) (v : Tile) : (s.setTile k v).recasts = s.recasts := rfl
@[simp] theorem State.setTile_recastCode (s : State) (k : Nat) (v : Tile) : (s.setTile k v).recastCode = s.recastCode := rfl
@[simp] theorem State.setTile_noticeSerial (s : State) (k : Nat) (v : Tile) : (s.setTile k v).noticeSerial = s.noticeSerial := rfl
@[simp] theorem State.setTile_leases (s : State) (k : Nat) (v : Tile) : (s.setTile k v).leases = s.leases := rfl
@[simp] theorem State.setTile_windows (s : State) (k : Nat) (v : Tile) : (s.setTile k v).windows = s.windows := rfl
@[simp] theorem State.setTile_census (s : State) (k : Nat) (v : Tile) : (s.setTile k v).census = s.census := rfl
@[simp] theorem State.setTile_conts (s : State) (k : Nat) (v : Tile) : (s.setTile k v).conts = s.conts := rfl
@[simp] theorem State.setTile_hubHeld (s : State) (k : Nat) (v : Tile) : (s.setTile k v).hubHeld = s.hubHeld := rfl
@[simp] theorem State.setTile_pan (s : State) (k : Nat) (v : Tile) : (s.setTile k v).pan = s.pan := rfl
@[simp] theorem State.setTile_flying (s : State) (k : Nat) (v : Tile) : (s.setTile k v).flying = s.flying := rfl
@[simp] theorem State.setTile_arrived (s : State) (k : Nat) (v : Tile) : (s.setTile k v).arrived = s.arrived := rfl
@[simp] theorem State.setTile_launches (s : State) (k : Nat) (v : Tile) : (s.setTile k v).launches = s.launches := rfl
@[simp] theorem State.setTile_gens (s : State) (k : Nat) (v : Tile) : (s.setTile k v).gens = s.gens := rfl
@[simp] theorem State.setTile_pool (s : State) (k : Nat) (v : Tile) : (s.setTile k v).pool = s.pool := rfl
@[simp] theorem State.setTile_admission (s : State) (k : Nat) (v : Tile) : (s.setTile k v).admission = s.admission := rfl
@[simp] theorem State.setTile_joins (s : State) (k : Nat) (v : Tile) : (s.setTile k v).joins = s.joins := rfl
@[simp] theorem State.setTile_rackDue (s : State) (k : Nat) (v : Tile) : (s.setTile k v).rackDue = s.rackDue := rfl
@[simp] theorem State.setTile_ready (s : State) (k : Nat) (v : Tile) : (s.setTile k v).ready = s.ready := rfl
@[simp] theorem State.setTile_moves (s : State) (k : Nat) (v : Tile) : (s.setTile k v).moves = s.moves := rfl
@[simp] theorem State.setTile_pageMoves (s : State) (k : Nat) (v : Tile) : (s.setTile k v).pageMoves = s.pageMoves := rfl
@[simp] theorem State.setTile_walks (s : State) (k : Nat) (v : Tile) : (s.setTile k v).walks = s.walks := rfl
@[simp] theorem State.setTile_pools (s : State) (k : Nat) (v : Tile) : (s.setTile k v).pools = s.pools := rfl
@[simp] theorem State.setTile_freeFrames (s : State) (k : Nat) (v : Tile) : (s.setTile k v).freeFrames = s.freeFrames := rfl
@[simp] theorem State.setTile_lostPages (s : State) (k : Nat) (v : Tile) : (s.setTile k v).lostPages = s.lostPages := rfl
@[simp] theorem State.setTile_chains (s : State) (k : Nat) (v : Tile) : (s.setTile k v).chains = s.chains := rfl
@[simp] theorem State.setTile_mcasts (s : State) (k : Nat) (v : Tile) : (s.setTile k v).mcasts = s.mcasts := rfl
@[simp] theorem State.setTile_copies (s : State) (k : Nat) (v : Tile) : (s.setTile k v).copies = s.copies := rfl
@[simp] theorem State.setTile_scans (s : State) (k : Nat) (v : Tile) : (s.setTile k v).scans = s.scans := rfl
@[simp] theorem State.setTile_power (s : State) (k : Nat) (v : Tile) : (s.setTile k v).power = s.power := rfl
@[simp] theorem State.setTile_sys (s : State) (k : Nat) (v : Tile) : (s.setTile k v).sys = s.sys := rfl
@[simp] theorem State.setTile_trapq (s : State) (k : Nat) (v : Tile) : (s.setTile k v).trapq = s.trapq := rfl
@[simp] theorem State.setTile_orphans (s : State) (k : Nat) (v : Tile) : (s.setTile k v).orphans = s.orphans := rfl
@[simp] theorem State.setTile_kills (s : State) (k : Nat) (v : Tile) : (s.setTile k v).kills = s.kills := rfl
@[simp] theorem State.setTile_reports (s : State) (k : Nat) (v : Tile) : (s.setTile k v).reports = s.reports := rfl
@[simp] theorem State.setTile_kreserved (s : State) (k : Nat) (v : Tile) : (s.setTile k v).kreserved = s.kreserved := rfl
@[simp] theorem State.setTile_kreservedLocked (s : State) (k : Nat) (v : Tile) : (s.setTile k v).kreservedLocked = s.kreservedLocked := rfl
@[simp] theorem State.setTile_enqTlb (s : State) (k : Nat) (v : Tile) : (s.setTile k v).enqTlb = s.enqTlb := rfl
@[simp] theorem State.setTile_host (s : State) (k : Nat) (v : Tile) : (s.setTile k v).host = s.host := rfl
@[simp] theorem State.setTile_freeze (s : State) (k : Nat) (v : Tile) : (s.setTile k v).freeze = s.freeze := rfl
@[simp] theorem State.setTile_images (s : State) (k : Nat) (v : Tile) : (s.setTile k v).images = s.images := rfl

/-! ## `State.setSub` -/

@[simp] theorem State.setSub_time (s : State) (n k : Nat) (v : SubTile) : (s.setSub n k v).time = s.time := rfl
@[simp] theorem State.setSub_cur (s : State) (n k : Nat) (v : SubTile) : (s.setSub n k v).cur = s.cur := rfl
@[simp] theorem State.setSub_inputs (s : State) (n k : Nat) (v : SubTile) : (s.setSub n k v).inputs = s.inputs := rfl
@[simp] theorem State.setSub_args (s : State) (n k : Nat) (v : SubTile) : (s.setSub n k v).args = s.args := rfl
@[simp] theorem State.setSub_vecTurn (s : State) (n k : Nat) (v : SubTile) : (s.setSub n k v).vecTurn = s.vecTurn := rfl
@[simp] theorem State.setSub_late (s : State) (n k : Nat) (v : SubTile) : (s.setSub n k v).late = s.late := rfl
@[simp] theorem State.setSub_fresh (s : State) (n k : Nat) (v : SubTile) : (s.setSub n k v).fresh = s.fresh := rfl
@[simp] theorem State.setSub_nextUid (s : State) (n k : Nat) (v : SubTile) : (s.setSub n k v).nextUid = s.nextUid := rfl
@[simp] theorem State.setSub_nextId (s : State) (n k : Nat) (v : SubTile) : (s.setSub n k v).nextId = s.nextId := rfl
@[simp] theorem State.setSub_mem (s : State) (n k : Nat) (v : SubTile) : (s.setSub n k v).mem = s.mem := rfl
@[simp] theorem State.setSub_unseen (s : State) (n k : Nat) (v : SubTile) : (s.setSub n k v).unseen = s.unseen := rfl
@[simp] theorem State.setSub_tags (s : State) (n k : Nat) (v : SubTile) : (s.setSub n k v).tags = s.tags := rfl
@[simp] theorem State.setSub_closed (s : State) (n k : Nat) (v : SubTile) : (s.setSub n k v).closed = s.closed := rfl
@[simp] theorem State.setSub_locks (s : State) (n k : Nat) (v : SubTile) : (s.setSub n k v).locks = s.locks := rfl
@[simp] theorem State.setSub_badLines (s : State) (n k : Nat) (v : SubTile) : (s.setSub n k v).badLines = s.badLines := rfl
@[simp] theorem State.setSub_flights (s : State) (n k : Nat) (v : SubTile) : (s.setSub n k v).flights = s.flights := rfl
@[simp] theorem State.setSub_slots (s : State) (n k : Nat) (v : SubTile) : (s.setSub n k v).slots = s.slots := rfl
@[simp] theorem State.setSub_cores (s : State) (n k : Nat) (v : SubTile) : (s.setSub n k v).cores = s.cores := rfl
@[simp] theorem State.setSub_tiles (s : State) (n k : Nat) (v : SubTile) : (s.setSub n k v).tiles = s.tiles := rfl
@[simp] theorem State.setSub_subs (s : State) (n k : Nat) (v : SubTile) : (s.setSub n k v).subs = s.subs.set (n * 4 + k) v {} := rfl
@[simp] theorem State.setSub_quads (s : State) (n k : Nat) (v : SubTile) : (s.setSub n k v).quads = s.quads := rfl
@[simp] theorem State.setSub_banks (s : State) (n k : Nat) (v : SubTile) : (s.setSub n k v).banks = s.banks := rfl
@[simp] theorem State.setSub_roles (s : State) (n k : Nat) (v : SubTile) : (s.setSub n k v).roles = s.roles := rfl
@[simp] theorem State.setSub_absentHubs (s : State) (n k : Nat) (v : SubTile) : (s.setSub n k v).absentHubs = s.absentHubs := rfl
@[simp] theorem State.setSub_epoch (s : State) (n k : Nat) (v : SubTile) : (s.setSub n k v).epoch = s.epoch := rfl
@[simp] theorem State.setSub_recasts (s : State) (n k : Nat) (v : SubTile) : (s.setSub n k v).recasts = s.recasts := rfl
@[simp] theorem State.setSub_recastCode (s : State) (n k : Nat) (v : SubTile) : (s.setSub n k v).recastCode = s.recastCode := rfl
@[simp] theorem State.setSub_noticeSerial (s : State) (n k : Nat) (v : SubTile) : (s.setSub n k v).noticeSerial = s.noticeSerial := rfl
@[simp] theorem State.setSub_leases (s : State) (n k : Nat) (v : SubTile) : (s.setSub n k v).leases = s.leases := rfl
@[simp] theorem State.setSub_windows (s : State) (n k : Nat) (v : SubTile) : (s.setSub n k v).windows = s.windows := rfl
@[simp] theorem State.setSub_census (s : State) (n k : Nat) (v : SubTile) : (s.setSub n k v).census = s.census := rfl
@[simp] theorem State.setSub_conts (s : State) (n k : Nat) (v : SubTile) : (s.setSub n k v).conts = s.conts := rfl
@[simp] theorem State.setSub_hubHeld (s : State) (n k : Nat) (v : SubTile) : (s.setSub n k v).hubHeld = s.hubHeld := rfl
@[simp] theorem State.setSub_pan (s : State) (n k : Nat) (v : SubTile) : (s.setSub n k v).pan = s.pan := rfl
@[simp] theorem State.setSub_flying (s : State) (n k : Nat) (v : SubTile) : (s.setSub n k v).flying = s.flying := rfl
@[simp] theorem State.setSub_arrived (s : State) (n k : Nat) (v : SubTile) : (s.setSub n k v).arrived = s.arrived := rfl
@[simp] theorem State.setSub_launches (s : State) (n k : Nat) (v : SubTile) : (s.setSub n k v).launches = s.launches := rfl
@[simp] theorem State.setSub_gens (s : State) (n k : Nat) (v : SubTile) : (s.setSub n k v).gens = s.gens := rfl
@[simp] theorem State.setSub_pool (s : State) (n k : Nat) (v : SubTile) : (s.setSub n k v).pool = s.pool := rfl
@[simp] theorem State.setSub_admission (s : State) (n k : Nat) (v : SubTile) : (s.setSub n k v).admission = s.admission := rfl
@[simp] theorem State.setSub_joins (s : State) (n k : Nat) (v : SubTile) : (s.setSub n k v).joins = s.joins := rfl
@[simp] theorem State.setSub_rackDue (s : State) (n k : Nat) (v : SubTile) : (s.setSub n k v).rackDue = s.rackDue := rfl
@[simp] theorem State.setSub_ready (s : State) (n k : Nat) (v : SubTile) : (s.setSub n k v).ready = s.ready := rfl
@[simp] theorem State.setSub_moves (s : State) (n k : Nat) (v : SubTile) : (s.setSub n k v).moves = s.moves := rfl
@[simp] theorem State.setSub_pageMoves (s : State) (n k : Nat) (v : SubTile) : (s.setSub n k v).pageMoves = s.pageMoves := rfl
@[simp] theorem State.setSub_walks (s : State) (n k : Nat) (v : SubTile) : (s.setSub n k v).walks = s.walks := rfl
@[simp] theorem State.setSub_pools (s : State) (n k : Nat) (v : SubTile) : (s.setSub n k v).pools = s.pools := rfl
@[simp] theorem State.setSub_freeFrames (s : State) (n k : Nat) (v : SubTile) : (s.setSub n k v).freeFrames = s.freeFrames := rfl
@[simp] theorem State.setSub_lostPages (s : State) (n k : Nat) (v : SubTile) : (s.setSub n k v).lostPages = s.lostPages := rfl
@[simp] theorem State.setSub_chains (s : State) (n k : Nat) (v : SubTile) : (s.setSub n k v).chains = s.chains := rfl
@[simp] theorem State.setSub_mcasts (s : State) (n k : Nat) (v : SubTile) : (s.setSub n k v).mcasts = s.mcasts := rfl
@[simp] theorem State.setSub_copies (s : State) (n k : Nat) (v : SubTile) : (s.setSub n k v).copies = s.copies := rfl
@[simp] theorem State.setSub_scans (s : State) (n k : Nat) (v : SubTile) : (s.setSub n k v).scans = s.scans := rfl
@[simp] theorem State.setSub_power (s : State) (n k : Nat) (v : SubTile) : (s.setSub n k v).power = s.power := rfl
@[simp] theorem State.setSub_sys (s : State) (n k : Nat) (v : SubTile) : (s.setSub n k v).sys = s.sys := rfl
@[simp] theorem State.setSub_trapq (s : State) (n k : Nat) (v : SubTile) : (s.setSub n k v).trapq = s.trapq := rfl
@[simp] theorem State.setSub_orphans (s : State) (n k : Nat) (v : SubTile) : (s.setSub n k v).orphans = s.orphans := rfl
@[simp] theorem State.setSub_kills (s : State) (n k : Nat) (v : SubTile) : (s.setSub n k v).kills = s.kills := rfl
@[simp] theorem State.setSub_reports (s : State) (n k : Nat) (v : SubTile) : (s.setSub n k v).reports = s.reports := rfl
@[simp] theorem State.setSub_kreserved (s : State) (n k : Nat) (v : SubTile) : (s.setSub n k v).kreserved = s.kreserved := rfl
@[simp] theorem State.setSub_kreservedLocked (s : State) (n k : Nat) (v : SubTile) : (s.setSub n k v).kreservedLocked = s.kreservedLocked := rfl
@[simp] theorem State.setSub_enqTlb (s : State) (n k : Nat) (v : SubTile) : (s.setSub n k v).enqTlb = s.enqTlb := rfl
@[simp] theorem State.setSub_host (s : State) (n k : Nat) (v : SubTile) : (s.setSub n k v).host = s.host := rfl
@[simp] theorem State.setSub_freeze (s : State) (n k : Nat) (v : SubTile) : (s.setSub n k v).freeze = s.freeze := rfl
@[simp] theorem State.setSub_images (s : State) (n k : Nat) (v : SubTile) : (s.setSub n k v).images = s.images := rfl

/-! ## `State.setQuad` -/

@[simp] theorem State.setQuad_time (s : State) (k : Nat) (v : Quad) : (s.setQuad k v).time = s.time := rfl
@[simp] theorem State.setQuad_cur (s : State) (k : Nat) (v : Quad) : (s.setQuad k v).cur = s.cur := rfl
@[simp] theorem State.setQuad_inputs (s : State) (k : Nat) (v : Quad) : (s.setQuad k v).inputs = s.inputs := rfl
@[simp] theorem State.setQuad_args (s : State) (k : Nat) (v : Quad) : (s.setQuad k v).args = s.args := rfl
@[simp] theorem State.setQuad_vecTurn (s : State) (k : Nat) (v : Quad) : (s.setQuad k v).vecTurn = s.vecTurn := rfl
@[simp] theorem State.setQuad_late (s : State) (k : Nat) (v : Quad) : (s.setQuad k v).late = s.late := rfl
@[simp] theorem State.setQuad_fresh (s : State) (k : Nat) (v : Quad) : (s.setQuad k v).fresh = s.fresh := rfl
@[simp] theorem State.setQuad_nextUid (s : State) (k : Nat) (v : Quad) : (s.setQuad k v).nextUid = s.nextUid := rfl
@[simp] theorem State.setQuad_nextId (s : State) (k : Nat) (v : Quad) : (s.setQuad k v).nextId = s.nextId := rfl
@[simp] theorem State.setQuad_mem (s : State) (k : Nat) (v : Quad) : (s.setQuad k v).mem = s.mem := rfl
@[simp] theorem State.setQuad_unseen (s : State) (k : Nat) (v : Quad) : (s.setQuad k v).unseen = s.unseen := rfl
@[simp] theorem State.setQuad_tags (s : State) (k : Nat) (v : Quad) : (s.setQuad k v).tags = s.tags := rfl
@[simp] theorem State.setQuad_closed (s : State) (k : Nat) (v : Quad) : (s.setQuad k v).closed = s.closed := rfl
@[simp] theorem State.setQuad_locks (s : State) (k : Nat) (v : Quad) : (s.setQuad k v).locks = s.locks := rfl
@[simp] theorem State.setQuad_badLines (s : State) (k : Nat) (v : Quad) : (s.setQuad k v).badLines = s.badLines := rfl
@[simp] theorem State.setQuad_flights (s : State) (k : Nat) (v : Quad) : (s.setQuad k v).flights = s.flights := rfl
@[simp] theorem State.setQuad_slots (s : State) (k : Nat) (v : Quad) : (s.setQuad k v).slots = s.slots := rfl
@[simp] theorem State.setQuad_cores (s : State) (k : Nat) (v : Quad) : (s.setQuad k v).cores = s.cores := rfl
@[simp] theorem State.setQuad_tiles (s : State) (k : Nat) (v : Quad) : (s.setQuad k v).tiles = s.tiles := rfl
@[simp] theorem State.setQuad_subs (s : State) (k : Nat) (v : Quad) : (s.setQuad k v).subs = s.subs := rfl
@[simp] theorem State.setQuad_quads (s : State) (k : Nat) (v : Quad) : (s.setQuad k v).quads = s.quads.set k v {} := rfl
@[simp] theorem State.setQuad_banks (s : State) (k : Nat) (v : Quad) : (s.setQuad k v).banks = s.banks := rfl
@[simp] theorem State.setQuad_roles (s : State) (k : Nat) (v : Quad) : (s.setQuad k v).roles = s.roles := rfl
@[simp] theorem State.setQuad_absentHubs (s : State) (k : Nat) (v : Quad) : (s.setQuad k v).absentHubs = s.absentHubs := rfl
@[simp] theorem State.setQuad_epoch (s : State) (k : Nat) (v : Quad) : (s.setQuad k v).epoch = s.epoch := rfl
@[simp] theorem State.setQuad_recasts (s : State) (k : Nat) (v : Quad) : (s.setQuad k v).recasts = s.recasts := rfl
@[simp] theorem State.setQuad_recastCode (s : State) (k : Nat) (v : Quad) : (s.setQuad k v).recastCode = s.recastCode := rfl
@[simp] theorem State.setQuad_noticeSerial (s : State) (k : Nat) (v : Quad) : (s.setQuad k v).noticeSerial = s.noticeSerial := rfl
@[simp] theorem State.setQuad_leases (s : State) (k : Nat) (v : Quad) : (s.setQuad k v).leases = s.leases := rfl
@[simp] theorem State.setQuad_windows (s : State) (k : Nat) (v : Quad) : (s.setQuad k v).windows = s.windows := rfl
@[simp] theorem State.setQuad_census (s : State) (k : Nat) (v : Quad) : (s.setQuad k v).census = s.census := rfl
@[simp] theorem State.setQuad_conts (s : State) (k : Nat) (v : Quad) : (s.setQuad k v).conts = s.conts := rfl
@[simp] theorem State.setQuad_hubHeld (s : State) (k : Nat) (v : Quad) : (s.setQuad k v).hubHeld = s.hubHeld := rfl
@[simp] theorem State.setQuad_pan (s : State) (k : Nat) (v : Quad) : (s.setQuad k v).pan = s.pan := rfl
@[simp] theorem State.setQuad_flying (s : State) (k : Nat) (v : Quad) : (s.setQuad k v).flying = s.flying := rfl
@[simp] theorem State.setQuad_arrived (s : State) (k : Nat) (v : Quad) : (s.setQuad k v).arrived = s.arrived := rfl
@[simp] theorem State.setQuad_launches (s : State) (k : Nat) (v : Quad) : (s.setQuad k v).launches = s.launches := rfl
@[simp] theorem State.setQuad_gens (s : State) (k : Nat) (v : Quad) : (s.setQuad k v).gens = s.gens := rfl
@[simp] theorem State.setQuad_pool (s : State) (k : Nat) (v : Quad) : (s.setQuad k v).pool = s.pool := rfl
@[simp] theorem State.setQuad_admission (s : State) (k : Nat) (v : Quad) : (s.setQuad k v).admission = s.admission := rfl
@[simp] theorem State.setQuad_joins (s : State) (k : Nat) (v : Quad) : (s.setQuad k v).joins = s.joins := rfl
@[simp] theorem State.setQuad_rackDue (s : State) (k : Nat) (v : Quad) : (s.setQuad k v).rackDue = s.rackDue := rfl
@[simp] theorem State.setQuad_ready (s : State) (k : Nat) (v : Quad) : (s.setQuad k v).ready = s.ready := rfl
@[simp] theorem State.setQuad_moves (s : State) (k : Nat) (v : Quad) : (s.setQuad k v).moves = s.moves := rfl
@[simp] theorem State.setQuad_pageMoves (s : State) (k : Nat) (v : Quad) : (s.setQuad k v).pageMoves = s.pageMoves := rfl
@[simp] theorem State.setQuad_walks (s : State) (k : Nat) (v : Quad) : (s.setQuad k v).walks = s.walks := rfl
@[simp] theorem State.setQuad_pools (s : State) (k : Nat) (v : Quad) : (s.setQuad k v).pools = s.pools := rfl
@[simp] theorem State.setQuad_freeFrames (s : State) (k : Nat) (v : Quad) : (s.setQuad k v).freeFrames = s.freeFrames := rfl
@[simp] theorem State.setQuad_lostPages (s : State) (k : Nat) (v : Quad) : (s.setQuad k v).lostPages = s.lostPages := rfl
@[simp] theorem State.setQuad_chains (s : State) (k : Nat) (v : Quad) : (s.setQuad k v).chains = s.chains := rfl
@[simp] theorem State.setQuad_mcasts (s : State) (k : Nat) (v : Quad) : (s.setQuad k v).mcasts = s.mcasts := rfl
@[simp] theorem State.setQuad_copies (s : State) (k : Nat) (v : Quad) : (s.setQuad k v).copies = s.copies := rfl
@[simp] theorem State.setQuad_scans (s : State) (k : Nat) (v : Quad) : (s.setQuad k v).scans = s.scans := rfl
@[simp] theorem State.setQuad_power (s : State) (k : Nat) (v : Quad) : (s.setQuad k v).power = s.power := rfl
@[simp] theorem State.setQuad_sys (s : State) (k : Nat) (v : Quad) : (s.setQuad k v).sys = s.sys := rfl
@[simp] theorem State.setQuad_trapq (s : State) (k : Nat) (v : Quad) : (s.setQuad k v).trapq = s.trapq := rfl
@[simp] theorem State.setQuad_orphans (s : State) (k : Nat) (v : Quad) : (s.setQuad k v).orphans = s.orphans := rfl
@[simp] theorem State.setQuad_kills (s : State) (k : Nat) (v : Quad) : (s.setQuad k v).kills = s.kills := rfl
@[simp] theorem State.setQuad_reports (s : State) (k : Nat) (v : Quad) : (s.setQuad k v).reports = s.reports := rfl
@[simp] theorem State.setQuad_kreserved (s : State) (k : Nat) (v : Quad) : (s.setQuad k v).kreserved = s.kreserved := rfl
@[simp] theorem State.setQuad_kreservedLocked (s : State) (k : Nat) (v : Quad) : (s.setQuad k v).kreservedLocked = s.kreservedLocked := rfl
@[simp] theorem State.setQuad_enqTlb (s : State) (k : Nat) (v : Quad) : (s.setQuad k v).enqTlb = s.enqTlb := rfl
@[simp] theorem State.setQuad_host (s : State) (k : Nat) (v : Quad) : (s.setQuad k v).host = s.host := rfl
@[simp] theorem State.setQuad_freeze (s : State) (k : Nat) (v : Quad) : (s.setQuad k v).freeze = s.freeze := rfl
@[simp] theorem State.setQuad_images (s : State) (k : Nat) (v : Quad) : (s.setQuad k v).images = s.images := rfl

/-! ## `State.setBank` -/

@[simp] theorem State.setBank_time (s : State) (k : Nat) (v : Bank) : (s.setBank k v).time = s.time := rfl
@[simp] theorem State.setBank_cur (s : State) (k : Nat) (v : Bank) : (s.setBank k v).cur = s.cur := rfl
@[simp] theorem State.setBank_inputs (s : State) (k : Nat) (v : Bank) : (s.setBank k v).inputs = s.inputs := rfl
@[simp] theorem State.setBank_args (s : State) (k : Nat) (v : Bank) : (s.setBank k v).args = s.args := rfl
@[simp] theorem State.setBank_vecTurn (s : State) (k : Nat) (v : Bank) : (s.setBank k v).vecTurn = s.vecTurn := rfl
@[simp] theorem State.setBank_late (s : State) (k : Nat) (v : Bank) : (s.setBank k v).late = s.late := rfl
@[simp] theorem State.setBank_fresh (s : State) (k : Nat) (v : Bank) : (s.setBank k v).fresh = s.fresh := rfl
@[simp] theorem State.setBank_nextUid (s : State) (k : Nat) (v : Bank) : (s.setBank k v).nextUid = s.nextUid := rfl
@[simp] theorem State.setBank_nextId (s : State) (k : Nat) (v : Bank) : (s.setBank k v).nextId = s.nextId := rfl
@[simp] theorem State.setBank_mem (s : State) (k : Nat) (v : Bank) : (s.setBank k v).mem = s.mem := rfl
@[simp] theorem State.setBank_unseen (s : State) (k : Nat) (v : Bank) : (s.setBank k v).unseen = s.unseen := rfl
@[simp] theorem State.setBank_tags (s : State) (k : Nat) (v : Bank) : (s.setBank k v).tags = s.tags := rfl
@[simp] theorem State.setBank_closed (s : State) (k : Nat) (v : Bank) : (s.setBank k v).closed = s.closed := rfl
@[simp] theorem State.setBank_locks (s : State) (k : Nat) (v : Bank) : (s.setBank k v).locks = s.locks := rfl
@[simp] theorem State.setBank_badLines (s : State) (k : Nat) (v : Bank) : (s.setBank k v).badLines = s.badLines := rfl
@[simp] theorem State.setBank_flights (s : State) (k : Nat) (v : Bank) : (s.setBank k v).flights = s.flights := rfl
@[simp] theorem State.setBank_slots (s : State) (k : Nat) (v : Bank) : (s.setBank k v).slots = s.slots := rfl
@[simp] theorem State.setBank_cores (s : State) (k : Nat) (v : Bank) : (s.setBank k v).cores = s.cores := rfl
@[simp] theorem State.setBank_tiles (s : State) (k : Nat) (v : Bank) : (s.setBank k v).tiles = s.tiles := rfl
@[simp] theorem State.setBank_subs (s : State) (k : Nat) (v : Bank) : (s.setBank k v).subs = s.subs := rfl
@[simp] theorem State.setBank_quads (s : State) (k : Nat) (v : Bank) : (s.setBank k v).quads = s.quads := rfl
@[simp] theorem State.setBank_banks (s : State) (k : Nat) (v : Bank) : (s.setBank k v).banks = s.banks.set k v {} := rfl
@[simp] theorem State.setBank_roles (s : State) (k : Nat) (v : Bank) : (s.setBank k v).roles = s.roles := rfl
@[simp] theorem State.setBank_absentHubs (s : State) (k : Nat) (v : Bank) : (s.setBank k v).absentHubs = s.absentHubs := rfl
@[simp] theorem State.setBank_epoch (s : State) (k : Nat) (v : Bank) : (s.setBank k v).epoch = s.epoch := rfl
@[simp] theorem State.setBank_recasts (s : State) (k : Nat) (v : Bank) : (s.setBank k v).recasts = s.recasts := rfl
@[simp] theorem State.setBank_recastCode (s : State) (k : Nat) (v : Bank) : (s.setBank k v).recastCode = s.recastCode := rfl
@[simp] theorem State.setBank_noticeSerial (s : State) (k : Nat) (v : Bank) : (s.setBank k v).noticeSerial = s.noticeSerial := rfl
@[simp] theorem State.setBank_leases (s : State) (k : Nat) (v : Bank) : (s.setBank k v).leases = s.leases := rfl
@[simp] theorem State.setBank_windows (s : State) (k : Nat) (v : Bank) : (s.setBank k v).windows = s.windows := rfl
@[simp] theorem State.setBank_census (s : State) (k : Nat) (v : Bank) : (s.setBank k v).census = s.census := rfl
@[simp] theorem State.setBank_conts (s : State) (k : Nat) (v : Bank) : (s.setBank k v).conts = s.conts := rfl
@[simp] theorem State.setBank_hubHeld (s : State) (k : Nat) (v : Bank) : (s.setBank k v).hubHeld = s.hubHeld := rfl
@[simp] theorem State.setBank_pan (s : State) (k : Nat) (v : Bank) : (s.setBank k v).pan = s.pan := rfl
@[simp] theorem State.setBank_flying (s : State) (k : Nat) (v : Bank) : (s.setBank k v).flying = s.flying := rfl
@[simp] theorem State.setBank_arrived (s : State) (k : Nat) (v : Bank) : (s.setBank k v).arrived = s.arrived := rfl
@[simp] theorem State.setBank_launches (s : State) (k : Nat) (v : Bank) : (s.setBank k v).launches = s.launches := rfl
@[simp] theorem State.setBank_gens (s : State) (k : Nat) (v : Bank) : (s.setBank k v).gens = s.gens := rfl
@[simp] theorem State.setBank_pool (s : State) (k : Nat) (v : Bank) : (s.setBank k v).pool = s.pool := rfl
@[simp] theorem State.setBank_admission (s : State) (k : Nat) (v : Bank) : (s.setBank k v).admission = s.admission := rfl
@[simp] theorem State.setBank_joins (s : State) (k : Nat) (v : Bank) : (s.setBank k v).joins = s.joins := rfl
@[simp] theorem State.setBank_rackDue (s : State) (k : Nat) (v : Bank) : (s.setBank k v).rackDue = s.rackDue := rfl
@[simp] theorem State.setBank_ready (s : State) (k : Nat) (v : Bank) : (s.setBank k v).ready = s.ready := rfl
@[simp] theorem State.setBank_moves (s : State) (k : Nat) (v : Bank) : (s.setBank k v).moves = s.moves := rfl
@[simp] theorem State.setBank_pageMoves (s : State) (k : Nat) (v : Bank) : (s.setBank k v).pageMoves = s.pageMoves := rfl
@[simp] theorem State.setBank_walks (s : State) (k : Nat) (v : Bank) : (s.setBank k v).walks = s.walks := rfl
@[simp] theorem State.setBank_pools (s : State) (k : Nat) (v : Bank) : (s.setBank k v).pools = s.pools := rfl
@[simp] theorem State.setBank_freeFrames (s : State) (k : Nat) (v : Bank) : (s.setBank k v).freeFrames = s.freeFrames := rfl
@[simp] theorem State.setBank_lostPages (s : State) (k : Nat) (v : Bank) : (s.setBank k v).lostPages = s.lostPages := rfl
@[simp] theorem State.setBank_chains (s : State) (k : Nat) (v : Bank) : (s.setBank k v).chains = s.chains := rfl
@[simp] theorem State.setBank_mcasts (s : State) (k : Nat) (v : Bank) : (s.setBank k v).mcasts = s.mcasts := rfl
@[simp] theorem State.setBank_copies (s : State) (k : Nat) (v : Bank) : (s.setBank k v).copies = s.copies := rfl
@[simp] theorem State.setBank_scans (s : State) (k : Nat) (v : Bank) : (s.setBank k v).scans = s.scans := rfl
@[simp] theorem State.setBank_power (s : State) (k : Nat) (v : Bank) : (s.setBank k v).power = s.power := rfl
@[simp] theorem State.setBank_sys (s : State) (k : Nat) (v : Bank) : (s.setBank k v).sys = s.sys := rfl
@[simp] theorem State.setBank_trapq (s : State) (k : Nat) (v : Bank) : (s.setBank k v).trapq = s.trapq := rfl
@[simp] theorem State.setBank_orphans (s : State) (k : Nat) (v : Bank) : (s.setBank k v).orphans = s.orphans := rfl
@[simp] theorem State.setBank_kills (s : State) (k : Nat) (v : Bank) : (s.setBank k v).kills = s.kills := rfl
@[simp] theorem State.setBank_reports (s : State) (k : Nat) (v : Bank) : (s.setBank k v).reports = s.reports := rfl
@[simp] theorem State.setBank_kreserved (s : State) (k : Nat) (v : Bank) : (s.setBank k v).kreserved = s.kreserved := rfl
@[simp] theorem State.setBank_kreservedLocked (s : State) (k : Nat) (v : Bank) : (s.setBank k v).kreservedLocked = s.kreservedLocked := rfl
@[simp] theorem State.setBank_enqTlb (s : State) (k : Nat) (v : Bank) : (s.setBank k v).enqTlb = s.enqTlb := rfl
@[simp] theorem State.setBank_host (s : State) (k : Nat) (v : Bank) : (s.setBank k v).host = s.host := rfl
@[simp] theorem State.setBank_freeze (s : State) (k : Nat) (v : Bank) : (s.setBank k v).freeze = s.freeze := rfl
@[simp] theorem State.setBank_images (s : State) (k : Nat) (v : Bank) : (s.setBank k v).images = s.images := rfl

/-! ## `State.setSys` -/

@[simp] theorem State.setSys_time (s : State) (k : Nat) (v : SysCore) : (s.setSys k v).time = s.time := rfl
@[simp] theorem State.setSys_cur (s : State) (k : Nat) (v : SysCore) : (s.setSys k v).cur = s.cur := rfl
@[simp] theorem State.setSys_inputs (s : State) (k : Nat) (v : SysCore) : (s.setSys k v).inputs = s.inputs := rfl
@[simp] theorem State.setSys_args (s : State) (k : Nat) (v : SysCore) : (s.setSys k v).args = s.args := rfl
@[simp] theorem State.setSys_vecTurn (s : State) (k : Nat) (v : SysCore) : (s.setSys k v).vecTurn = s.vecTurn := rfl
@[simp] theorem State.setSys_late (s : State) (k : Nat) (v : SysCore) : (s.setSys k v).late = s.late := rfl
@[simp] theorem State.setSys_fresh (s : State) (k : Nat) (v : SysCore) : (s.setSys k v).fresh = s.fresh := rfl
@[simp] theorem State.setSys_nextUid (s : State) (k : Nat) (v : SysCore) : (s.setSys k v).nextUid = s.nextUid := rfl
@[simp] theorem State.setSys_nextId (s : State) (k : Nat) (v : SysCore) : (s.setSys k v).nextId = s.nextId := rfl
@[simp] theorem State.setSys_mem (s : State) (k : Nat) (v : SysCore) : (s.setSys k v).mem = s.mem := rfl
@[simp] theorem State.setSys_unseen (s : State) (k : Nat) (v : SysCore) : (s.setSys k v).unseen = s.unseen := rfl
@[simp] theorem State.setSys_tags (s : State) (k : Nat) (v : SysCore) : (s.setSys k v).tags = s.tags := rfl
@[simp] theorem State.setSys_closed (s : State) (k : Nat) (v : SysCore) : (s.setSys k v).closed = s.closed := rfl
@[simp] theorem State.setSys_locks (s : State) (k : Nat) (v : SysCore) : (s.setSys k v).locks = s.locks := rfl
@[simp] theorem State.setSys_badLines (s : State) (k : Nat) (v : SysCore) : (s.setSys k v).badLines = s.badLines := rfl
@[simp] theorem State.setSys_flights (s : State) (k : Nat) (v : SysCore) : (s.setSys k v).flights = s.flights := rfl
@[simp] theorem State.setSys_slots (s : State) (k : Nat) (v : SysCore) : (s.setSys k v).slots = s.slots := rfl
@[simp] theorem State.setSys_cores (s : State) (k : Nat) (v : SysCore) : (s.setSys k v).cores = s.cores := rfl
@[simp] theorem State.setSys_tiles (s : State) (k : Nat) (v : SysCore) : (s.setSys k v).tiles = s.tiles := rfl
@[simp] theorem State.setSys_subs (s : State) (k : Nat) (v : SysCore) : (s.setSys k v).subs = s.subs := rfl
@[simp] theorem State.setSys_quads (s : State) (k : Nat) (v : SysCore) : (s.setSys k v).quads = s.quads := rfl
@[simp] theorem State.setSys_banks (s : State) (k : Nat) (v : SysCore) : (s.setSys k v).banks = s.banks := rfl
@[simp] theorem State.setSys_roles (s : State) (k : Nat) (v : SysCore) : (s.setSys k v).roles = s.roles := rfl
@[simp] theorem State.setSys_absentHubs (s : State) (k : Nat) (v : SysCore) : (s.setSys k v).absentHubs = s.absentHubs := rfl
@[simp] theorem State.setSys_epoch (s : State) (k : Nat) (v : SysCore) : (s.setSys k v).epoch = s.epoch := rfl
@[simp] theorem State.setSys_recasts (s : State) (k : Nat) (v : SysCore) : (s.setSys k v).recasts = s.recasts := rfl
@[simp] theorem State.setSys_recastCode (s : State) (k : Nat) (v : SysCore) : (s.setSys k v).recastCode = s.recastCode := rfl
@[simp] theorem State.setSys_noticeSerial (s : State) (k : Nat) (v : SysCore) : (s.setSys k v).noticeSerial = s.noticeSerial := rfl
@[simp] theorem State.setSys_leases (s : State) (k : Nat) (v : SysCore) : (s.setSys k v).leases = s.leases := rfl
@[simp] theorem State.setSys_windows (s : State) (k : Nat) (v : SysCore) : (s.setSys k v).windows = s.windows := rfl
@[simp] theorem State.setSys_census (s : State) (k : Nat) (v : SysCore) : (s.setSys k v).census = s.census := rfl
@[simp] theorem State.setSys_conts (s : State) (k : Nat) (v : SysCore) : (s.setSys k v).conts = s.conts := rfl
@[simp] theorem State.setSys_hubHeld (s : State) (k : Nat) (v : SysCore) : (s.setSys k v).hubHeld = s.hubHeld := rfl
@[simp] theorem State.setSys_pan (s : State) (k : Nat) (v : SysCore) : (s.setSys k v).pan = s.pan := rfl
@[simp] theorem State.setSys_flying (s : State) (k : Nat) (v : SysCore) : (s.setSys k v).flying = s.flying := rfl
@[simp] theorem State.setSys_arrived (s : State) (k : Nat) (v : SysCore) : (s.setSys k v).arrived = s.arrived := rfl
@[simp] theorem State.setSys_launches (s : State) (k : Nat) (v : SysCore) : (s.setSys k v).launches = s.launches := rfl
@[simp] theorem State.setSys_gens (s : State) (k : Nat) (v : SysCore) : (s.setSys k v).gens = s.gens := rfl
@[simp] theorem State.setSys_pool (s : State) (k : Nat) (v : SysCore) : (s.setSys k v).pool = s.pool := rfl
@[simp] theorem State.setSys_admission (s : State) (k : Nat) (v : SysCore) : (s.setSys k v).admission = s.admission := rfl
@[simp] theorem State.setSys_joins (s : State) (k : Nat) (v : SysCore) : (s.setSys k v).joins = s.joins := rfl
@[simp] theorem State.setSys_rackDue (s : State) (k : Nat) (v : SysCore) : (s.setSys k v).rackDue = s.rackDue := rfl
@[simp] theorem State.setSys_ready (s : State) (k : Nat) (v : SysCore) : (s.setSys k v).ready = s.ready := rfl
@[simp] theorem State.setSys_moves (s : State) (k : Nat) (v : SysCore) : (s.setSys k v).moves = s.moves := rfl
@[simp] theorem State.setSys_pageMoves (s : State) (k : Nat) (v : SysCore) : (s.setSys k v).pageMoves = s.pageMoves := rfl
@[simp] theorem State.setSys_walks (s : State) (k : Nat) (v : SysCore) : (s.setSys k v).walks = s.walks := rfl
@[simp] theorem State.setSys_pools (s : State) (k : Nat) (v : SysCore) : (s.setSys k v).pools = s.pools := rfl
@[simp] theorem State.setSys_freeFrames (s : State) (k : Nat) (v : SysCore) : (s.setSys k v).freeFrames = s.freeFrames := rfl
@[simp] theorem State.setSys_lostPages (s : State) (k : Nat) (v : SysCore) : (s.setSys k v).lostPages = s.lostPages := rfl
@[simp] theorem State.setSys_chains (s : State) (k : Nat) (v : SysCore) : (s.setSys k v).chains = s.chains := rfl
@[simp] theorem State.setSys_mcasts (s : State) (k : Nat) (v : SysCore) : (s.setSys k v).mcasts = s.mcasts := rfl
@[simp] theorem State.setSys_copies (s : State) (k : Nat) (v : SysCore) : (s.setSys k v).copies = s.copies := rfl
@[simp] theorem State.setSys_scans (s : State) (k : Nat) (v : SysCore) : (s.setSys k v).scans = s.scans := rfl
@[simp] theorem State.setSys_power (s : State) (k : Nat) (v : SysCore) : (s.setSys k v).power = s.power := rfl
@[simp] theorem State.setSys_sys (s : State) (k : Nat) (v : SysCore) : (s.setSys k v).sys = s.sys.set k v {} := rfl
@[simp] theorem State.setSys_trapq (s : State) (k : Nat) (v : SysCore) : (s.setSys k v).trapq = s.trapq := rfl
@[simp] theorem State.setSys_orphans (s : State) (k : Nat) (v : SysCore) : (s.setSys k v).orphans = s.orphans := rfl
@[simp] theorem State.setSys_kills (s : State) (k : Nat) (v : SysCore) : (s.setSys k v).kills = s.kills := rfl
@[simp] theorem State.setSys_reports (s : State) (k : Nat) (v : SysCore) : (s.setSys k v).reports = s.reports := rfl
@[simp] theorem State.setSys_kreserved (s : State) (k : Nat) (v : SysCore) : (s.setSys k v).kreserved = s.kreserved := rfl
@[simp] theorem State.setSys_kreservedLocked (s : State) (k : Nat) (v : SysCore) : (s.setSys k v).kreservedLocked = s.kreservedLocked := rfl
@[simp] theorem State.setSys_enqTlb (s : State) (k : Nat) (v : SysCore) : (s.setSys k v).enqTlb = s.enqTlb := rfl
@[simp] theorem State.setSys_host (s : State) (k : Nat) (v : SysCore) : (s.setSys k v).host = s.host := rfl
@[simp] theorem State.setSys_freeze (s : State) (k : Nat) (v : SysCore) : (s.setSys k v).freeze = s.freeze := rfl
@[simp] theorem State.setSys_images (s : State) (k : Nat) (v : SysCore) : (s.setSys k v).images = s.images := rfl

/-! ## `State.setRole` -/

@[simp] theorem State.setRole_time (s : State) (k : Nat) (v : Word) : (s.setRole k v).time = s.time := rfl
@[simp] theorem State.setRole_cur (s : State) (k : Nat) (v : Word) : (s.setRole k v).cur = s.cur := rfl
@[simp] theorem State.setRole_inputs (s : State) (k : Nat) (v : Word) : (s.setRole k v).inputs = s.inputs := rfl
@[simp] theorem State.setRole_args (s : State) (k : Nat) (v : Word) : (s.setRole k v).args = s.args := rfl
@[simp] theorem State.setRole_vecTurn (s : State) (k : Nat) (v : Word) : (s.setRole k v).vecTurn = s.vecTurn := rfl
@[simp] theorem State.setRole_late (s : State) (k : Nat) (v : Word) : (s.setRole k v).late = s.late := rfl
@[simp] theorem State.setRole_fresh (s : State) (k : Nat) (v : Word) : (s.setRole k v).fresh = s.fresh := rfl
@[simp] theorem State.setRole_nextUid (s : State) (k : Nat) (v : Word) : (s.setRole k v).nextUid = s.nextUid := rfl
@[simp] theorem State.setRole_nextId (s : State) (k : Nat) (v : Word) : (s.setRole k v).nextId = s.nextId := rfl
@[simp] theorem State.setRole_mem (s : State) (k : Nat) (v : Word) : (s.setRole k v).mem = s.mem := rfl
@[simp] theorem State.setRole_unseen (s : State) (k : Nat) (v : Word) : (s.setRole k v).unseen = s.unseen := rfl
@[simp] theorem State.setRole_tags (s : State) (k : Nat) (v : Word) : (s.setRole k v).tags = s.tags := rfl
@[simp] theorem State.setRole_closed (s : State) (k : Nat) (v : Word) : (s.setRole k v).closed = s.closed := rfl
@[simp] theorem State.setRole_locks (s : State) (k : Nat) (v : Word) : (s.setRole k v).locks = s.locks := rfl
@[simp] theorem State.setRole_badLines (s : State) (k : Nat) (v : Word) : (s.setRole k v).badLines = s.badLines := rfl
@[simp] theorem State.setRole_flights (s : State) (k : Nat) (v : Word) : (s.setRole k v).flights = s.flights := rfl
@[simp] theorem State.setRole_slots (s : State) (k : Nat) (v : Word) : (s.setRole k v).slots = s.slots := rfl
@[simp] theorem State.setRole_cores (s : State) (k : Nat) (v : Word) : (s.setRole k v).cores = s.cores := rfl
@[simp] theorem State.setRole_tiles (s : State) (k : Nat) (v : Word) : (s.setRole k v).tiles = s.tiles := rfl
@[simp] theorem State.setRole_subs (s : State) (k : Nat) (v : Word) : (s.setRole k v).subs = s.subs := rfl
@[simp] theorem State.setRole_quads (s : State) (k : Nat) (v : Word) : (s.setRole k v).quads = s.quads := rfl
@[simp] theorem State.setRole_banks (s : State) (k : Nat) (v : Word) : (s.setRole k v).banks = s.banks := rfl
@[simp] theorem State.setRole_roles (s : State) (k : Nat) (v : Word) : (s.setRole k v).roles = s.roles.set k v 0 := rfl
@[simp] theorem State.setRole_absentHubs (s : State) (k : Nat) (v : Word) : (s.setRole k v).absentHubs = s.absentHubs := rfl
@[simp] theorem State.setRole_epoch (s : State) (k : Nat) (v : Word) : (s.setRole k v).epoch = s.epoch := rfl
@[simp] theorem State.setRole_recasts (s : State) (k : Nat) (v : Word) : (s.setRole k v).recasts = s.recasts := rfl
@[simp] theorem State.setRole_recastCode (s : State) (k : Nat) (v : Word) : (s.setRole k v).recastCode = s.recastCode := rfl
@[simp] theorem State.setRole_noticeSerial (s : State) (k : Nat) (v : Word) : (s.setRole k v).noticeSerial = s.noticeSerial := rfl
@[simp] theorem State.setRole_leases (s : State) (k : Nat) (v : Word) : (s.setRole k v).leases = s.leases := rfl
@[simp] theorem State.setRole_windows (s : State) (k : Nat) (v : Word) : (s.setRole k v).windows = s.windows := rfl
@[simp] theorem State.setRole_census (s : State) (k : Nat) (v : Word) : (s.setRole k v).census = s.census := rfl
@[simp] theorem State.setRole_conts (s : State) (k : Nat) (v : Word) : (s.setRole k v).conts = s.conts := rfl
@[simp] theorem State.setRole_hubHeld (s : State) (k : Nat) (v : Word) : (s.setRole k v).hubHeld = s.hubHeld := rfl
@[simp] theorem State.setRole_pan (s : State) (k : Nat) (v : Word) : (s.setRole k v).pan = s.pan := rfl
@[simp] theorem State.setRole_flying (s : State) (k : Nat) (v : Word) : (s.setRole k v).flying = s.flying := rfl
@[simp] theorem State.setRole_arrived (s : State) (k : Nat) (v : Word) : (s.setRole k v).arrived = s.arrived := rfl
@[simp] theorem State.setRole_launches (s : State) (k : Nat) (v : Word) : (s.setRole k v).launches = s.launches := rfl
@[simp] theorem State.setRole_gens (s : State) (k : Nat) (v : Word) : (s.setRole k v).gens = s.gens := rfl
@[simp] theorem State.setRole_pool (s : State) (k : Nat) (v : Word) : (s.setRole k v).pool = s.pool := rfl
@[simp] theorem State.setRole_admission (s : State) (k : Nat) (v : Word) : (s.setRole k v).admission = s.admission := rfl
@[simp] theorem State.setRole_joins (s : State) (k : Nat) (v : Word) : (s.setRole k v).joins = s.joins := rfl
@[simp] theorem State.setRole_rackDue (s : State) (k : Nat) (v : Word) : (s.setRole k v).rackDue = s.rackDue := rfl
@[simp] theorem State.setRole_ready (s : State) (k : Nat) (v : Word) : (s.setRole k v).ready = s.ready := rfl
@[simp] theorem State.setRole_moves (s : State) (k : Nat) (v : Word) : (s.setRole k v).moves = s.moves := rfl
@[simp] theorem State.setRole_pageMoves (s : State) (k : Nat) (v : Word) : (s.setRole k v).pageMoves = s.pageMoves := rfl
@[simp] theorem State.setRole_walks (s : State) (k : Nat) (v : Word) : (s.setRole k v).walks = s.walks := rfl
@[simp] theorem State.setRole_pools (s : State) (k : Nat) (v : Word) : (s.setRole k v).pools = s.pools := rfl
@[simp] theorem State.setRole_freeFrames (s : State) (k : Nat) (v : Word) : (s.setRole k v).freeFrames = s.freeFrames := rfl
@[simp] theorem State.setRole_lostPages (s : State) (k : Nat) (v : Word) : (s.setRole k v).lostPages = s.lostPages := rfl
@[simp] theorem State.setRole_chains (s : State) (k : Nat) (v : Word) : (s.setRole k v).chains = s.chains := rfl
@[simp] theorem State.setRole_mcasts (s : State) (k : Nat) (v : Word) : (s.setRole k v).mcasts = s.mcasts := rfl
@[simp] theorem State.setRole_copies (s : State) (k : Nat) (v : Word) : (s.setRole k v).copies = s.copies := rfl
@[simp] theorem State.setRole_scans (s : State) (k : Nat) (v : Word) : (s.setRole k v).scans = s.scans := rfl
@[simp] theorem State.setRole_power (s : State) (k : Nat) (v : Word) : (s.setRole k v).power = s.power := rfl
@[simp] theorem State.setRole_sys (s : State) (k : Nat) (v : Word) : (s.setRole k v).sys = s.sys := rfl
@[simp] theorem State.setRole_trapq (s : State) (k : Nat) (v : Word) : (s.setRole k v).trapq = s.trapq := rfl
@[simp] theorem State.setRole_orphans (s : State) (k : Nat) (v : Word) : (s.setRole k v).orphans = s.orphans := rfl
@[simp] theorem State.setRole_kills (s : State) (k : Nat) (v : Word) : (s.setRole k v).kills = s.kills := rfl
@[simp] theorem State.setRole_reports (s : State) (k : Nat) (v : Word) : (s.setRole k v).reports = s.reports := rfl
@[simp] theorem State.setRole_kreserved (s : State) (k : Nat) (v : Word) : (s.setRole k v).kreserved = s.kreserved := rfl
@[simp] theorem State.setRole_kreservedLocked (s : State) (k : Nat) (v : Word) : (s.setRole k v).kreservedLocked = s.kreservedLocked := rfl
@[simp] theorem State.setRole_enqTlb (s : State) (k : Nat) (v : Word) : (s.setRole k v).enqTlb = s.enqTlb := rfl
@[simp] theorem State.setRole_host (s : State) (k : Nat) (v : Word) : (s.setRole k v).host = s.host := rfl
@[simp] theorem State.setRole_freeze (s : State) (k : Nat) (v : Word) : (s.setRole k v).freeze = s.freeze := rfl
@[simp] theorem State.setRole_images (s : State) (k : Nat) (v : Word) : (s.setRole k v).images = s.images := rfl

/-! ## `State.setLock` -/

@[simp] theorem State.setLock_time (s : State) (k : Nat) (v : Lock) : (s.setLock k v).time = s.time := rfl
@[simp] theorem State.setLock_cur (s : State) (k : Nat) (v : Lock) : (s.setLock k v).cur = s.cur := rfl
@[simp] theorem State.setLock_inputs (s : State) (k : Nat) (v : Lock) : (s.setLock k v).inputs = s.inputs := rfl
@[simp] theorem State.setLock_args (s : State) (k : Nat) (v : Lock) : (s.setLock k v).args = s.args := rfl
@[simp] theorem State.setLock_vecTurn (s : State) (k : Nat) (v : Lock) : (s.setLock k v).vecTurn = s.vecTurn := rfl
@[simp] theorem State.setLock_late (s : State) (k : Nat) (v : Lock) : (s.setLock k v).late = s.late := rfl
@[simp] theorem State.setLock_fresh (s : State) (k : Nat) (v : Lock) : (s.setLock k v).fresh = s.fresh := rfl
@[simp] theorem State.setLock_nextUid (s : State) (k : Nat) (v : Lock) : (s.setLock k v).nextUid = s.nextUid := rfl
@[simp] theorem State.setLock_nextId (s : State) (k : Nat) (v : Lock) : (s.setLock k v).nextId = s.nextId := rfl
@[simp] theorem State.setLock_mem (s : State) (k : Nat) (v : Lock) : (s.setLock k v).mem = s.mem := rfl
@[simp] theorem State.setLock_unseen (s : State) (k : Nat) (v : Lock) : (s.setLock k v).unseen = s.unseen := rfl
@[simp] theorem State.setLock_tags (s : State) (k : Nat) (v : Lock) : (s.setLock k v).tags = s.tags := rfl
@[simp] theorem State.setLock_closed (s : State) (k : Nat) (v : Lock) : (s.setLock k v).closed = s.closed := rfl
@[simp] theorem State.setLock_locks (s : State) (k : Nat) (v : Lock) : (s.setLock k v).locks = s.locks.set k v {} := rfl
@[simp] theorem State.setLock_badLines (s : State) (k : Nat) (v : Lock) : (s.setLock k v).badLines = s.badLines := rfl
@[simp] theorem State.setLock_flights (s : State) (k : Nat) (v : Lock) : (s.setLock k v).flights = s.flights := rfl
@[simp] theorem State.setLock_slots (s : State) (k : Nat) (v : Lock) : (s.setLock k v).slots = s.slots := rfl
@[simp] theorem State.setLock_cores (s : State) (k : Nat) (v : Lock) : (s.setLock k v).cores = s.cores := rfl
@[simp] theorem State.setLock_tiles (s : State) (k : Nat) (v : Lock) : (s.setLock k v).tiles = s.tiles := rfl
@[simp] theorem State.setLock_subs (s : State) (k : Nat) (v : Lock) : (s.setLock k v).subs = s.subs := rfl
@[simp] theorem State.setLock_quads (s : State) (k : Nat) (v : Lock) : (s.setLock k v).quads = s.quads := rfl
@[simp] theorem State.setLock_banks (s : State) (k : Nat) (v : Lock) : (s.setLock k v).banks = s.banks := rfl
@[simp] theorem State.setLock_roles (s : State) (k : Nat) (v : Lock) : (s.setLock k v).roles = s.roles := rfl
@[simp] theorem State.setLock_absentHubs (s : State) (k : Nat) (v : Lock) : (s.setLock k v).absentHubs = s.absentHubs := rfl
@[simp] theorem State.setLock_epoch (s : State) (k : Nat) (v : Lock) : (s.setLock k v).epoch = s.epoch := rfl
@[simp] theorem State.setLock_recasts (s : State) (k : Nat) (v : Lock) : (s.setLock k v).recasts = s.recasts := rfl
@[simp] theorem State.setLock_recastCode (s : State) (k : Nat) (v : Lock) : (s.setLock k v).recastCode = s.recastCode := rfl
@[simp] theorem State.setLock_noticeSerial (s : State) (k : Nat) (v : Lock) : (s.setLock k v).noticeSerial = s.noticeSerial := rfl
@[simp] theorem State.setLock_leases (s : State) (k : Nat) (v : Lock) : (s.setLock k v).leases = s.leases := rfl
@[simp] theorem State.setLock_windows (s : State) (k : Nat) (v : Lock) : (s.setLock k v).windows = s.windows := rfl
@[simp] theorem State.setLock_census (s : State) (k : Nat) (v : Lock) : (s.setLock k v).census = s.census := rfl
@[simp] theorem State.setLock_conts (s : State) (k : Nat) (v : Lock) : (s.setLock k v).conts = s.conts := rfl
@[simp] theorem State.setLock_hubHeld (s : State) (k : Nat) (v : Lock) : (s.setLock k v).hubHeld = s.hubHeld := rfl
@[simp] theorem State.setLock_pan (s : State) (k : Nat) (v : Lock) : (s.setLock k v).pan = s.pan := rfl
@[simp] theorem State.setLock_flying (s : State) (k : Nat) (v : Lock) : (s.setLock k v).flying = s.flying := rfl
@[simp] theorem State.setLock_arrived (s : State) (k : Nat) (v : Lock) : (s.setLock k v).arrived = s.arrived := rfl
@[simp] theorem State.setLock_launches (s : State) (k : Nat) (v : Lock) : (s.setLock k v).launches = s.launches := rfl
@[simp] theorem State.setLock_gens (s : State) (k : Nat) (v : Lock) : (s.setLock k v).gens = s.gens := rfl
@[simp] theorem State.setLock_pool (s : State) (k : Nat) (v : Lock) : (s.setLock k v).pool = s.pool := rfl
@[simp] theorem State.setLock_admission (s : State) (k : Nat) (v : Lock) : (s.setLock k v).admission = s.admission := rfl
@[simp] theorem State.setLock_joins (s : State) (k : Nat) (v : Lock) : (s.setLock k v).joins = s.joins := rfl
@[simp] theorem State.setLock_rackDue (s : State) (k : Nat) (v : Lock) : (s.setLock k v).rackDue = s.rackDue := rfl
@[simp] theorem State.setLock_ready (s : State) (k : Nat) (v : Lock) : (s.setLock k v).ready = s.ready := rfl
@[simp] theorem State.setLock_moves (s : State) (k : Nat) (v : Lock) : (s.setLock k v).moves = s.moves := rfl
@[simp] theorem State.setLock_pageMoves (s : State) (k : Nat) (v : Lock) : (s.setLock k v).pageMoves = s.pageMoves := rfl
@[simp] theorem State.setLock_walks (s : State) (k : Nat) (v : Lock) : (s.setLock k v).walks = s.walks := rfl
@[simp] theorem State.setLock_pools (s : State) (k : Nat) (v : Lock) : (s.setLock k v).pools = s.pools := rfl
@[simp] theorem State.setLock_freeFrames (s : State) (k : Nat) (v : Lock) : (s.setLock k v).freeFrames = s.freeFrames := rfl
@[simp] theorem State.setLock_lostPages (s : State) (k : Nat) (v : Lock) : (s.setLock k v).lostPages = s.lostPages := rfl
@[simp] theorem State.setLock_chains (s : State) (k : Nat) (v : Lock) : (s.setLock k v).chains = s.chains := rfl
@[simp] theorem State.setLock_mcasts (s : State) (k : Nat) (v : Lock) : (s.setLock k v).mcasts = s.mcasts := rfl
@[simp] theorem State.setLock_copies (s : State) (k : Nat) (v : Lock) : (s.setLock k v).copies = s.copies := rfl
@[simp] theorem State.setLock_scans (s : State) (k : Nat) (v : Lock) : (s.setLock k v).scans = s.scans := rfl
@[simp] theorem State.setLock_power (s : State) (k : Nat) (v : Lock) : (s.setLock k v).power = s.power := rfl
@[simp] theorem State.setLock_sys (s : State) (k : Nat) (v : Lock) : (s.setLock k v).sys = s.sys := rfl
@[simp] theorem State.setLock_trapq (s : State) (k : Nat) (v : Lock) : (s.setLock k v).trapq = s.trapq := rfl
@[simp] theorem State.setLock_orphans (s : State) (k : Nat) (v : Lock) : (s.setLock k v).orphans = s.orphans := rfl
@[simp] theorem State.setLock_kills (s : State) (k : Nat) (v : Lock) : (s.setLock k v).kills = s.kills := rfl
@[simp] theorem State.setLock_reports (s : State) (k : Nat) (v : Lock) : (s.setLock k v).reports = s.reports := rfl
@[simp] theorem State.setLock_kreserved (s : State) (k : Nat) (v : Lock) : (s.setLock k v).kreserved = s.kreserved := rfl
@[simp] theorem State.setLock_kreservedLocked (s : State) (k : Nat) (v : Lock) : (s.setLock k v).kreservedLocked = s.kreservedLocked := rfl
@[simp] theorem State.setLock_enqTlb (s : State) (k : Nat) (v : Lock) : (s.setLock k v).enqTlb = s.enqTlb := rfl
@[simp] theorem State.setLock_host (s : State) (k : Nat) (v : Lock) : (s.setLock k v).host = s.host := rfl
@[simp] theorem State.setLock_freeze (s : State) (k : Nat) (v : Lock) : (s.setLock k v).freeze = s.freeze := rfl
@[simp] theorem State.setLock_images (s : State) (k : Nat) (v : Lock) : (s.setLock k v).images = s.images := rfl

/-! ## `State.setLaunch` -/

@[simp] theorem State.setLaunch_time (s : State) (k : Nat) (v : Launch) : (s.setLaunch k v).time = s.time := rfl
@[simp] theorem State.setLaunch_cur (s : State) (k : Nat) (v : Launch) : (s.setLaunch k v).cur = s.cur := rfl
@[simp] theorem State.setLaunch_inputs (s : State) (k : Nat) (v : Launch) : (s.setLaunch k v).inputs = s.inputs := rfl
@[simp] theorem State.setLaunch_args (s : State) (k : Nat) (v : Launch) : (s.setLaunch k v).args = s.args := rfl
@[simp] theorem State.setLaunch_vecTurn (s : State) (k : Nat) (v : Launch) : (s.setLaunch k v).vecTurn = s.vecTurn := rfl
@[simp] theorem State.setLaunch_late (s : State) (k : Nat) (v : Launch) : (s.setLaunch k v).late = s.late := rfl
@[simp] theorem State.setLaunch_fresh (s : State) (k : Nat) (v : Launch) : (s.setLaunch k v).fresh = s.fresh := rfl
@[simp] theorem State.setLaunch_nextUid (s : State) (k : Nat) (v : Launch) : (s.setLaunch k v).nextUid = s.nextUid := rfl
@[simp] theorem State.setLaunch_nextId (s : State) (k : Nat) (v : Launch) : (s.setLaunch k v).nextId = s.nextId := rfl
@[simp] theorem State.setLaunch_mem (s : State) (k : Nat) (v : Launch) : (s.setLaunch k v).mem = s.mem := rfl
@[simp] theorem State.setLaunch_unseen (s : State) (k : Nat) (v : Launch) : (s.setLaunch k v).unseen = s.unseen := rfl
@[simp] theorem State.setLaunch_tags (s : State) (k : Nat) (v : Launch) : (s.setLaunch k v).tags = s.tags := rfl
@[simp] theorem State.setLaunch_closed (s : State) (k : Nat) (v : Launch) : (s.setLaunch k v).closed = s.closed := rfl
@[simp] theorem State.setLaunch_locks (s : State) (k : Nat) (v : Launch) : (s.setLaunch k v).locks = s.locks := rfl
@[simp] theorem State.setLaunch_badLines (s : State) (k : Nat) (v : Launch) : (s.setLaunch k v).badLines = s.badLines := rfl
@[simp] theorem State.setLaunch_flights (s : State) (k : Nat) (v : Launch) : (s.setLaunch k v).flights = s.flights := rfl
@[simp] theorem State.setLaunch_slots (s : State) (k : Nat) (v : Launch) : (s.setLaunch k v).slots = s.slots := rfl
@[simp] theorem State.setLaunch_cores (s : State) (k : Nat) (v : Launch) : (s.setLaunch k v).cores = s.cores := rfl
@[simp] theorem State.setLaunch_tiles (s : State) (k : Nat) (v : Launch) : (s.setLaunch k v).tiles = s.tiles := rfl
@[simp] theorem State.setLaunch_subs (s : State) (k : Nat) (v : Launch) : (s.setLaunch k v).subs = s.subs := rfl
@[simp] theorem State.setLaunch_quads (s : State) (k : Nat) (v : Launch) : (s.setLaunch k v).quads = s.quads := rfl
@[simp] theorem State.setLaunch_banks (s : State) (k : Nat) (v : Launch) : (s.setLaunch k v).banks = s.banks := rfl
@[simp] theorem State.setLaunch_roles (s : State) (k : Nat) (v : Launch) : (s.setLaunch k v).roles = s.roles := rfl
@[simp] theorem State.setLaunch_absentHubs (s : State) (k : Nat) (v : Launch) : (s.setLaunch k v).absentHubs = s.absentHubs := rfl
@[simp] theorem State.setLaunch_epoch (s : State) (k : Nat) (v : Launch) : (s.setLaunch k v).epoch = s.epoch := rfl
@[simp] theorem State.setLaunch_recasts (s : State) (k : Nat) (v : Launch) : (s.setLaunch k v).recasts = s.recasts := rfl
@[simp] theorem State.setLaunch_recastCode (s : State) (k : Nat) (v : Launch) : (s.setLaunch k v).recastCode = s.recastCode := rfl
@[simp] theorem State.setLaunch_noticeSerial (s : State) (k : Nat) (v : Launch) : (s.setLaunch k v).noticeSerial = s.noticeSerial := rfl
@[simp] theorem State.setLaunch_leases (s : State) (k : Nat) (v : Launch) : (s.setLaunch k v).leases = s.leases := rfl
@[simp] theorem State.setLaunch_windows (s : State) (k : Nat) (v : Launch) : (s.setLaunch k v).windows = s.windows := rfl
@[simp] theorem State.setLaunch_census (s : State) (k : Nat) (v : Launch) : (s.setLaunch k v).census = s.census := rfl
@[simp] theorem State.setLaunch_conts (s : State) (k : Nat) (v : Launch) : (s.setLaunch k v).conts = s.conts := rfl
@[simp] theorem State.setLaunch_hubHeld (s : State) (k : Nat) (v : Launch) : (s.setLaunch k v).hubHeld = s.hubHeld := rfl
@[simp] theorem State.setLaunch_pan (s : State) (k : Nat) (v : Launch) : (s.setLaunch k v).pan = s.pan := rfl
@[simp] theorem State.setLaunch_flying (s : State) (k : Nat) (v : Launch) : (s.setLaunch k v).flying = s.flying := rfl
@[simp] theorem State.setLaunch_arrived (s : State) (k : Nat) (v : Launch) : (s.setLaunch k v).arrived = s.arrived := rfl
@[simp] theorem State.setLaunch_launches (s : State) (k : Nat) (v : Launch) : (s.setLaunch k v).launches = s.launches.insert k v := rfl
@[simp] theorem State.setLaunch_gens (s : State) (k : Nat) (v : Launch) : (s.setLaunch k v).gens = s.gens := rfl
@[simp] theorem State.setLaunch_pool (s : State) (k : Nat) (v : Launch) : (s.setLaunch k v).pool = s.pool := rfl
@[simp] theorem State.setLaunch_admission (s : State) (k : Nat) (v : Launch) : (s.setLaunch k v).admission = s.admission := rfl
@[simp] theorem State.setLaunch_joins (s : State) (k : Nat) (v : Launch) : (s.setLaunch k v).joins = s.joins := rfl
@[simp] theorem State.setLaunch_rackDue (s : State) (k : Nat) (v : Launch) : (s.setLaunch k v).rackDue = s.rackDue := rfl
@[simp] theorem State.setLaunch_ready (s : State) (k : Nat) (v : Launch) : (s.setLaunch k v).ready = s.ready := rfl
@[simp] theorem State.setLaunch_moves (s : State) (k : Nat) (v : Launch) : (s.setLaunch k v).moves = s.moves := rfl
@[simp] theorem State.setLaunch_pageMoves (s : State) (k : Nat) (v : Launch) : (s.setLaunch k v).pageMoves = s.pageMoves := rfl
@[simp] theorem State.setLaunch_walks (s : State) (k : Nat) (v : Launch) : (s.setLaunch k v).walks = s.walks := rfl
@[simp] theorem State.setLaunch_pools (s : State) (k : Nat) (v : Launch) : (s.setLaunch k v).pools = s.pools := rfl
@[simp] theorem State.setLaunch_freeFrames (s : State) (k : Nat) (v : Launch) : (s.setLaunch k v).freeFrames = s.freeFrames := rfl
@[simp] theorem State.setLaunch_lostPages (s : State) (k : Nat) (v : Launch) : (s.setLaunch k v).lostPages = s.lostPages := rfl
@[simp] theorem State.setLaunch_chains (s : State) (k : Nat) (v : Launch) : (s.setLaunch k v).chains = s.chains := rfl
@[simp] theorem State.setLaunch_mcasts (s : State) (k : Nat) (v : Launch) : (s.setLaunch k v).mcasts = s.mcasts := rfl
@[simp] theorem State.setLaunch_copies (s : State) (k : Nat) (v : Launch) : (s.setLaunch k v).copies = s.copies := rfl
@[simp] theorem State.setLaunch_scans (s : State) (k : Nat) (v : Launch) : (s.setLaunch k v).scans = s.scans := rfl
@[simp] theorem State.setLaunch_power (s : State) (k : Nat) (v : Launch) : (s.setLaunch k v).power = s.power := rfl
@[simp] theorem State.setLaunch_sys (s : State) (k : Nat) (v : Launch) : (s.setLaunch k v).sys = s.sys := rfl
@[simp] theorem State.setLaunch_trapq (s : State) (k : Nat) (v : Launch) : (s.setLaunch k v).trapq = s.trapq := rfl
@[simp] theorem State.setLaunch_orphans (s : State) (k : Nat) (v : Launch) : (s.setLaunch k v).orphans = s.orphans := rfl
@[simp] theorem State.setLaunch_kills (s : State) (k : Nat) (v : Launch) : (s.setLaunch k v).kills = s.kills := rfl
@[simp] theorem State.setLaunch_reports (s : State) (k : Nat) (v : Launch) : (s.setLaunch k v).reports = s.reports := rfl
@[simp] theorem State.setLaunch_kreserved (s : State) (k : Nat) (v : Launch) : (s.setLaunch k v).kreserved = s.kreserved := rfl
@[simp] theorem State.setLaunch_kreservedLocked (s : State) (k : Nat) (v : Launch) : (s.setLaunch k v).kreservedLocked = s.kreservedLocked := rfl
@[simp] theorem State.setLaunch_enqTlb (s : State) (k : Nat) (v : Launch) : (s.setLaunch k v).enqTlb = s.enqTlb := rfl
@[simp] theorem State.setLaunch_host (s : State) (k : Nat) (v : Launch) : (s.setLaunch k v).host = s.host := rfl
@[simp] theorem State.setLaunch_freeze (s : State) (k : Nat) (v : Launch) : (s.setLaunch k v).freeze = s.freeze := rfl
@[simp] theorem State.setLaunch_images (s : State) (k : Nat) (v : Launch) : (s.setLaunch k v).images = s.images := rfl

/-! ## `State.tick` -/

@[simp] theorem State.tick_time (s : State) : (s.tick).time = s.time := rfl
@[simp] theorem State.tick_cur (s : State) : (s.tick).cur = s.cur := rfl
@[simp] theorem State.tick_inputs (s : State) : (s.tick).inputs = s.inputs := rfl
@[simp] theorem State.tick_args (s : State) : (s.tick).args = s.args := rfl
@[simp] theorem State.tick_vecTurn (s : State) : (s.tick).vecTurn = s.vecTurn := rfl
@[simp] theorem State.tick_late (s : State) : (s.tick).late = s.late := rfl
@[simp] theorem State.tick_fresh (s : State) : (s.tick).fresh = s.fresh + 1 := rfl
@[simp] theorem State.tick_nextUid (s : State) : (s.tick).nextUid = s.nextUid := rfl
@[simp] theorem State.tick_nextId (s : State) : (s.tick).nextId = s.nextId := rfl
@[simp] theorem State.tick_mem (s : State) : (s.tick).mem = s.mem := rfl
@[simp] theorem State.tick_unseen (s : State) : (s.tick).unseen = s.unseen := rfl
@[simp] theorem State.tick_tags (s : State) : (s.tick).tags = s.tags := rfl
@[simp] theorem State.tick_closed (s : State) : (s.tick).closed = s.closed := rfl
@[simp] theorem State.tick_locks (s : State) : (s.tick).locks = s.locks := rfl
@[simp] theorem State.tick_badLines (s : State) : (s.tick).badLines = s.badLines := rfl
@[simp] theorem State.tick_flights (s : State) : (s.tick).flights = s.flights := rfl
@[simp] theorem State.tick_slots (s : State) : (s.tick).slots = s.slots := rfl
@[simp] theorem State.tick_cores (s : State) : (s.tick).cores = s.cores := rfl
@[simp] theorem State.tick_tiles (s : State) : (s.tick).tiles = s.tiles := rfl
@[simp] theorem State.tick_subs (s : State) : (s.tick).subs = s.subs := rfl
@[simp] theorem State.tick_quads (s : State) : (s.tick).quads = s.quads := rfl
@[simp] theorem State.tick_banks (s : State) : (s.tick).banks = s.banks := rfl
@[simp] theorem State.tick_roles (s : State) : (s.tick).roles = s.roles := rfl
@[simp] theorem State.tick_absentHubs (s : State) : (s.tick).absentHubs = s.absentHubs := rfl
@[simp] theorem State.tick_epoch (s : State) : (s.tick).epoch = s.epoch := rfl
@[simp] theorem State.tick_recasts (s : State) : (s.tick).recasts = s.recasts := rfl
@[simp] theorem State.tick_recastCode (s : State) : (s.tick).recastCode = s.recastCode := rfl
@[simp] theorem State.tick_noticeSerial (s : State) : (s.tick).noticeSerial = s.noticeSerial := rfl
@[simp] theorem State.tick_leases (s : State) : (s.tick).leases = s.leases := rfl
@[simp] theorem State.tick_windows (s : State) : (s.tick).windows = s.windows := rfl
@[simp] theorem State.tick_census (s : State) : (s.tick).census = s.census := rfl
@[simp] theorem State.tick_conts (s : State) : (s.tick).conts = s.conts := rfl
@[simp] theorem State.tick_hubHeld (s : State) : (s.tick).hubHeld = s.hubHeld := rfl
@[simp] theorem State.tick_pan (s : State) : (s.tick).pan = s.pan := rfl
@[simp] theorem State.tick_flying (s : State) : (s.tick).flying = s.flying := rfl
@[simp] theorem State.tick_arrived (s : State) : (s.tick).arrived = s.arrived := rfl
@[simp] theorem State.tick_launches (s : State) : (s.tick).launches = s.launches := rfl
@[simp] theorem State.tick_gens (s : State) : (s.tick).gens = s.gens := rfl
@[simp] theorem State.tick_pool (s : State) : (s.tick).pool = s.pool := rfl
@[simp] theorem State.tick_admission (s : State) : (s.tick).admission = s.admission := rfl
@[simp] theorem State.tick_joins (s : State) : (s.tick).joins = s.joins := rfl
@[simp] theorem State.tick_rackDue (s : State) : (s.tick).rackDue = s.rackDue := rfl
@[simp] theorem State.tick_ready (s : State) : (s.tick).ready = s.ready := rfl
@[simp] theorem State.tick_moves (s : State) : (s.tick).moves = s.moves := rfl
@[simp] theorem State.tick_pageMoves (s : State) : (s.tick).pageMoves = s.pageMoves := rfl
@[simp] theorem State.tick_walks (s : State) : (s.tick).walks = s.walks := rfl
@[simp] theorem State.tick_pools (s : State) : (s.tick).pools = s.pools := rfl
@[simp] theorem State.tick_freeFrames (s : State) : (s.tick).freeFrames = s.freeFrames := rfl
@[simp] theorem State.tick_lostPages (s : State) : (s.tick).lostPages = s.lostPages := rfl
@[simp] theorem State.tick_chains (s : State) : (s.tick).chains = s.chains := rfl
@[simp] theorem State.tick_mcasts (s : State) : (s.tick).mcasts = s.mcasts := rfl
@[simp] theorem State.tick_copies (s : State) : (s.tick).copies = s.copies := rfl
@[simp] theorem State.tick_scans (s : State) : (s.tick).scans = s.scans := rfl
@[simp] theorem State.tick_power (s : State) : (s.tick).power = s.power := rfl
@[simp] theorem State.tick_sys (s : State) : (s.tick).sys = s.sys := rfl
@[simp] theorem State.tick_trapq (s : State) : (s.tick).trapq = s.trapq := rfl
@[simp] theorem State.tick_orphans (s : State) : (s.tick).orphans = s.orphans := rfl
@[simp] theorem State.tick_kills (s : State) : (s.tick).kills = s.kills := rfl
@[simp] theorem State.tick_reports (s : State) : (s.tick).reports = s.reports := rfl
@[simp] theorem State.tick_kreserved (s : State) : (s.tick).kreserved = s.kreserved := rfl
@[simp] theorem State.tick_kreservedLocked (s : State) : (s.tick).kreservedLocked = s.kreservedLocked := rfl
@[simp] theorem State.tick_enqTlb (s : State) : (s.tick).enqTlb = s.enqTlb := rfl
@[simp] theorem State.tick_host (s : State) : (s.tick).host = s.host := rfl
@[simp] theorem State.tick_freeze (s : State) : (s.tick).freeze = s.freeze := rfl
@[simp] theorem State.tick_images (s : State) : (s.tick).images = s.images := rfl

/-! ## The accessors after an update -/

@[simp] theorem State.setSlot_slotAt_same (s : State) (k : Nat) (v : Slot) : (s.setSlot k v).slotAt k = v :=
  Map.get_set_same s.slots k v _

theorem State.setSlot_slotAt_ne (s : State) (j k : Nat) (v : Slot) (h : j ≠ k) : (s.setSlot k v).slotAt j = s.slotAt j :=
  Map.get_set_ne s.slots v _ h

@[simp] theorem State.setCore_coreAt_same (s : State) (k : Nat) (v : Core) : (s.setCore k v).coreAt k = v :=
  Map.get_set_same s.cores k v _

theorem State.setCore_coreAt_ne (s : State) (j k : Nat) (v : Core) (h : j ≠ k) : (s.setCore k v).coreAt j = s.coreAt j :=
  Map.get_set_ne s.cores v _ h

@[simp] theorem State.setTile_tileAt_same (s : State) (k : Nat) (v : Tile) : (s.setTile k v).tileAt k = v :=
  Map.get_set_same s.tiles k v _

theorem State.setTile_tileAt_ne (s : State) (j k : Nat) (v : Tile) (h : j ≠ k) : (s.setTile k v).tileAt j = s.tileAt j :=
  Map.get_set_ne s.tiles v _ h

@[simp] theorem State.setQuad_quadAt_same (s : State) (k : Nat) (v : Quad) : (s.setQuad k v).quadAt k = v :=
  Map.get_set_same s.quads k v _

theorem State.setQuad_quadAt_ne (s : State) (j k : Nat) (v : Quad) (h : j ≠ k) : (s.setQuad k v).quadAt j = s.quadAt j :=
  Map.get_set_ne s.quads v _ h

@[simp] theorem State.setBank_bankAt_same (s : State) (k : Nat) (v : Bank) : (s.setBank k v).bankAt k = v :=
  Map.get_set_same s.banks k v _

theorem State.setBank_bankAt_ne (s : State) (j k : Nat) (v : Bank) (h : j ≠ k) : (s.setBank k v).bankAt j = s.bankAt j :=
  Map.get_set_ne s.banks v _ h

@[simp] theorem State.setSys_sysAt_same (s : State) (k : Nat) (v : SysCore) : (s.setSys k v).sysAt k = v :=
  Map.get_set_same s.sys k v _

theorem State.setSys_sysAt_ne (s : State) (j k : Nat) (v : SysCore) (h : j ≠ k) : (s.setSys k v).sysAt j = s.sysAt j :=
  Map.get_set_ne s.sys v _ h

@[simp] theorem State.setRole_roleOf_same (s : State) (k : Nat) (v : Word) : (s.setRole k v).roleOf k = v :=
  Map.get_set_same s.roles k v _

theorem State.setRole_roleOf_ne (s : State) (j k : Nat) (v : Word) (h : j ≠ k) : (s.setRole k v).roleOf j = s.roleOf j :=
  Map.get_set_ne s.roles v _ h

@[simp] theorem State.setLock_lockAt_same (s : State) (k : Nat) (v : Lock) : (s.setLock k v).lockAt k = v :=
  Map.get_set_same s.locks k v _

theorem State.setLock_lockAt_ne (s : State) (j k : Nat) (v : Lock) (h : j ≠ k) : (s.setLock k v).lockAt j = s.lockAt j :=
  Map.get_set_ne s.locks v _ h

@[simp] theorem State.setSlot_coreAt (s : State) (j k : Nat) (v : Slot) : (s.setSlot k v).coreAt j = s.coreAt j := rfl
@[simp] theorem State.setSlot_tileAt (s : State) (j k : Nat) (v : Slot) : (s.setSlot k v).tileAt j = s.tileAt j := rfl
@[simp] theorem State.setSlot_quadAt (s : State) (j k : Nat) (v : Slot) : (s.setSlot k v).quadAt j = s.quadAt j := rfl
@[simp] theorem State.setSlot_bankAt (s : State) (j k : Nat) (v : Slot) : (s.setSlot k v).bankAt j = s.bankAt j := rfl
@[simp] theorem State.setSlot_sysAt (s : State) (j k : Nat) (v : Slot) : (s.setSlot k v).sysAt j = s.sysAt j := rfl
@[simp] theorem State.setSlot_roleOf (s : State) (j k : Nat) (v : Slot) : (s.setSlot k v).roleOf j = s.roleOf j := rfl
@[simp] theorem State.setSlot_lockAt (s : State) (j k : Nat) (v : Slot) : (s.setSlot k v).lockAt j = s.lockAt j := rfl
@[simp] theorem State.setCore_slotAt (s : State) (j k : Nat) (v : Core) : (s.setCore k v).slotAt j = s.slotAt j := rfl
@[simp] theorem State.setCore_tileAt (s : State) (j k : Nat) (v : Core) : (s.setCore k v).tileAt j = s.tileAt j := rfl
@[simp] theorem State.setCore_quadAt (s : State) (j k : Nat) (v : Core) : (s.setCore k v).quadAt j = s.quadAt j := rfl
@[simp] theorem State.setCore_bankAt (s : State) (j k : Nat) (v : Core) : (s.setCore k v).bankAt j = s.bankAt j := rfl
@[simp] theorem State.setCore_sysAt (s : State) (j k : Nat) (v : Core) : (s.setCore k v).sysAt j = s.sysAt j := rfl
@[simp] theorem State.setCore_roleOf (s : State) (j k : Nat) (v : Core) : (s.setCore k v).roleOf j = s.roleOf j := rfl
@[simp] theorem State.setCore_lockAt (s : State) (j k : Nat) (v : Core) : (s.setCore k v).lockAt j = s.lockAt j := rfl
@[simp] theorem State.setTile_slotAt (s : State) (j k : Nat) (v : Tile) : (s.setTile k v).slotAt j = s.slotAt j := rfl
@[simp] theorem State.setTile_coreAt (s : State) (j k : Nat) (v : Tile) : (s.setTile k v).coreAt j = s.coreAt j := rfl
@[simp] theorem State.setTile_quadAt (s : State) (j k : Nat) (v : Tile) : (s.setTile k v).quadAt j = s.quadAt j := rfl
@[simp] theorem State.setTile_bankAt (s : State) (j k : Nat) (v : Tile) : (s.setTile k v).bankAt j = s.bankAt j := rfl
@[simp] theorem State.setTile_sysAt (s : State) (j k : Nat) (v : Tile) : (s.setTile k v).sysAt j = s.sysAt j := rfl
@[simp] theorem State.setTile_roleOf (s : State) (j k : Nat) (v : Tile) : (s.setTile k v).roleOf j = s.roleOf j := rfl
@[simp] theorem State.setTile_lockAt (s : State) (j k : Nat) (v : Tile) : (s.setTile k v).lockAt j = s.lockAt j := rfl
@[simp] theorem State.setQuad_slotAt (s : State) (j k : Nat) (v : Quad) : (s.setQuad k v).slotAt j = s.slotAt j := rfl
@[simp] theorem State.setQuad_coreAt (s : State) (j k : Nat) (v : Quad) : (s.setQuad k v).coreAt j = s.coreAt j := rfl
@[simp] theorem State.setQuad_tileAt (s : State) (j k : Nat) (v : Quad) : (s.setQuad k v).tileAt j = s.tileAt j := rfl
@[simp] theorem State.setQuad_bankAt (s : State) (j k : Nat) (v : Quad) : (s.setQuad k v).bankAt j = s.bankAt j := rfl
@[simp] theorem State.setQuad_sysAt (s : State) (j k : Nat) (v : Quad) : (s.setQuad k v).sysAt j = s.sysAt j := rfl
@[simp] theorem State.setQuad_roleOf (s : State) (j k : Nat) (v : Quad) : (s.setQuad k v).roleOf j = s.roleOf j := rfl
@[simp] theorem State.setQuad_lockAt (s : State) (j k : Nat) (v : Quad) : (s.setQuad k v).lockAt j = s.lockAt j := rfl
@[simp] theorem State.setBank_slotAt (s : State) (j k : Nat) (v : Bank) : (s.setBank k v).slotAt j = s.slotAt j := rfl
@[simp] theorem State.setBank_coreAt (s : State) (j k : Nat) (v : Bank) : (s.setBank k v).coreAt j = s.coreAt j := rfl
@[simp] theorem State.setBank_tileAt (s : State) (j k : Nat) (v : Bank) : (s.setBank k v).tileAt j = s.tileAt j := rfl
@[simp] theorem State.setBank_quadAt (s : State) (j k : Nat) (v : Bank) : (s.setBank k v).quadAt j = s.quadAt j := rfl
@[simp] theorem State.setBank_sysAt (s : State) (j k : Nat) (v : Bank) : (s.setBank k v).sysAt j = s.sysAt j := rfl
@[simp] theorem State.setBank_roleOf (s : State) (j k : Nat) (v : Bank) : (s.setBank k v).roleOf j = s.roleOf j := rfl
@[simp] theorem State.setBank_lockAt (s : State) (j k : Nat) (v : Bank) : (s.setBank k v).lockAt j = s.lockAt j := rfl
@[simp] theorem State.setSys_slotAt (s : State) (j k : Nat) (v : SysCore) : (s.setSys k v).slotAt j = s.slotAt j := rfl
@[simp] theorem State.setSys_coreAt (s : State) (j k : Nat) (v : SysCore) : (s.setSys k v).coreAt j = s.coreAt j := rfl
@[simp] theorem State.setSys_tileAt (s : State) (j k : Nat) (v : SysCore) : (s.setSys k v).tileAt j = s.tileAt j := rfl
@[simp] theorem State.setSys_quadAt (s : State) (j k : Nat) (v : SysCore) : (s.setSys k v).quadAt j = s.quadAt j := rfl
@[simp] theorem State.setSys_bankAt (s : State) (j k : Nat) (v : SysCore) : (s.setSys k v).bankAt j = s.bankAt j := rfl
@[simp] theorem State.setSys_roleOf (s : State) (j k : Nat) (v : SysCore) : (s.setSys k v).roleOf j = s.roleOf j := rfl
@[simp] theorem State.setSys_lockAt (s : State) (j k : Nat) (v : SysCore) : (s.setSys k v).lockAt j = s.lockAt j := rfl
@[simp] theorem State.setRole_slotAt (s : State) (j k : Nat) (v : Word) : (s.setRole k v).slotAt j = s.slotAt j := rfl
@[simp] theorem State.setRole_coreAt (s : State) (j k : Nat) (v : Word) : (s.setRole k v).coreAt j = s.coreAt j := rfl
@[simp] theorem State.setRole_tileAt (s : State) (j k : Nat) (v : Word) : (s.setRole k v).tileAt j = s.tileAt j := rfl
@[simp] theorem State.setRole_quadAt (s : State) (j k : Nat) (v : Word) : (s.setRole k v).quadAt j = s.quadAt j := rfl
@[simp] theorem State.setRole_bankAt (s : State) (j k : Nat) (v : Word) : (s.setRole k v).bankAt j = s.bankAt j := rfl
@[simp] theorem State.setRole_sysAt (s : State) (j k : Nat) (v : Word) : (s.setRole k v).sysAt j = s.sysAt j := rfl
@[simp] theorem State.setRole_lockAt (s : State) (j k : Nat) (v : Word) : (s.setRole k v).lockAt j = s.lockAt j := rfl
@[simp] theorem State.setLock_slotAt (s : State) (j k : Nat) (v : Lock) : (s.setLock k v).slotAt j = s.slotAt j := rfl
@[simp] theorem State.setLock_coreAt (s : State) (j k : Nat) (v : Lock) : (s.setLock k v).coreAt j = s.coreAt j := rfl
@[simp] theorem State.setLock_tileAt (s : State) (j k : Nat) (v : Lock) : (s.setLock k v).tileAt j = s.tileAt j := rfl
@[simp] theorem State.setLock_quadAt (s : State) (j k : Nat) (v : Lock) : (s.setLock k v).quadAt j = s.quadAt j := rfl
@[simp] theorem State.setLock_bankAt (s : State) (j k : Nat) (v : Lock) : (s.setLock k v).bankAt j = s.bankAt j := rfl
@[simp] theorem State.setLock_sysAt (s : State) (j k : Nat) (v : Lock) : (s.setLock k v).sysAt j = s.sysAt j := rfl
@[simp] theorem State.setLock_roleOf (s : State) (j k : Nat) (v : Lock) : (s.setLock k v).roleOf j = s.roleOf j := rfl

/-! ## `State.putCtx` -/

/-- The context that was put is the context read. -/
@[simp] theorem State.putCtx_ctxOf (s : State) (who : Issuer) (c : Ctx) : (s.putCtx who c).ctxOf who = some c := by
  cases who <;> simp [State.putCtx, State.ctxOf]

/-- Putting a firing's context leaves every other slot alone. -/
theorem State.putCtx_slotAt_ne (s : State) (j k : Nat) (c : Ctx) (h : j ≠ k) :
    (s.putCtx (.slot k) c).slotAt j = s.slotAt j := State.setSlot_slotAt_ne s j k _ h

@[simp] theorem State.putCtx_slotAt_same (s : State) (k : Nat) (c : Ctx) :
    (s.putCtx (.slot k) c).slotAt k = { s.slotAt k with ctx := some c } := State.setSlot_slotAt_same s k _

@[simp] theorem State.putCtx_sysAt_same (s : State) (n : Nat) (c : Ctx) :
    (s.putCtx (.sys n) c).sysAt n = { s.sysAt n with ctx := c } := State.setSys_sysAt_same s n _

@[simp] theorem State.putCtx_time (s : State) (who : Issuer) (c : Ctx) : (s.putCtx who c).time = s.time := by
  cases who <;> rfl
@[simp] theorem State.putCtx_cur (s : State) (who : Issuer) (c : Ctx) : (s.putCtx who c).cur = s.cur := by
  cases who <;> rfl
@[simp] theorem State.putCtx_inputs (s : State) (who : Issuer) (c : Ctx) : (s.putCtx who c).inputs = s.inputs := by
  cases who <;> rfl
@[simp] theorem State.putCtx_args (s : State) (who : Issuer) (c : Ctx) : (s.putCtx who c).args = s.args := by
  cases who <;> rfl
@[simp] theorem State.putCtx_vecTurn (s : State) (who : Issuer) (c : Ctx) : (s.putCtx who c).vecTurn = s.vecTurn := by
  cases who <;> rfl
@[simp] theorem State.putCtx_late (s : State) (who : Issuer) (c : Ctx) : (s.putCtx who c).late = s.late := by
  cases who <;> rfl
@[simp] theorem State.putCtx_fresh (s : State) (who : Issuer) (c : Ctx) : (s.putCtx who c).fresh = s.fresh := by
  cases who <;> rfl
@[simp] theorem State.putCtx_nextUid (s : State) (who : Issuer) (c : Ctx) : (s.putCtx who c).nextUid = s.nextUid := by
  cases who <;> rfl
@[simp] theorem State.putCtx_nextId (s : State) (who : Issuer) (c : Ctx) : (s.putCtx who c).nextId = s.nextId := by
  cases who <;> rfl
@[simp] theorem State.putCtx_mem (s : State) (who : Issuer) (c : Ctx) : (s.putCtx who c).mem = s.mem := by
  cases who <;> rfl
@[simp] theorem State.putCtx_unseen (s : State) (who : Issuer) (c : Ctx) : (s.putCtx who c).unseen = s.unseen := by
  cases who <;> rfl
@[simp] theorem State.putCtx_tags (s : State) (who : Issuer) (c : Ctx) : (s.putCtx who c).tags = s.tags := by
  cases who <;> rfl
@[simp] theorem State.putCtx_closed (s : State) (who : Issuer) (c : Ctx) : (s.putCtx who c).closed = s.closed := by
  cases who <;> rfl
@[simp] theorem State.putCtx_locks (s : State) (who : Issuer) (c : Ctx) : (s.putCtx who c).locks = s.locks := by
  cases who <;> rfl
@[simp] theorem State.putCtx_badLines (s : State) (who : Issuer) (c : Ctx) : (s.putCtx who c).badLines = s.badLines := by
  cases who <;> rfl
@[simp] theorem State.putCtx_flights (s : State) (who : Issuer) (c : Ctx) : (s.putCtx who c).flights = s.flights := by
  cases who <;> rfl
@[simp] theorem State.putCtx_cores (s : State) (who : Issuer) (c : Ctx) : (s.putCtx who c).cores = s.cores := by
  cases who <;> rfl
@[simp] theorem State.putCtx_tiles (s : State) (who : Issuer) (c : Ctx) : (s.putCtx who c).tiles = s.tiles := by
  cases who <;> rfl
@[simp] theorem State.putCtx_subs (s : State) (who : Issuer) (c : Ctx) : (s.putCtx who c).subs = s.subs := by
  cases who <;> rfl
@[simp] theorem State.putCtx_quads (s : State) (who : Issuer) (c : Ctx) : (s.putCtx who c).quads = s.quads := by
  cases who <;> rfl
@[simp] theorem State.putCtx_banks (s : State) (who : Issuer) (c : Ctx) : (s.putCtx who c).banks = s.banks := by
  cases who <;> rfl
@[simp] theorem State.putCtx_roles (s : State) (who : Issuer) (c : Ctx) : (s.putCtx who c).roles = s.roles := by
  cases who <;> rfl
@[simp] theorem State.putCtx_absentHubs (s : State) (who : Issuer) (c : Ctx) : (s.putCtx who c).absentHubs = s.absentHubs := by
  cases who <;> rfl
@[simp] theorem State.putCtx_epoch (s : State) (who : Issuer) (c : Ctx) : (s.putCtx who c).epoch = s.epoch := by
  cases who <;> rfl
@[simp] theorem State.putCtx_recasts (s : State) (who : Issuer) (c : Ctx) : (s.putCtx who c).recasts = s.recasts := by
  cases who <;> rfl
@[simp] theorem State.putCtx_recastCode (s : State) (who : Issuer) (c : Ctx) : (s.putCtx who c).recastCode = s.recastCode := by
  cases who <;> rfl
@[simp] theorem State.putCtx_noticeSerial (s : State) (who : Issuer) (c : Ctx) : (s.putCtx who c).noticeSerial = s.noticeSerial := by
  cases who <;> rfl
@[simp] theorem State.putCtx_leases (s : State) (who : Issuer) (c : Ctx) : (s.putCtx who c).leases = s.leases := by
  cases who <;> rfl
@[simp] theorem State.putCtx_windows (s : State) (who : Issuer) (c : Ctx) : (s.putCtx who c).windows = s.windows := by
  cases who <;> rfl
@[simp] theorem State.putCtx_census (s : State) (who : Issuer) (c : Ctx) : (s.putCtx who c).census = s.census := by
  cases who <;> rfl
@[simp] theorem State.putCtx_conts (s : State) (who : Issuer) (c : Ctx) : (s.putCtx who c).conts = s.conts := by
  cases who <;> rfl
@[simp] theorem State.putCtx_hubHeld (s : State) (who : Issuer) (c : Ctx) : (s.putCtx who c).hubHeld = s.hubHeld := by
  cases who <;> rfl
@[simp] theorem State.putCtx_pan (s : State) (who : Issuer) (c : Ctx) : (s.putCtx who c).pan = s.pan := by
  cases who <;> rfl
@[simp] theorem State.putCtx_flying (s : State) (who : Issuer) (c : Ctx) : (s.putCtx who c).flying = s.flying := by
  cases who <;> rfl
@[simp] theorem State.putCtx_arrived (s : State) (who : Issuer) (c : Ctx) : (s.putCtx who c).arrived = s.arrived := by
  cases who <;> rfl
@[simp] theorem State.putCtx_launches (s : State) (who : Issuer) (c : Ctx) : (s.putCtx who c).launches = s.launches := by
  cases who <;> rfl
@[simp] theorem State.putCtx_gens (s : State) (who : Issuer) (c : Ctx) : (s.putCtx who c).gens = s.gens := by
  cases who <;> rfl
@[simp] theorem State.putCtx_pool (s : State) (who : Issuer) (c : Ctx) : (s.putCtx who c).pool = s.pool := by
  cases who <;> rfl
@[simp] theorem State.putCtx_admission (s : State) (who : Issuer) (c : Ctx) : (s.putCtx who c).admission = s.admission := by
  cases who <;> rfl
@[simp] theorem State.putCtx_joins (s : State) (who : Issuer) (c : Ctx) : (s.putCtx who c).joins = s.joins := by
  cases who <;> rfl
@[simp] theorem State.putCtx_rackDue (s : State) (who : Issuer) (c : Ctx) : (s.putCtx who c).rackDue = s.rackDue := by
  cases who <;> rfl
@[simp] theorem State.putCtx_ready (s : State) (who : Issuer) (c : Ctx) : (s.putCtx who c).ready = s.ready := by
  cases who <;> rfl
@[simp] theorem State.putCtx_moves (s : State) (who : Issuer) (c : Ctx) : (s.putCtx who c).moves = s.moves := by
  cases who <;> rfl
@[simp] theorem State.putCtx_pageMoves (s : State) (who : Issuer) (c : Ctx) : (s.putCtx who c).pageMoves = s.pageMoves := by
  cases who <;> rfl
@[simp] theorem State.putCtx_walks (s : State) (who : Issuer) (c : Ctx) : (s.putCtx who c).walks = s.walks := by
  cases who <;> rfl
@[simp] theorem State.putCtx_pools (s : State) (who : Issuer) (c : Ctx) : (s.putCtx who c).pools = s.pools := by
  cases who <;> rfl
@[simp] theorem State.putCtx_freeFrames (s : State) (who : Issuer) (c : Ctx) : (s.putCtx who c).freeFrames = s.freeFrames := by
  cases who <;> rfl
@[simp] theorem State.putCtx_lostPages (s : State) (who : Issuer) (c : Ctx) : (s.putCtx who c).lostPages = s.lostPages := by
  cases who <;> rfl
@[simp] theorem State.putCtx_chains (s : State) (who : Issuer) (c : Ctx) : (s.putCtx who c).chains = s.chains := by
  cases who <;> rfl
@[simp] theorem State.putCtx_mcasts (s : State) (who : Issuer) (c : Ctx) : (s.putCtx who c).mcasts = s.mcasts := by
  cases who <;> rfl
@[simp] theorem State.putCtx_copies (s : State) (who : Issuer) (c : Ctx) : (s.putCtx who c).copies = s.copies := by
  cases who <;> rfl
@[simp] theorem State.putCtx_scans (s : State) (who : Issuer) (c : Ctx) : (s.putCtx who c).scans = s.scans := by
  cases who <;> rfl
@[simp] theorem State.putCtx_power (s : State) (who : Issuer) (c : Ctx) : (s.putCtx who c).power = s.power := by
  cases who <;> rfl
@[simp] theorem State.putCtx_trapq (s : State) (who : Issuer) (c : Ctx) : (s.putCtx who c).trapq = s.trapq := by
  cases who <;> rfl
@[simp] theorem State.putCtx_orphans (s : State) (who : Issuer) (c : Ctx) : (s.putCtx who c).orphans = s.orphans := by
  cases who <;> rfl
@[simp] theorem State.putCtx_kills (s : State) (who : Issuer) (c : Ctx) : (s.putCtx who c).kills = s.kills := by
  cases who <;> rfl
@[simp] theorem State.putCtx_reports (s : State) (who : Issuer) (c : Ctx) : (s.putCtx who c).reports = s.reports := by
  cases who <;> rfl
@[simp] theorem State.putCtx_kreserved (s : State) (who : Issuer) (c : Ctx) : (s.putCtx who c).kreserved = s.kreserved := by
  cases who <;> rfl
@[simp] theorem State.putCtx_kreservedLocked (s : State) (who : Issuer) (c : Ctx) : (s.putCtx who c).kreservedLocked = s.kreservedLocked := by
  cases who <;> rfl
@[simp] theorem State.putCtx_enqTlb (s : State) (who : Issuer) (c : Ctx) : (s.putCtx who c).enqTlb = s.enqTlb := by
  cases who <;> rfl
@[simp] theorem State.putCtx_host (s : State) (who : Issuer) (c : Ctx) : (s.putCtx who c).host = s.host := by
  cases who <;> rfl
@[simp] theorem State.putCtx_freeze (s : State) (who : Issuer) (c : Ctx) : (s.putCtx who c).freeze = s.freeze := by
  cases who <;> rfl
@[simp] theorem State.putCtx_images (s : State) (who : Issuer) (c : Ctx) : (s.putCtx who c).images = s.images := by
  cases who <;> rfl

/-! ## A context's registers -/

/-- A register reads as what was written to it, and `s0` as zero (R298). -/
theorem Ctx.setS_sreg_same (c : Ctx) (r : BitVec 5) (v : Word) : (c.setS r v).sreg r = if r = 0 then 0 else v := by
  by_cases h : r = 0
  · rw [Ctx.sreg, if_pos h, if_pos h]
  · rw [Ctx.sreg, if_neg h, if_neg h, Ctx.setS, if_neg h]; exact Map.get_set_same ..

/-- A write to `s0` is discarded (R298). -/
@[simp] theorem Ctx.setS_zero (c : Ctx) (v : Word) : c.setS 0 v = c := by simp [Ctx.setS]

@[simp] theorem Ctx.sreg_zero (c : Ctx) : c.sreg 0 = 0 := by simp [Ctx.sreg]

/-- A write to a register leaves every other register alone. -/
theorem Ctx.setS_sreg_ne (c : Ctx) {r q : BitVec 5} (v : Word) (h : q ≠ r) : (c.setS r v).sreg q = c.sreg q := by
  by_cases hr : r = 0
  · rw [Ctx.setS, if_pos hr]
  · by_cases hq : q = 0
    · rw [Ctx.sreg, if_pos hq, Ctx.sreg, if_pos hq]
    · rw [Ctx.sreg, if_neg hq, Ctx.sreg, if_neg hq, Ctx.setS, if_neg hr]
      exact Map.get_set_ne _ v 0 fun e => h (BitVec.eq_of_toNat_eq e)

/-- `m0` reads as all ones and discards writes (R298). -/
@[simp] theorem Ctx.setM_zero (c : Ctx) (v : Word) : c.setM 0 v = c := by simp [Ctx.setM]

@[simp] theorem Ctx.mask_zero (c : Ctx) : c.mask 0 = BitVec.allOnes 64 := by simp [Ctx.mask]

theorem Ctx.setM_mask_same (c : Ctx) {r : Nat} (v : Word) (h : r ≠ 0) : (c.setM r v).mask r = v := by
  simp [Ctx.setM, Ctx.mask, h, Map.get_set_same]

theorem Ctx.setV_vreg_same (c : Ctx) (r : Nat) (v : Vec) : (c.setV r v).vreg r = v := Map.get_set_same ..

theorem Ctx.setV_vreg_ne (c : Ctx) {r q : Nat} (v : Vec) (h : q ≠ r) : (c.setV r v).vreg q = c.vreg q :=
  Map.get_set_ne _ v 0 h

@[simp] theorem Ctx.setS_uid (c : Ctx) (r : BitVec 5) (v : Word) : (c.setS r v).uid = c.uid := by
  unfold Ctx.setS; split <;> rfl
@[simp] theorem Ctx.setS_launch (c : Ctx) (r : BitVec 5) (v : Word) : (c.setS r v).launch = c.launch := by
  unfold Ctx.setS; split <;> rfl
@[simp] theorem Ctx.setS_gen (c : Ctx) (r : BitVec 5) (v : Word) : (c.setS r v).gen = c.gen := by
  unfold Ctx.setS; split <;> rfl
@[simp] theorem Ctx.setS_asn (c : Ctx) (r : BitVec 5) (v : Word) : (c.setS r v).asn = c.asn := by
  unfold Ctx.setS; split <;> rfl
@[simp] theorem Ctx.setS_actor (c : Ctx) (r : BitVec 5) (v : Word) : (c.setS r v).actor = c.actor := by
  unfold Ctx.setS; split <;> rfl
@[simp] theorem Ctx.setS_kind (c : Ctx) (r : BitVec 5) (v : Word) : (c.setS r v).kind = c.kind := by
  unfold Ctx.setS; split <;> rfl
@[simp] theorem Ctx.setS_wid (c : Ctx) (r : BitVec 5) (v : Word) : (c.setS r v).wid = c.wid := by
  unfold Ctx.setS; split <;> rfl
@[simp] theorem Ctx.setS_place (c : Ctx) (r : BitVec 5) (v : Word) : (c.setS r v).place = c.place := by
  unfold Ctx.setS; split <;> rfl
@[simp] theorem Ctx.setS_prio (c : Ctx) (r : BitVec 5) (v : Word) : (c.setS r v).prio = c.prio := by
  unfold Ctx.setS; split <;> rfl
@[simp] theorem Ctx.setS_cls (c : Ctx) (r : BitVec 5) (v : Word) : (c.setS r v).cls = c.cls := by
  unfold Ctx.setS; split <;> rfl
@[simp] theorem Ctx.setS_age (c : Ctx) (r : BitVec 5) (v : Word) : (c.setS r v).age = c.age := by
  unfold Ctx.setS; split <;> rfl
@[simp] theorem Ctx.setS_pc (c : Ctx) (r : BitVec 5) (v : Word) : (c.setS r v).pc = c.pc := by
  unfold Ctx.setS; split <;> rfl
@[simp] theorem Ctx.setS_share (c : Ctx) (r : BitVec 5) (v : Word) : (c.setS r v).share = c.share := by
  unfold Ctx.setS; split <;> rfl
@[simp] theorem Ctx.setS_items (c : Ctx) (r : BitVec 5) (v : Word) : (c.setS r v).items = c.items := by
  unfold Ctx.setS; split <;> rfl
@[simp] theorem Ctx.setS_notice (c : Ctx) (r : BitVec 5) (v : Word) : (c.setS r v).notice = c.notice := by
  unfold Ctx.setS; split <;> rfl
@[simp] theorem Ctx.setS_req (c : Ctx) (r : BitVec 5) (v : Word) : (c.setS r v).req = c.req := by
  unfold Ctx.setS; split <;> rfl
@[simp] theorem Ctx.setS_boost (c : Ctx) (r : BitVec 5) (v : Word) : (c.setS r v).boost = c.boost := by
  unfold Ctx.setS; split <;> rfl
@[simp] theorem Ctx.setS_region (c : Ctx) (r : BitVec 5) (v : Word) : (c.setS r v).region = c.region := by
  unfold Ctx.setS; split <;> rfl
@[simp] theorem Ctx.setS_loads (c : Ctx) (r : BitVec 5) (v : Word) : (c.setS r v).loads = c.loads := by
  unfold Ctx.setS; split <;> rfl
@[simp] theorem Ctx.setS_touched (c : Ctx) (r : BitVec 5) (v : Word) : (c.setS r v).touched = c.touched := by
  unfold Ctx.setS; split <;> rfl
@[simp] theorem Ctx.setS_interval (c : Ctx) (r : BitVec 5) (v : Word) : (c.setS r v).interval = c.interval := by
  unfold Ctx.setS; split <;> rfl
@[simp] theorem Ctx.setS_checkedSince (c : Ctx) (r : BitVec 5) (v : Word) : (c.setS r v).checkedSince = c.checkedSince := by
  unfold Ctx.setS; split <;> rfl
@[simp] theorem Ctx.setS_seq (c : Ctx) (r : BitVec 5) (v : Word) : (c.setS r v).seq = c.seq := by
  unfold Ctx.setS; split <;> rfl
@[simp] theorem Ctx.setS_pend (c : Ctx) (r : BitVec 5) (v : Word) : (c.setS r v).pend = c.pend := by
  unfold Ctx.setS; split <;> rfl
@[simp] theorem Ctx.setS_vstream (c : Ctx) (r : BitVec 5) (v : Word) : (c.setS r v).vstream = c.vstream := by
  unfold Ctx.setS; split <;> rfl
@[simp] theorem Ctx.setS_st (c : Ctx) (r : BitVec 5) (v : Word) : (c.setS r v).st = c.st := by
  unfold Ctx.setS; split <;> rfl
@[simp] theorem Ctx.setS_verdicts (c : Ctx) (r : BitVec 5) (v : Word) : (c.setS r v).verdicts = c.verdicts := by
  unfold Ctx.setS; split <;> rfl
@[simp] theorem Ctx.setS_stalled (c : Ctx) (r : BitVec 5) (v : Word) : (c.setS r v).stalled = c.stalled := by
  unfold Ctx.setS; split <;> rfl
@[simp] theorem Ctx.setS_asyncs (c : Ctx) (r : BitVec 5) (v : Word) : (c.setS r v).asyncs = c.asyncs := by
  unfold Ctx.setS; split <;> rfl
@[simp] theorem Ctx.setS_lock (c : Ctx) (r : BitVec 5) (v : Word) : (c.setS r v).lock = c.lock := by
  unfold Ctx.setS; split <;> rfl
@[simp] theorem Ctx.setS_reserved (c : Ctx) (r : BitVec 5) (v : Word) : (c.setS r v).reserved = c.reserved := by
  unfold Ctx.setS; split <;> rfl
@[simp] theorem Ctx.setS_evHeld (c : Ctx) (r : BitVec 5) (v : Word) : (c.setS r v).evHeld = c.evHeld := by
  unfold Ctx.setS; split <;> rfl
@[simp] theorem Ctx.setS_accs (c : Ctx) (r : BitVec 5) (v : Word) : (c.setS r v).accs = c.accs := by
  unfold Ctx.setS; split <;> rfl
@[simp] theorem Ctx.setS_msg (c : Ctx) (r : BitVec 5) (v : Word) : (c.setS r v).msg = c.msg := by
  unfold Ctx.setS; split <;> rfl
@[simp] theorem Ctx.setS_trig (c : Ctx) (r : BitVec 5) (v : Word) : (c.setS r v).trig = c.trig := by
  unfold Ctx.setS; split <;> rfl
@[simp] theorem Ctx.setS_code (c : Ctx) (r : BitVec 5) (v : Word) : (c.setS r v).code = c.code := by
  unfold Ctx.setS; split <;> rfl
@[simp] theorem Ctx.setM_uid (c : Ctx) (r : Nat) (v : Word) : (c.setM r v).uid = c.uid := by
  unfold Ctx.setM; split <;> rfl
@[simp] theorem Ctx.setM_launch (c : Ctx) (r : Nat) (v : Word) : (c.setM r v).launch = c.launch := by
  unfold Ctx.setM; split <;> rfl
@[simp] theorem Ctx.setM_gen (c : Ctx) (r : Nat) (v : Word) : (c.setM r v).gen = c.gen := by
  unfold Ctx.setM; split <;> rfl
@[simp] theorem Ctx.setM_asn (c : Ctx) (r : Nat) (v : Word) : (c.setM r v).asn = c.asn := by
  unfold Ctx.setM; split <;> rfl
@[simp] theorem Ctx.setM_actor (c : Ctx) (r : Nat) (v : Word) : (c.setM r v).actor = c.actor := by
  unfold Ctx.setM; split <;> rfl
@[simp] theorem Ctx.setM_kind (c : Ctx) (r : Nat) (v : Word) : (c.setM r v).kind = c.kind := by
  unfold Ctx.setM; split <;> rfl
@[simp] theorem Ctx.setM_wid (c : Ctx) (r : Nat) (v : Word) : (c.setM r v).wid = c.wid := by
  unfold Ctx.setM; split <;> rfl
@[simp] theorem Ctx.setM_place (c : Ctx) (r : Nat) (v : Word) : (c.setM r v).place = c.place := by
  unfold Ctx.setM; split <;> rfl
@[simp] theorem Ctx.setM_prio (c : Ctx) (r : Nat) (v : Word) : (c.setM r v).prio = c.prio := by
  unfold Ctx.setM; split <;> rfl
@[simp] theorem Ctx.setM_cls (c : Ctx) (r : Nat) (v : Word) : (c.setM r v).cls = c.cls := by
  unfold Ctx.setM; split <;> rfl
@[simp] theorem Ctx.setM_age (c : Ctx) (r : Nat) (v : Word) : (c.setM r v).age = c.age := by
  unfold Ctx.setM; split <;> rfl
@[simp] theorem Ctx.setM_pc (c : Ctx) (r : Nat) (v : Word) : (c.setM r v).pc = c.pc := by
  unfold Ctx.setM; split <;> rfl
@[simp] theorem Ctx.setM_share (c : Ctx) (r : Nat) (v : Word) : (c.setM r v).share = c.share := by
  unfold Ctx.setM; split <;> rfl
@[simp] theorem Ctx.setM_items (c : Ctx) (r : Nat) (v : Word) : (c.setM r v).items = c.items := by
  unfold Ctx.setM; split <;> rfl
@[simp] theorem Ctx.setM_notice (c : Ctx) (r : Nat) (v : Word) : (c.setM r v).notice = c.notice := by
  unfold Ctx.setM; split <;> rfl
@[simp] theorem Ctx.setM_req (c : Ctx) (r : Nat) (v : Word) : (c.setM r v).req = c.req := by
  unfold Ctx.setM; split <;> rfl
@[simp] theorem Ctx.setM_boost (c : Ctx) (r : Nat) (v : Word) : (c.setM r v).boost = c.boost := by
  unfold Ctx.setM; split <;> rfl
@[simp] theorem Ctx.setM_region (c : Ctx) (r : Nat) (v : Word) : (c.setM r v).region = c.region := by
  unfold Ctx.setM; split <;> rfl
@[simp] theorem Ctx.setM_loads (c : Ctx) (r : Nat) (v : Word) : (c.setM r v).loads = c.loads := by
  unfold Ctx.setM; split <;> rfl
@[simp] theorem Ctx.setM_touched (c : Ctx) (r : Nat) (v : Word) : (c.setM r v).touched = c.touched := by
  unfold Ctx.setM; split <;> rfl
@[simp] theorem Ctx.setM_interval (c : Ctx) (r : Nat) (v : Word) : (c.setM r v).interval = c.interval := by
  unfold Ctx.setM; split <;> rfl
@[simp] theorem Ctx.setM_checkedSince (c : Ctx) (r : Nat) (v : Word) : (c.setM r v).checkedSince = c.checkedSince := by
  unfold Ctx.setM; split <;> rfl
@[simp] theorem Ctx.setM_seq (c : Ctx) (r : Nat) (v : Word) : (c.setM r v).seq = c.seq := by
  unfold Ctx.setM; split <;> rfl
@[simp] theorem Ctx.setM_pend (c : Ctx) (r : Nat) (v : Word) : (c.setM r v).pend = c.pend := by
  unfold Ctx.setM; split <;> rfl
@[simp] theorem Ctx.setM_vstream (c : Ctx) (r : Nat) (v : Word) : (c.setM r v).vstream = c.vstream := by
  unfold Ctx.setM; split <;> rfl
@[simp] theorem Ctx.setM_st (c : Ctx) (r : Nat) (v : Word) : (c.setM r v).st = c.st := by
  unfold Ctx.setM; split <;> rfl
@[simp] theorem Ctx.setM_verdicts (c : Ctx) (r : Nat) (v : Word) : (c.setM r v).verdicts = c.verdicts := by
  unfold Ctx.setM; split <;> rfl
@[simp] theorem Ctx.setM_stalled (c : Ctx) (r : Nat) (v : Word) : (c.setM r v).stalled = c.stalled := by
  unfold Ctx.setM; split <;> rfl
@[simp] theorem Ctx.setM_asyncs (c : Ctx) (r : Nat) (v : Word) : (c.setM r v).asyncs = c.asyncs := by
  unfold Ctx.setM; split <;> rfl
@[simp] theorem Ctx.setM_lock (c : Ctx) (r : Nat) (v : Word) : (c.setM r v).lock = c.lock := by
  unfold Ctx.setM; split <;> rfl
@[simp] theorem Ctx.setM_reserved (c : Ctx) (r : Nat) (v : Word) : (c.setM r v).reserved = c.reserved := by
  unfold Ctx.setM; split <;> rfl
@[simp] theorem Ctx.setM_evHeld (c : Ctx) (r : Nat) (v : Word) : (c.setM r v).evHeld = c.evHeld := by
  unfold Ctx.setM; split <;> rfl
@[simp] theorem Ctx.setM_accs (c : Ctx) (r : Nat) (v : Word) : (c.setM r v).accs = c.accs := by
  unfold Ctx.setM; split <;> rfl
@[simp] theorem Ctx.setM_msg (c : Ctx) (r : Nat) (v : Word) : (c.setM r v).msg = c.msg := by
  unfold Ctx.setM; split <;> rfl
@[simp] theorem Ctx.setM_trig (c : Ctx) (r : Nat) (v : Word) : (c.setM r v).trig = c.trig := by
  unfold Ctx.setM; split <;> rfl
@[simp] theorem Ctx.setM_code (c : Ctx) (r : Nat) (v : Word) : (c.setM r v).code = c.code := by
  unfold Ctx.setM; split <;> rfl
@[simp] theorem Ctx.setV_uid (c : Ctx) (r : Nat) (v : Vec) : (c.setV r v).uid = c.uid := rfl
@[simp] theorem Ctx.setV_launch (c : Ctx) (r : Nat) (v : Vec) : (c.setV r v).launch = c.launch := rfl
@[simp] theorem Ctx.setV_gen (c : Ctx) (r : Nat) (v : Vec) : (c.setV r v).gen = c.gen := rfl
@[simp] theorem Ctx.setV_asn (c : Ctx) (r : Nat) (v : Vec) : (c.setV r v).asn = c.asn := rfl
@[simp] theorem Ctx.setV_actor (c : Ctx) (r : Nat) (v : Vec) : (c.setV r v).actor = c.actor := rfl
@[simp] theorem Ctx.setV_kind (c : Ctx) (r : Nat) (v : Vec) : (c.setV r v).kind = c.kind := rfl
@[simp] theorem Ctx.setV_wid (c : Ctx) (r : Nat) (v : Vec) : (c.setV r v).wid = c.wid := rfl
@[simp] theorem Ctx.setV_place (c : Ctx) (r : Nat) (v : Vec) : (c.setV r v).place = c.place := rfl
@[simp] theorem Ctx.setV_prio (c : Ctx) (r : Nat) (v : Vec) : (c.setV r v).prio = c.prio := rfl
@[simp] theorem Ctx.setV_cls (c : Ctx) (r : Nat) (v : Vec) : (c.setV r v).cls = c.cls := rfl
@[simp] theorem Ctx.setV_age (c : Ctx) (r : Nat) (v : Vec) : (c.setV r v).age = c.age := rfl
@[simp] theorem Ctx.setV_pc (c : Ctx) (r : Nat) (v : Vec) : (c.setV r v).pc = c.pc := rfl
@[simp] theorem Ctx.setV_share (c : Ctx) (r : Nat) (v : Vec) : (c.setV r v).share = c.share := rfl
@[simp] theorem Ctx.setV_items (c : Ctx) (r : Nat) (v : Vec) : (c.setV r v).items = c.items := rfl
@[simp] theorem Ctx.setV_notice (c : Ctx) (r : Nat) (v : Vec) : (c.setV r v).notice = c.notice := rfl
@[simp] theorem Ctx.setV_req (c : Ctx) (r : Nat) (v : Vec) : (c.setV r v).req = c.req := rfl
@[simp] theorem Ctx.setV_boost (c : Ctx) (r : Nat) (v : Vec) : (c.setV r v).boost = c.boost := rfl
@[simp] theorem Ctx.setV_region (c : Ctx) (r : Nat) (v : Vec) : (c.setV r v).region = c.region := rfl
@[simp] theorem Ctx.setV_loads (c : Ctx) (r : Nat) (v : Vec) : (c.setV r v).loads = c.loads := rfl
@[simp] theorem Ctx.setV_touched (c : Ctx) (r : Nat) (v : Vec) : (c.setV r v).touched = c.touched := rfl
@[simp] theorem Ctx.setV_interval (c : Ctx) (r : Nat) (v : Vec) : (c.setV r v).interval = c.interval := rfl
@[simp] theorem Ctx.setV_checkedSince (c : Ctx) (r : Nat) (v : Vec) : (c.setV r v).checkedSince = c.checkedSince := rfl
@[simp] theorem Ctx.setV_seq (c : Ctx) (r : Nat) (v : Vec) : (c.setV r v).seq = c.seq := rfl
@[simp] theorem Ctx.setV_pend (c : Ctx) (r : Nat) (v : Vec) : (c.setV r v).pend = c.pend := rfl
@[simp] theorem Ctx.setV_vstream (c : Ctx) (r : Nat) (v : Vec) : (c.setV r v).vstream = c.vstream := rfl
@[simp] theorem Ctx.setV_st (c : Ctx) (r : Nat) (v : Vec) : (c.setV r v).st = c.st := rfl
@[simp] theorem Ctx.setV_verdicts (c : Ctx) (r : Nat) (v : Vec) : (c.setV r v).verdicts = c.verdicts := rfl
@[simp] theorem Ctx.setV_stalled (c : Ctx) (r : Nat) (v : Vec) : (c.setV r v).stalled = c.stalled := rfl
@[simp] theorem Ctx.setV_asyncs (c : Ctx) (r : Nat) (v : Vec) : (c.setV r v).asyncs = c.asyncs := rfl
@[simp] theorem Ctx.setV_lock (c : Ctx) (r : Nat) (v : Vec) : (c.setV r v).lock = c.lock := rfl
@[simp] theorem Ctx.setV_reserved (c : Ctx) (r : Nat) (v : Vec) : (c.setV r v).reserved = c.reserved := rfl
@[simp] theorem Ctx.setV_evHeld (c : Ctx) (r : Nat) (v : Vec) : (c.setV r v).evHeld = c.evHeld := rfl
@[simp] theorem Ctx.setV_accs (c : Ctx) (r : Nat) (v : Vec) : (c.setV r v).accs = c.accs := rfl
@[simp] theorem Ctx.setV_msg (c : Ctx) (r : Nat) (v : Vec) : (c.setV r v).msg = c.msg := rfl
@[simp] theorem Ctx.setV_trig (c : Ctx) (r : Nat) (v : Vec) : (c.setV r v).trig = c.trig := rfl
@[simp] theorem Ctx.setV_code (c : Ctx) (r : Nat) (v : Vec) : (c.setV r v).code = c.code := rfl
@[simp] theorem Ctx.setStatus_uid (c : Ctx) (v : Word) : (c.setStatus v).uid = c.uid := rfl
@[simp] theorem Ctx.setStatus_launch (c : Ctx) (v : Word) : (c.setStatus v).launch = c.launch := rfl
@[simp] theorem Ctx.setStatus_gen (c : Ctx) (v : Word) : (c.setStatus v).gen = c.gen := rfl
@[simp] theorem Ctx.setStatus_asn (c : Ctx) (v : Word) : (c.setStatus v).asn = c.asn := rfl
@[simp] theorem Ctx.setStatus_actor (c : Ctx) (v : Word) : (c.setStatus v).actor = c.actor := rfl
@[simp] theorem Ctx.setStatus_kind (c : Ctx) (v : Word) : (c.setStatus v).kind = c.kind := rfl
@[simp] theorem Ctx.setStatus_wid (c : Ctx) (v : Word) : (c.setStatus v).wid = c.wid := rfl
@[simp] theorem Ctx.setStatus_place (c : Ctx) (v : Word) : (c.setStatus v).place = c.place := rfl
@[simp] theorem Ctx.setStatus_prio (c : Ctx) (v : Word) : (c.setStatus v).prio = c.prio := rfl
@[simp] theorem Ctx.setStatus_cls (c : Ctx) (v : Word) : (c.setStatus v).cls = c.cls := rfl
@[simp] theorem Ctx.setStatus_age (c : Ctx) (v : Word) : (c.setStatus v).age = c.age := rfl
@[simp] theorem Ctx.setStatus_pc (c : Ctx) (v : Word) : (c.setStatus v).pc = c.pc := rfl
@[simp] theorem Ctx.setStatus_share (c : Ctx) (v : Word) : (c.setStatus v).share = c.share := rfl
@[simp] theorem Ctx.setStatus_items (c : Ctx) (v : Word) : (c.setStatus v).items = c.items := rfl
@[simp] theorem Ctx.setStatus_notice (c : Ctx) (v : Word) : (c.setStatus v).notice = c.notice := rfl
@[simp] theorem Ctx.setStatus_req (c : Ctx) (v : Word) : (c.setStatus v).req = c.req := rfl
@[simp] theorem Ctx.setStatus_boost (c : Ctx) (v : Word) : (c.setStatus v).boost = c.boost := rfl
@[simp] theorem Ctx.setStatus_region (c : Ctx) (v : Word) : (c.setStatus v).region = c.region := rfl
@[simp] theorem Ctx.setStatus_loads (c : Ctx) (v : Word) : (c.setStatus v).loads = c.loads := rfl
@[simp] theorem Ctx.setStatus_touched (c : Ctx) (v : Word) : (c.setStatus v).touched = c.touched := rfl
@[simp] theorem Ctx.setStatus_interval (c : Ctx) (v : Word) : (c.setStatus v).interval = c.interval := rfl
@[simp] theorem Ctx.setStatus_checkedSince (c : Ctx) (v : Word) : (c.setStatus v).checkedSince = c.checkedSince := rfl
@[simp] theorem Ctx.setStatus_seq (c : Ctx) (v : Word) : (c.setStatus v).seq = c.seq := rfl
@[simp] theorem Ctx.setStatus_pend (c : Ctx) (v : Word) : (c.setStatus v).pend = c.pend := rfl
@[simp] theorem Ctx.setStatus_vstream (c : Ctx) (v : Word) : (c.setStatus v).vstream = c.vstream := rfl
@[simp] theorem Ctx.setStatus_st (c : Ctx) (v : Word) : (c.setStatus v).st = c.st := rfl
@[simp] theorem Ctx.setStatus_verdicts (c : Ctx) (v : Word) : (c.setStatus v).verdicts = c.verdicts := rfl
@[simp] theorem Ctx.setStatus_stalled (c : Ctx) (v : Word) : (c.setStatus v).stalled = c.stalled := rfl
@[simp] theorem Ctx.setStatus_asyncs (c : Ctx) (v : Word) : (c.setStatus v).asyncs = c.asyncs := rfl
@[simp] theorem Ctx.setStatus_lock (c : Ctx) (v : Word) : (c.setStatus v).lock = c.lock := rfl
@[simp] theorem Ctx.setStatus_reserved (c : Ctx) (v : Word) : (c.setStatus v).reserved = c.reserved := rfl
@[simp] theorem Ctx.setStatus_evHeld (c : Ctx) (v : Word) : (c.setStatus v).evHeld = c.evHeld := rfl
@[simp] theorem Ctx.setStatus_accs (c : Ctx) (v : Word) : (c.setStatus v).accs = c.accs := rfl
@[simp] theorem Ctx.setStatus_msg (c : Ctx) (v : Word) : (c.setStatus v).msg = c.msg := rfl
@[simp] theorem Ctx.setStatus_trig (c : Ctx) (v : Word) : (c.setStatus v).trig = c.trig := rfl
@[simp] theorem Ctx.setStatus_code (c : Ctx) (v : Word) : (c.setStatus v).code = c.code := rfl

end Sys2Proof.Machine
end

