-- ==== Sys2Proof/Laws/Memory.lean ====
section
/-! SUPPORT. Laws of memory: what each operation leaves at an address, and that every one of them keeps the canonical
form. -/

set_option Elab.async false

namespace Sys2Proof.Machine

/-! ## Bytes -/

@[simp] theorem State.writeByte_byteAt_same (s : State) (path uid pa : Nat) (b : Byte) (num : Nat)
    (by_ : Option (Nat × Nat) := none) : (s.writeByte path uid pa b num by_).byteAt pa = b := Map.get_set_same _ _ _ _

theorem State.writeByte_byteAt_ne (s : State) (path uid : Nat) {pa a : Nat} (b : Byte) (num : Nat) (h : a ≠ pa)
    (by_ : Option (Nat × Nat) := none) : (s.writeByte path uid pa b num by_).byteAt a = s.byteAt a := Map.get_set_ne _ _ _ h

/-- A number written leaves every byte outside it. -/
theorem State.writeMem_byteAt_out (path uid : Nat) : ∀ (n : Nat) (s : State) (pa v a : Nat), a < pa ∨ pa + n ≤ a →
    (s.writeMem path uid pa n v).byteAt a = s.byteAt a
  | 0, _, _, _, _, _ => rfl
  | n + 1, s, pa, v, a, h => by
    rw [State.writeMem, State.writeMem_byteAt_out path uid n _ _ _ _ (by omega)]
    exact State.writeByte_byteAt_ne _ _ _ _ _ (by omega)

/-- Byte `i` of a number stands `i` bytes behind its address (R9). -/
theorem State.writeMem_byteAt_in (path uid : Nat) : ∀ (n : Nat) (s : State) (pa v i : Nat), i < n →
    (s.writeMem path uid pa n v).byteAt (pa + i) = byteOf v i
  | 0, _, _, _, _, h => absurd h (by omega)
  | n + 1, s, pa, v, i, h => by
    rw [State.writeMem]
    cases i with
    | zero =>
      rw [State.writeMem_byteAt_out path uid n _ _ _ _ (by omega)]
      exact State.writeByte_byteAt_same _ _ _ _ _ _
    | succ i =>
      rw [show pa + (i + 1) = pa + 1 + i by omega, State.writeMem_byteAt_in path uid n _ _ _ _ (by omega)]
      simp only [byteOf, Nat.div_div_eq_div_mul]
      rw [show 256 * 256 ^ i = 256 ^ (i + 1) by rw [Nat.pow_succ, Nat.mul_comm]]

/-- What a range of bytes written in turn, each where it is selected, leaves at an address. -/
theorem bytes_foldl (p : Nat → Bool) (f : Nat → Byte) (g : State → Nat → State) (base : Nat)
    (hs : ∀ s i, p i = true → (g s i).byteAt (base + i) = f i)
    (ho : ∀ s i a, a ≠ base + i ∨ p i = false → (g s i).byteAt a = s.byteAt a) (s : State) (n : Nat) :
    (∀ i < n, ((List.range n).foldl g s).byteAt (base + i) = if p i then f i else s.byteAt (base + i)) ∧
    ∀ a, a < base ∨ base + n ≤ a → ((List.range n).foldl g s).byteAt a = s.byteAt a := by
  induction n with
  | zero => exact ⟨fun i h => absurd h (by omega), fun _ _ => rfl⟩
  | succ n ih =>
    rw [List.range_succ, List.foldl_append]
    refine ⟨fun i h => ?_, fun a h => ?_⟩
    · by_cases hi : i = n
      · subst hi
        by_cases hp : p i = true
        · simp only [List.foldl, hs _ _ hp, hp, if_true]
        · have hp' : p i = false := by simpa using hp
          simp only [List.foldl, ho _ _ _ (.inr hp'), hp']
          simpa using ih.2 (base + i) (.inr (Nat.le_refl _))
      · simp only [List.foldl, ho _ _ (base + i) (.inl (show base + i ≠ base + n by omega)), ih.1 i (by omega)]
    · exact (ho _ _ a (.inl (by omega))).trans (ih.2 a (by omega))

/-- A committed line leaves its masked bytes at its home, and every other byte (R116). -/
theorem State.writeLine_byteAt (s : State) (path uid num : Nat) (l : Line) (by_ : Option (Nat × Nat)) :
    (∀ i < 64, (s.writeLine path uid num l by_).byteAt (l.home + i) =
      if l.mask.getLsbD i then byteOf l.data.toNat i else s.byteAt (l.home + i)) ∧
    ∀ a, a < l.home ∨ l.home + 64 ≤ a → (s.writeLine path uid num l by_).byteAt a = s.byteAt a := by
  refine bytes_foldl (fun i => l.mask.getLsbD i) (byteOf l.data.toNat) _ l.home ?_ ?_ s 64
  · intro s i h
    simp only [h, if_true]
    exact State.writeByte_byteAt_same _ _ _ _ _ _ _
  · intro s i a h
    split
    · next hm => exact State.writeByte_byteAt_ne _ _ _ _ _ (h.resolve_right (by simp [hm])) _
    · rfl

/-- A bank operation leaves its number, and every byte outside it (R173). -/
theorem State.bankWrite_byteAt (s : State) (pa n v : Nat) :
    (∀ i < n, (s.bankWrite pa n v).byteAt (pa + i) = byteOf v i) ∧
    ∀ a, a < pa ∨ pa + n ≤ a → (s.bankWrite pa n v).byteAt a = s.byteAt a := by
  have h : ∀ (n : Nat) (m : Map Byte),
      (∀ i < n, ((List.range n).foldl (fun m i => m.set (pa + i) (byteOf v i) 0) m).get (pa + i) 0 = byteOf v i) ∧
      ∀ a, a < pa ∨ pa + n ≤ a →
        ((List.range n).foldl (fun m i => m.set (pa + i) (byteOf v i) 0) m).get a 0 = m.get a 0 := by
    intro n m
    induction n with
    | zero => exact ⟨fun i h => absurd h (by omega), fun _ _ => rfl⟩
    | succ n ih =>
      rw [List.range_succ, List.foldl_append]
      refine ⟨fun i hi => ?_, fun a ha => ?_⟩
      · by_cases he : i = n
        · subst he; exact Map.get_set_same _ _ _ _
        · exact (Map.get_set_ne _ _ _ (by omega)).trans (ih.1 i (by omega))
      · exact (Map.get_set_ne _ _ _ (by omega)).trans (ih.2 a (by omega))
  exact h n s.mem

/-- A byte read on a path that no unseen write touches is the newest one. -/
theorem State.readByte_seen (s : State) (path pa me acc : Nat) (h : ∀ u ∈ s.unseen, u.pa ≠ pa) (hr : regionOf pa ≠ 5) :
    s.readByte path pa me acc = s.byteAt pa := by
  have : s.unseen.filter (fun u => u.pa == pa) = [] := by
    rw [List.filter_eq_nil_iff]
    intro u hu
    simpa using h u hu
  simp [State.readByte, State.heldByte, hr, this, readBack]

/-! ## The canonical form -/

/-- Reset memory is in canonical form, and nothing is frozen. -/
theorem State.reset_memoryWf : State.reset.memoryWf := ⟨rfl, fun _ h => nomatch h⟩

/-- What each step of a fold keeps, the fold keeps. -/
theorem foldl_keeps {α β : Type} {P : α → Prop} {f : α → β → α} (hf : ∀ a b, P a → P (f a b)) (l : List β) (a : α)
    (h : P a) : P (l.foldl f a) := by
  induction l generalizing a with
  | nil => exact h
  | cons b l ih => exact ih _ (hf a b h)

theorem State.writeByte_wf (s : State) (path uid pa : Nat) (b : Byte) (num : Nat) (h : Memory.wf s.mem = true) :
    Memory.wf (s.writeByte path uid pa b num).mem = true := Map.wf_set _ _ _ _ h

theorem State.writeMem_wf (path uid : Nat) : ∀ (n : Nat) (s : State) (pa v : Nat), Memory.wf s.mem = true →
    Memory.wf (s.writeMem path uid pa n v).mem = true
  | 0, _, _, _, h => h
  | n + 1, s, pa, _, h => State.writeMem_wf path uid n _ _ _ (s.writeByte_wf path uid pa _ 0 h)

theorem State.writeLine_wf (s : State) (path uid num : Nat) (l : Line) (h : Memory.wf s.mem = true) :
    Memory.wf (s.writeLine path uid num l).mem = true :=
  foldl_keeps (P := fun s : State => Memory.wf s.mem = true) (fun s i h => by
    split
    · exact s.writeByte_wf _ _ _ _ _ h
    · exact h) _ _ h

theorem State.bankWrite_wf (s : State) (pa n v : Nat) (h : Memory.wf s.mem = true) :
    Memory.wf (s.bankWrite pa n v).mem = true :=
  foldl_keeps (P := fun m : Map Byte => Memory.wf m = true) (fun m _ h => Map.wf_set m _ _ _ h) _ _ h

theorem State.zeroFill_wf (s : State) (pa n : Nat) (h : Memory.wf s.mem = true) :
    Memory.wf (s.zeroFill pa n).mem = true := Map.wf_filter _ _ _ h

theorem State.place_wf (s : State) (pa : Nat) (l : List Byte) (h : Memory.wf s.mem = true) :
    Memory.wf (s.place pa l).mem = true := by
  induction l generalizing s pa with
  | nil => exact h
  | cons b l ih => exact ih _ _ (Map.wf_set _ _ _ _ h)

theorem State.cabPut_wf (s : State) (b off n v : Nat) (h : Memory.wf s.mem = true) :
    Memory.wf (s.cabPut b off n v).mem = true := State.writeMem_wf 3 0 n s _ v h

@[simp] theorem State.mendRange_mem (s : State) (pa n : Nat) : (s.mendRange pa n).mem = s.mem := by
  unfold State.mendRange; split <;> rfl

theorem State.cabZero_wf (s : State) (b off n : Nat) (h : Memory.wf s.mem = true) :
    Memory.wf (s.cabZero b off n).mem = true := by
  unfold State.cabZero
  rw [State.mendRange_mem]
  exact foldl_keeps (P := fun s : State => Memory.wf s.mem = true) (fun s _ h => s.writeByte_wf _ _ _ _ _ h) _ _ h

@[simp] theorem State.mendKeys_mem (s : State) (e : Eng) (l : List Nat) : (s.mendKeys e l).mem = s.mem := by
  unfold State.mendKeys; split <;> rfl

@[simp] theorem State.mended_mem (s : State) (l : Line) : (s.mended l).mem = s.mem := by
  unfold State.mended; split <;> rfl

@[simp] theorem State.cross_mem (s : State) (p q : Nat) (f : Unseen → Bool) : (s.cross p q f).mem = s.mem := rfl

@[simp] theorem State.mapUid_mem (s : State) (uid : Nat) (f : Ctx → Ctx) : (s.mapUid uid f).mem = s.mem := by
  unfold State.mapUid
  split
  · split
    · exact State.putCtx_mem _ _ _
    · rfl
  · rfl

theorem State.putKey_wf (s : State) (e : Eng) (key : Nat) (b : Byte) (h : Memory.wf s.mem = true) :
    Memory.wf (s.putKey e key b).mem = true := by
  unfold State.putKey
  split
  · split
    · exact (congrArg Memory.wf (State.mapUid_mem _ _ _)).trans h
    · exact h
  · exact s.writeByte_wf _ _ _ _ _ h

/-- What an engine writes keeps the canonical form, whether or not it comes to its end (R488). -/
theorem State.engPut_wf (e : Eng) (ok : Nat → Bool) : ∀ (l : List (Nat × Byte)) (s : State) (keys : List Nat) (t : State)
    (c : Nat), Memory.wf s.mem = true → s.engPut e ok keys l = .ok (t, c) → Memory.wf t.mem = true
  | [], s, keys, t, c, h, ht => by
    simp only [State.engPut, Except.ok.injEq, Prod.mk.injEq] at ht
    rw [← ht.1, State.mendKeys_mem]
    exact h
  | (va, b) :: l, s, keys, t, c, h, ht => by
    rw [State.engPut] at ht
    split at ht
    · cases ht
    · simp only [Except.ok.injEq, Prod.mk.injEq] at ht
      rw [← ht.1, State.mendKeys_mem]
      exact h
    · split at ht
      · exact State.engPut_wf e ok l _ _ _ _ (s.putKey_wf e _ b h) ht
      · simp only [Except.ok.injEq, Prod.mk.injEq] at ht
        rw [← ht.1, State.mendKeys_mem]
        exact h

theorem State.engStore_wf (s t : State) (e : Eng) (ok : Nat → Bool) (l : List (Nat × Byte)) (c : Nat)
    (h : Memory.wf s.mem = true) (ht : s.engStore e ok l = .ok (t, c)) : Memory.wf t.mem = true := by
  unfold State.engStore at ht
  split at ht
  · cases ht
  · next hp =>
    split at ht
    · simp only [Except.ok.injEq, Prod.mk.injEq] at ht
      rw [← ht.1]
      exact State.engPut_wf e ok l s [] _ _ h hp
    · simp only [Except.ok.injEq, Prod.mk.injEq] at ht
      rw [← ht.1]
      exact h

theorem State.copyPage_wf (s : State) (m : PageMove) (h : Memory.wf s.mem = true) :
    Memory.wf (s.copyPage m).mem = true :=
  foldl_keeps (P := fun m : Map Byte => Memory.wf m = true) (fun m _ h => Map.wf_set m _ _ _ h) _ _
    (s.zeroFill_wf _ _ h)

theorem State.loadImage_wf (s : State) (home : Nat) (r : Nat × Nat) (h : Memory.wf s.mem = true) :
    Memory.wf (s.loadImage home r).mem = true :=
  foldl_keeps (P := fun s : State => Memory.wf s.mem = true) (fun s _ h => by
    split
    · exact s.writeByte_wf _ _ _ _ _ h
    · exact h) _ _ h

@[simp] theorem State.releaseCores_mem (s : State) : s.releaseCores.mem = s.mem := by
  unfold State.releaseCores
  generalize List.range 80 = l
  exact foldl_keeps (P := fun t : State => t.mem = s.mem) (fun t n h => (State.setSys_mem t n _).trans h) l s rfl

@[simp] theorem State.forgetLaunch_mem (s : State) (i gen : Nat) : (s.forgetLaunch i gen).mem = s.mem := rfl

@[simp] theorem State.unpark_mem (s : State) (uid : Nat) : (s.unpark uid).mem = s.mem := rfl

@[simp] theorem State.losePage_mem (s : State) (m : PageMove) : (s.losePage m).mem = s.mem := rfl

theorem State.moveBank_wf (s : State) (r : Recast) (q : Nat) (h : Memory.wf s.mem = true) :
    Memory.wf (s.moveBank r q).mem = true := by
  unfold State.moveBank
  simp only
  split
  · simp only [State.setBank_mem]
    refine foldl_keeps (P := fun s : State => Memory.wf s.mem = true) (fun s _ h => s.writeByte_wf _ _ _ _ _ h) _ _
      (State.cabZero_wf _ _ _ _ ?_)
    refine foldl_keeps (P := fun s : State => Memory.wf s.mem = true) ?_ _ _ h
    exact fun _ _ h => h
  · refine foldl_keeps (P := fun s : State => Memory.wf s.mem = true) ?_ _ _ h
    exact fun _ _ h => h

theorem State.capture_wf (s : State) (f : Freeze) (h : Memory.wf s.mem = true) : Memory.wf (s.capture f).mem = true :=
  Map.wf_filter _ _ _ h

@[simp] theorem State.redirect_mem (s : State) (uid k inc : Nat) : (s.redirect uid k inc).mem = s.mem := rfl

theorem State.reseat_mem (m : TileMoves) (g : Nat → Nat) (s : State) (k inc : Nat) (c : Ctx) :
    (State.reseat m g s k inc c).mem = s.mem := by
  unfold State.reseat
  simp only [State.redirect_mem]
  split <;> rfl

theorem State.restore_wf (s : State) (i : Image) (m : TileMoves) (h : Memory.wf s.mem = true) :
    Memory.wf (s.restore i m).mem = true := by
  unfold State.restore
  exact foldl_keeps (P := fun s : State => Memory.wf s.mem = true) (fun s e h => by
    split
    · rw [State.reseat_mem]; exact h
    · exact h) _ _
    (foldl_keeps (P := fun m : Map Byte => Memory.wf m = true) (fun m _ h => Map.wf_set m _ _ _ h) _ _ (Map.wf_filter _ _ _ h))

/-! ## Pending operations -/

/-- A slot without a pending operation has nothing to settle. -/
theorem State.settle_idle (s : State) (k : Nat) (h : ∀ c, (s.slotAt k).ctx = some c → c.pend = []) : s.settle k = s := by
  have h1 : s.settleOne k = none := by
    unfold State.settleOne
    split
    · rfl
    · next c hc => rw [h c hc]; rfl
  unfold State.settle
  rw [State.settleFuel, h1]

/-- Where no slot has a pending operation, nothing settles. -/
theorem State.settleAll_idle (s : State) (h : ∀ k c, (s.slotAt k).ctx = some c → c.pend = []) : s.settleAll = s := by
  unfold State.settleAll
  exact foldl_keeps (P := fun t => t = s) (fun t e ht => by rw [ht]; exact s.settle_idle e.1 (h e.1)) _ _ rfl

end Sys2Proof.Machine
end

