-- ==== Sys2Proof/Laws/Operands.lean ====
section
/-! SUPPORT. What reading operands, writing destinations and committing a region leave alone. -/

set_option Elab.async false

namespace Sys2Proof.Laws

open Sys2Proof Sys2Proof.Machine

/-- What drained bytes of the own share leave alone: all but the share, and which writes paths need not see. -/
theorem putShares_keep (P : Nat → Bool) (g : Nat → Nat) (b : Nat → Byte) (n : Nat) (l : List Nat) (x : Cx) :
    let y := l.foldl (fun y i => if P i then y.putShare (g i) (b i) n else y) x
    y.who = x.who ∧ y.s.mem = x.s.mem ∧ y.c = { x.c with share := y.c.share } := by
  induction l generalizing x with
  | nil => exact ⟨rfl, rfl, rfl⟩
  | cons i l ih =>
    simp only [List.foldl_cons]
    obtain ⟨h1, h2, h3⟩ := ih (if P i then x.putShare (g i) (b i) n else x)
    refine ⟨h1.trans (by split <;> rfl), h2.trans (by split <;> rfl), h3.trans ?_⟩
    split <;> rfl

/-- Draining a line changes neither the issuer nor memory nor, but for the share and the line count, its context. -/
theorem drain_keep (x : Cx) (L : List Nat) (l : Line) :
    (x.drain L l).who = x.who ∧ (x.drain L l).s.mem = x.s.mem ∧
      (x.drain L l).c = { x.c with share := (x.drain L l).c.share, seq := (x.drain L l).c.seq } := by
  unfold Cx.drain
  split
  · obtain ⟨h1, h2, h3⟩ := putShares_keep (l.mask.getLsbD ·) (l.home - shareBase + ·) (byteOf l.data.toNat ·) (x.c.seq + 1)
      (List.range 64) x
    refine ⟨h1, ?_, ?_⟩
    · unfold State.mended; split <;> exact h2
    · simp only; rw [h3]
  · refine ⟨rfl, ?_, rfl⟩
    simp only
    split
    · unfold State.grantJournal; split
      · rfl
      · split <;> rfl
    · rfl

theorem drain_who (x : Cx) (L : List Nat) (l : Line) : (x.drain L l).who = x.who := (drain_keep x L l).1

theorem drains_who (L : List Nat) : ∀ (l : List Line) (x : Cx), (l.foldl (Cx.drain · L) x).who = x.who
  | [], _ => rfl
  | a :: l, x => by rw [List.foldl_cons, drains_who L l, drain_who]

theorem commit_who (x : Cx) : x.commit.who = x.who := drains_who _ _ _

theorem drain_regs (x : Cx) (L : List Nat) (l : Line) :
    (x.drain L l).c.regs = x.c.regs ∧ (x.drain L l).c.pc = x.c.pc ∧ (x.drain L l).c.st = x.c.st ∧
      (x.drain L l).c.vstream = x.c.vstream ∧ (x.drain L l).c.asyncs = x.c.asyncs ∧
      (x.drain L l).c.pend = x.c.pend ∧ (x.drain L l).c.loads = x.c.loads ∧ (x.drain L l).c.uid = x.c.uid := by
  rw [(drain_keep x L l).2.2]
  exact ⟨rfl, rfl, rfl, rfl, rfl, rfl, rfl, rfl⟩

theorem drains_regs (L : List Nat) : ∀ (l : List Line) (x : Cx),
    (l.foldl (Cx.drain · L) x).c.regs = x.c.regs ∧ (l.foldl (Cx.drain · L) x).c.pc = x.c.pc ∧
      (l.foldl (Cx.drain · L) x).c.st = x.c.st ∧ (l.foldl (Cx.drain · L) x).c.vstream = x.c.vstream ∧
      (l.foldl (Cx.drain · L) x).c.asyncs = x.c.asyncs ∧ (l.foldl (Cx.drain · L) x).c.pend = x.c.pend ∧
      (l.foldl (Cx.drain · L) x).c.loads = x.c.loads ∧ (l.foldl (Cx.drain · L) x).c.uid = x.c.uid
  | [], _ => ⟨rfl, rfl, rfl, rfl, rfl, rfl, rfl, rfl⟩
  | a :: l, x => by
    have h := drains_regs L l (x.drain L a)
    have g := drain_regs x L a
    simp only [List.foldl_cons]
    exact ⟨h.1.trans g.1, h.2.1.trans g.2.1, h.2.2.1.trans g.2.2.1, h.2.2.2.1.trans g.2.2.2.1,
      h.2.2.2.2.1.trans g.2.2.2.2.1, h.2.2.2.2.2.1.trans g.2.2.2.2.2.1, h.2.2.2.2.2.2.1.trans g.2.2.2.2.2.2.1,
      h.2.2.2.2.2.2.2.trans g.2.2.2.2.2.2.2⟩

/-- A commit leaves the registers, the pc, and what the context is doing as they were. -/
theorem commit_regs (x : Cx) :
    x.commit.c.regs = x.c.regs ∧ x.commit.c.pc = x.c.pc ∧ x.commit.c.st = x.c.st ∧ x.commit.c.vstream = x.c.vstream ∧
      x.commit.c.asyncs = x.c.asyncs ∧ x.commit.c.pend = x.c.pend ∧ x.commit.c.loads = x.c.loads ∧
      x.commit.c.uid = x.c.uid := drains_regs _ _ _

theorem drain_mem (x : Cx) (L : List Nat) (l : Line) : (x.drain L l).s.mem = x.s.mem := (drain_keep x L l).2.1

theorem drains_mem (L : List Nat) : ∀ (l : List Line) (x : Cx), (l.foldl (Cx.drain · L) x).s.mem = x.s.mem
  | [], _ => rfl
  | a :: l, x => by rw [List.foldl_cons, drains_mem L l, drain_mem]

/-- A commit writes no memory: buffered lines leave for their homes. -/
theorem commit_mem (x : Cx) : x.commit.s.mem = x.s.mem := drains_mem _ _ _

/-- With an empty write buffer a commit only begins a region. -/
theorem commit_empty {x : Cx} (h : x.c.region.wbuf = []) : x.commit = x.begin := by simp [Cx.commit, h]

theorem popRoom_who (x : Cx) (q : List Nat) : (x.popRoom q).who = x.who := by
  unfold Cx.popRoom; split
  · exact commit_who x
  · rfl

theorem readS_who {x k : Cx} {f : BitVec 1} {r : BitVec 5} {v : Word} (h : x.readS f r = .ok (v, k)) : k.who = x.who := by
  unfold Cx.readS at h
  split at h
  · unfold Cx.popS at h
    simp only at h
    split at h
    · cases h; exact popRoom_who _ _
    · cases h
  · cases h; rfl

theorem readSS_who {x k : Cx} {fa fb : BitVec 1} {a b : BitVec 5} {va vb : Word}
    (h : x.readSS fa a fb b = .ok (va, vb, k)) : k.who = x.who := by
  unfold Cx.readSS at h
  simp only [bind, Except.bind] at h
  split at h
  · cases h
  · rename_i p e
    have h1 := (readS_who e).trans (popRoom_who _ _)
    split at h
    · cases h; exact h1
    · split at h
      · cases h
      · rename_i q e2
        cases h; exact (readS_who e2).trans h1

theorem writeS_who {x k : Cx} {f : BitVec 1} {r : BitVec 5} {v : Word} (h : x.writeS f r v = .ok k) : k.who = x.who := by
  unfold Cx.writeS at h
  split at h
  · unfold Cx.pushS at h
    simp only at h
    split at h
    · cases h
    · cases h; rfl
  · cases h; rfl

/-- The next instruction, written back. -/
theorem next_put (x : Cx) (n : Nat) : (x.next n).put = wrote x.s x.who x.c n := rfl

end Sys2Proof.Laws
end

