-- ==== Sys2Proof/Laws/PerInstr.lean ====
section
/-! SUPPORT. Per instruction: its word has its length and reads back as the instruction. -/

set_option Elab.async false

set_option linter.unusedSimpArgs false

namespace Sys2Proof.Laws.RoundTrip

open Sys2Proof Sys2Proof.Laws

/-- The word of a well-formed instruction fills its halfwords, its lowest bit tells its length, and the decoder of that
length reads it as the instruction (R291 to R314).  An event has no word. -/
def Statement (i : Instr) : Prop :=
  i.isEvent = false → i.wellFormed = true →
    (i.length = 2 ∧ encode i < 2 ^ 16 ∧ encode i % 2 = 0 ∧ decodeHalf (encode i) = i) ∨
    (i.length = 4 ∧ encode i < 2 ^ 32 ∧ encode i % 2 = 1 ∧ decode32 (encode i) = .ok i)

theorem major00 (w : Nat) (h : bits w 1 6 = 0x00) :
    decode32 w = (decodeMajor00 w).elim (.error .reservedField) .ok := by
  unfold decode32; rw [h]; rfl
theorem major01 (w : Nat) (h : bits w 1 6 = 0x01) :
    decode32 w = (decodeMajor01 w).elim (.error .reservedField) .ok := by
  unfold decode32; rw [h]; rfl
theorem major02 (w : Nat) (h : bits w 1 6 = 0x02) :
    decode32 w = (decodeMajor02 w).elim (.error .reservedField) .ok := by
  unfold decode32; rw [h]; rfl
theorem major03 (w : Nat) (h : bits w 1 6 = 0x03) :
    decode32 w = (decodeMajor03 w).elim (.error .reservedField) .ok := by
  unfold decode32; rw [h]; rfl
theorem major10 (w : Nat) (h : bits w 1 6 = 0x10) :
    decode32 w = (decodeMajor10 w).elim (.error .reservedField) .ok := by
  unfold decode32; rw [h]; rfl
theorem major11 (w : Nat) (h : bits w 1 6 = 0x11) :
    decode32 w = (decodeMajor11 w).elim (.error .reservedField) .ok := by
  unfold decode32; rw [h]; rfl
theorem major12 (w : Nat) (h : bits w 1 6 = 0x12) :
    decode32 w = (decodeMajor12 w).elim (.error .reservedField) .ok := by
  unfold decode32; rw [h]; rfl
theorem major13 (w : Nat) (h : bits w 1 6 = 0x13) :
    decode32 w = (decodeMajor13 w).elim (.error .reservedField) .ok := by
  unfold decode32; rw [h]; rfl
theorem major14 (w : Nat) (h : bits w 1 6 = 0x14) :
    decode32 w = (decodeMajor14 w).elim (.error .reservedField) .ok := by
  unfold decode32; rw [h]; rfl
theorem major15 (w : Nat) (h : bits w 1 6 = 0x15) :
    decode32 w = (decodeMajor15 w).elim (.error .reservedField) .ok := by
  unfold decode32; rw [h]; rfl
theorem major16 (w : Nat) (h : bits w 1 6 = 0x16) :
    decode32 w = (decodeMajor16 w).elim (.error .reservedField) .ok := by
  unfold decode32; rw [h]; rfl
theorem major17 (w : Nat) (h : bits w 1 6 = 0x17) :
    decode32 w = (decodeMajor17 w).elim (.error .reservedField) .ok := by
  unfold decode32; rw [h]; rfl
theorem major18 (w : Nat) (h : bits w 1 6 = 0x18) :
    decode32 w = (decodeMajor18 w).elim (.error .reservedField) .ok := by
  unfold decode32; rw [h]; rfl
theorem major19 (w : Nat) (h : bits w 1 6 = 0x19) :
    decode32 w = (decodeMajor19 w).elim (.error .reservedField) .ok := by
  unfold decode32; rw [h]; rfl
theorem major1A (w : Nat) (h : bits w 1 6 = 0x1A) :
    decode32 w = (decodeMajor1A w).elim (.error .reservedField) .ok := by
  unfold decode32; rw [h]; rfl
theorem major1B (w : Nat) (h : bits w 1 6 = 0x1B) :
    decode32 w = (decodeMajor1B w).elim (.error .reservedField) .ok := by
  unfold decode32; rw [h]; rfl
theorem major1E (w : Nat) (h : bits w 1 6 = 0x1E) :
    decode32 w = (decodeMajor1E w).elim (.error .reservedField) .ok := by
  unfold decode32; rw [h]; rfl
theorem major1F (w : Nat) (h : bits w 1 6 = 0x1F) :
    decode32 w = (decodeMajor1F w).elim (.error .reservedField) .ok := by
  unfold decode32; rw [h]; rfl
theorem major20 (w : Nat) (h : bits w 1 6 = 0x20) :
    decode32 w = (decodeMajor20 w).elim (.error .reservedField) .ok := by
  unfold decode32; rw [h]; rfl
theorem major21 (w : Nat) (h : bits w 1 6 = 0x21) :
    decode32 w = (decodeMajor21 w).elim (.error .reservedField) .ok := by
  unfold decode32; rw [h]; rfl
theorem major22 (w : Nat) (h : bits w 1 6 = 0x22) :
    decode32 w = (decodeMajor22 w).elim (.error .reservedField) .ok := by
  unfold decode32; rw [h]; rfl
theorem major23 (w : Nat) (h : bits w 1 6 = 0x23) :
    decode32 w = (decodeMajor23 w).elim (.error .reservedField) .ok := by
  unfold decode32; rw [h]; rfl
theorem major24 (w : Nat) (h : bits w 1 6 = 0x24) :
    decode32 w = (decodeMajor24 w).elim (.error .reservedField) .ok := by
  unfold decode32; rw [h]; rfl
theorem major25 (w : Nat) (h : bits w 1 6 = 0x25) :
    decode32 w = (decodeMajor25 w).elim (.error .reservedField) .ok := by
  unfold decode32; rw [h]; rfl
theorem major26 (w : Nat) (h : bits w 1 6 = 0x26) :
    decode32 w = (decodeMajor26 w).elim (.error .reservedField) .ok := by
  unfold decode32; rw [h]; rfl
theorem major27 (w : Nat) (h : bits w 1 6 = 0x27) :
    decode32 w = (decodeMajor27 w).elim (.error .reservedField) .ok := by
  unfold decode32; rw [h]; rfl
theorem major28 (w : Nat) (h : bits w 1 6 = 0x28) :
    decode32 w = (decodeMajor28 w).elim (.error .reservedField) .ok := by
  unfold decode32; rw [h]; rfl
theorem major29 (w : Nat) (h : bits w 1 6 = 0x29) :
    decode32 w = (decodeMajor29 w).elim (.error .reservedField) .ok := by
  unfold decode32; rw [h]; rfl
theorem major2A (w : Nat) (h : bits w 1 6 = 0x2A) :
    decode32 w = (decodeMajor2A w).elim (.error .reservedField) .ok := by
  unfold decode32; rw [h]; rfl
theorem major2B (w : Nat) (h : bits w 1 6 = 0x2B) :
    decode32 w = (decodeMajor2B w).elim (.error .reservedField) .ok := by
  unfold decode32; rw [h]; rfl
theorem major30 (w : Nat) (h : bits w 1 6 = 0x30) :
    decode32 w = (decodeMajor30 w).elim (.error .reservedField) .ok := by
  unfold decode32; rw [h]; rfl
theorem major31 (w : Nat) (h : bits w 1 6 = 0x31) :
    decode32 w = (decodeMajor31 w).elim (.error .reservedField) .ok := by
  unfold decode32; rw [h]; rfl
theorem major32 (w : Nat) (h : bits w 1 6 = 0x32) :
    decode32 w = (decodeMajor32 w).elim (.error .reservedField) .ok := by
  unfold decode32; rw [h]; rfl
theorem major33 (w : Nat) (h : bits w 1 6 = 0x33) :
    decode32 w = (decodeMajor33 w).elim (.error .reservedField) .ok := by
  unfold decode32; rw [h]; rfl
theorem major38 (w : Nat) (h : bits w 1 6 = 0x38) :
    decode32 w = (decodeMajor38 w).elim (.error .reservedField) .ok := by
  unfold decode32; rw [h]; rfl
theorem major39 (w : Nat) (h : bits w 1 6 = 0x39) :
    decode32 w = (decodeMajor39 w).elim (.error .reservedField) .ok := by
  unfold decode32; rw [h]; rfl
theorem major3A (w : Nat) (h : bits w 1 6 = 0x3A) :
    decode32 w = (decodeMajor3A w).elim (.error .reservedField) .ok := by
  unfold decode32; rw [h]; rfl
theorem major3B (w : Nat) (h : bits w 1 6 = 0x3B) :
    decode32 w = (decodeMajor3B w).elim (.error .reservedField) .ok := by
  unfold decode32; rw [h]; rfl
theorem major3C (w : Nat) (h : bits w 1 6 = 0x3C) :
    decode32 w = (decodeMajor3C w).elim (.error .reservedField) .ok := by
  unfold decode32; rw [h]; rfl
theorem major3D (w : Nat) (h : bits w 1 6 = 0x3D) :
    decode32 w = (decodeMajor3D w).elim (.error .reservedField) .ok := by
  unfold decode32; rw [h]; rfl
theorem major3E (w : Nat) (h : bits w 1 6 = 0x3E) :
    decode32 w = (decodeMajor3E w).elim (.error .reservedField) .ok := by
  unfold decode32; rw [h]; rfl
theorem major3F (w : Nat) (h : bits w 1 6 = 0x3F) :
    decode32 w = (decodeMajor3F w).elim (.error .reservedField) .ok := by
  unfold decode32; rw [h]; rfl
theorem half0 (w : Nat) (h : bits w 1 4 = 0) :
    decodeHalf w = .vadd16 (fld w 13 3) (fld w 9 4) (fld w 5 4) := by
  unfold decodeHalf; rw [h]; rfl
theorem half1 (w : Nat) (h : bits w 1 4 = 1) :
    decodeHalf w = .vsub16 (fld w 13 3) (fld w 9 4) (fld w 5 4) := by
  unfold decodeHalf; rw [h]; rfl
theorem half2 (w : Nat) (h : bits w 1 4 = 2) :
    decodeHalf w = .vrsub16 (fld w 13 3) (fld w 9 4) (fld w 5 4) := by
  unfold decodeHalf; rw [h]; rfl
theorem half3 (w : Nat) (h : bits w 1 4 = 3) :
    decodeHalf w = .vmul16 (fld w 13 3) (fld w 9 4) (fld w 5 4) := by
  unfold decodeHalf; rw [h]; rfl
theorem half4 (w : Nat) (h : bits w 1 4 = 4) :
    decodeHalf w = .vmin16 (fld w 13 3) (fld w 9 4) (fld w 5 4) := by
  unfold decodeHalf; rw [h]; rfl
theorem half5 (w : Nat) (h : bits w 1 4 = 5) :
    decodeHalf w = .vmax16 (fld w 13 3) (fld w 9 4) (fld w 5 4) := by
  unfold decodeHalf; rw [h]; rfl
theorem half6 (w : Nat) (h : bits w 1 4 = 6) :
    decodeHalf w = .vand16 (fld w 13 3) (fld w 9 4) (fld w 5 4) := by
  unfold decodeHalf; rw [h]; rfl
theorem half7 (w : Nat) (h : bits w 1 4 = 7) :
    decodeHalf w = .vor16 (fld w 13 3) (fld w 9 4) (fld w 5 4) := by
  unfold decodeHalf; rw [h]; rfl
theorem half8 (w : Nat) (h : bits w 1 4 = 8) :
    decodeHalf w = .vxor16 (fld w 13 3) (fld w 9 4) (fld w 5 4) := by
  unfold decodeHalf; rw [h]; rfl
theorem half9 (w : Nat) (h : bits w 1 4 = 9) :
    decodeHalf w = .vmov16 (fld w 13 3) (fld w 9 4) (fld w 5 4) := by
  unfold decodeHalf; rw [h]; rfl
theorem half10 (w : Nat) (h : bits w 1 4 = 10) :
    decodeHalf w = .vabs16 (fld w 13 3) (fld w 9 4) (fld w 5 4) := by
  unfold decodeHalf; rw [h]; rfl
theorem half11 (w : Nat) (h : bits w 1 4 = 11) :
    decodeHalf w = .vneg16 (fld w 13 3) (fld w 9 4) (fld w 5 4) := by
  unfold decodeHalf; rw [h]; rfl
theorem half12 (w : Nat) (h : bits w 1 4 = 12) :
    decodeHalf w = .vshl16 (fld w 13 3) (fld w 9 4) (fld w 5 4) := by
  unfold decodeHalf; rw [h]; rfl
theorem half13 (w : Nat) (h : bits w 1 4 = 13) :
    decodeHalf w = .vshr16 (fld w 13 3) (fld w 9 4) (fld w 5 4) := by
  unfold decodeHalf; rw [h]; rfl
theorem half14 (w : Nat) (h : bits w 1 4 = 14) :
    decodeHalf w = .vsra16 (fld w 13 3) (fld w 9 4) (fld w 5 4) := by
  unfold decodeHalf; rw [h]; rfl
theorem half15 (w : Nat) (h : bits w 1 4 = 15) :
    decodeHalf w = .vfmak16 (fld w 13 3) (fld w 9 4) (fld w 5 4) := by
  unfold decodeHalf; rw [h]; rfl
theorem add (z : BitVec 1) (y : BitVec 1) (x : BitVec 1) (b : BitVec 5) (a : BitVec 5) (d : BitVec 5) : Statement (.add z y x b a d) := by
  refine fun _ _ => .inr ⟨rfl, pack_lt' _ _ rfl, pack_odd _ _, ?_⟩
  show decode32 (pack [⟨1, 1⟩, ⟨6, 0⟩, ⟨5, d⟩, ⟨5, a⟩, ⟨5, b⟩, ⟨1, x⟩, ⟨1, y⟩, ⟨1, z⟩, ⟨2, 0⟩, ⟨5, 0⟩]) = .ok (.add z y x b a d)
  rw [major00 _ (by simp [bits_tail, bits_head])]
  simp [decodeMajor00, bits_tail, bits_head, fld_head, fld_tail]
theorem sub (z : BitVec 1) (y : BitVec 1) (x : BitVec 1) (b : BitVec 5) (a : BitVec 5) (d : BitVec 5) : Statement (.sub z y x b a d) := by
  refine fun _ _ => .inr ⟨rfl, pack_lt' _ _ rfl, pack_odd _ _, ?_⟩
  show decode32 (pack [⟨1, 1⟩, ⟨6, 0⟩, ⟨5, d⟩, ⟨5, a⟩, ⟨5, b⟩, ⟨1, x⟩, ⟨1, y⟩, ⟨1, z⟩, ⟨2, 0⟩, ⟨5, 1⟩]) = .ok (.sub z y x b a d)
  rw [major00 _ (by simp [bits_tail, bits_head])]
  simp [decodeMajor00, bits_tail, bits_head, fld_head, fld_tail]
theorem and (z : BitVec 1) (y : BitVec 1) (x : BitVec 1) (b : BitVec 5) (a : BitVec 5) (d : BitVec 5) : Statement (.and z y x b a d) := by
  refine fun _ _ => .inr ⟨rfl, pack_lt' _ _ rfl, pack_odd _ _, ?_⟩
  show decode32 (pack [⟨1, 1⟩, ⟨6, 0⟩, ⟨5, d⟩, ⟨5, a⟩, ⟨5, b⟩, ⟨1, x⟩, ⟨1, y⟩, ⟨1, z⟩, ⟨2, 0⟩, ⟨5, 2⟩]) = .ok (.and z y x b a d)
  rw [major00 _ (by simp [bits_tail, bits_head])]
  simp [decodeMajor00, bits_tail, bits_head, fld_head, fld_tail]
theorem or (z : BitVec 1) (y : BitVec 1) (x : BitVec 1) (b : BitVec 5) (a : BitVec 5) (d : BitVec 5) : Statement (.or z y x b a d) := by
  refine fun _ _ => .inr ⟨rfl, pack_lt' _ _ rfl, pack_odd _ _, ?_⟩
  show decode32 (pack [⟨1, 1⟩, ⟨6, 0⟩, ⟨5, d⟩, ⟨5, a⟩, ⟨5, b⟩, ⟨1, x⟩, ⟨1, y⟩, ⟨1, z⟩, ⟨2, 0⟩, ⟨5, 3⟩]) = .ok (.or z y x b a d)
  rw [major00 _ (by simp [bits_tail, bits_head])]
  simp [decodeMajor00, bits_tail, bits_head, fld_head, fld_tail]
theorem xor (z : BitVec 1) (y : BitVec 1) (x : BitVec 1) (b : BitVec 5) (a : BitVec 5) (d : BitVec 5) : Statement (.xor z y x b a d) := by
  refine fun _ _ => .inr ⟨rfl, pack_lt' _ _ rfl, pack_odd _ _, ?_⟩
  show decode32 (pack [⟨1, 1⟩, ⟨6, 0⟩, ⟨5, d⟩, ⟨5, a⟩, ⟨5, b⟩, ⟨1, x⟩, ⟨1, y⟩, ⟨1, z⟩, ⟨2, 0⟩, ⟨5, 4⟩]) = .ok (.xor z y x b a d)
  rw [major00 _ (by simp [bits_tail, bits_head])]
  simp [decodeMajor00, bits_tail, bits_head, fld_head, fld_tail]
theorem andn (z : BitVec 1) (y : BitVec 1) (x : BitVec 1) (b : BitVec 5) (a : BitVec 5) (d : BitVec 5) : Statement (.andn z y x b a d) := by
  refine fun _ _ => .inr ⟨rfl, pack_lt' _ _ rfl, pack_odd _ _, ?_⟩
  show decode32 (pack [⟨1, 1⟩, ⟨6, 0⟩, ⟨5, d⟩, ⟨5, a⟩, ⟨5, b⟩, ⟨1, x⟩, ⟨1, y⟩, ⟨1, z⟩, ⟨2, 0⟩, ⟨5, 5⟩]) = .ok (.andn z y x b a d)
  rw [major00 _ (by simp [bits_tail, bits_head])]
  simp [decodeMajor00, bits_tail, bits_head, fld_head, fld_tail]
theorem shl (z : BitVec 1) (y : BitVec 1) (x : BitVec 1) (b : BitVec 5) (a : BitVec 5) (d : BitVec 5) : Statement (.shl z y x b a d) := by
  refine fun _ _ => .inr ⟨rfl, pack_lt' _ _ rfl, pack_odd _ _, ?_⟩
  show decode32 (pack [⟨1, 1⟩, ⟨6, 0⟩, ⟨5, d⟩, ⟨5, a⟩, ⟨5, b⟩, ⟨1, x⟩, ⟨1, y⟩, ⟨1, z⟩, ⟨2, 0⟩, ⟨5, 6⟩]) = .ok (.shl z y x b a d)
  rw [major00 _ (by simp [bits_tail, bits_head])]
  simp [decodeMajor00, bits_tail, bits_head, fld_head, fld_tail]
theorem shr (z : BitVec 1) (y : BitVec 1) (x : BitVec 1) (b : BitVec 5) (a : BitVec 5) (d : BitVec 5) : Statement (.shr z y x b a d) := by
  refine fun _ _ => .inr ⟨rfl, pack_lt' _ _ rfl, pack_odd _ _, ?_⟩
  show decode32 (pack [⟨1, 1⟩, ⟨6, 0⟩, ⟨5, d⟩, ⟨5, a⟩, ⟨5, b⟩, ⟨1, x⟩, ⟨1, y⟩, ⟨1, z⟩, ⟨2, 0⟩, ⟨5, 7⟩]) = .ok (.shr z y x b a d)
  rw [major00 _ (by simp [bits_tail, bits_head])]
  simp [decodeMajor00, bits_tail, bits_head, fld_head, fld_tail]
theorem sra (z : BitVec 1) (y : BitVec 1) (x : BitVec 1) (b : BitVec 5) (a : BitVec 5) (d : BitVec 5) : Statement (.sra z y x b a d) := by
  refine fun _ _ => .inr ⟨rfl, pack_lt' _ _ rfl, pack_odd _ _, ?_⟩
  show decode32 (pack [⟨1, 1⟩, ⟨6, 0⟩, ⟨5, d⟩, ⟨5, a⟩, ⟨5, b⟩, ⟨1, x⟩, ⟨1, y⟩, ⟨1, z⟩, ⟨2, 0⟩, ⟨5, 8⟩]) = .ok (.sra z y x b a d)
  rw [major00 _ (by simp [bits_tail, bits_head])]
  simp [decodeMajor00, bits_tail, bits_head, fld_head, fld_tail]
theorem mul (z : BitVec 1) (y : BitVec 1) (x : BitVec 1) (b : BitVec 5) (a : BitVec 5) (d : BitVec 5) : Statement (.mul z y x b a d) := by
  refine fun _ _ => .inr ⟨rfl, pack_lt' _ _ rfl, pack_odd _ _, ?_⟩
  show decode32 (pack [⟨1, 1⟩, ⟨6, 0⟩, ⟨5, d⟩, ⟨5, a⟩, ⟨5, b⟩, ⟨1, x⟩, ⟨1, y⟩, ⟨1, z⟩, ⟨2, 0⟩, ⟨5, 9⟩]) = .ok (.mul z y x b a d)
  rw [major00 _ (by simp [bits_tail, bits_head])]
  simp [decodeMajor00, bits_tail, bits_head, fld_head, fld_tail]
theorem mulh (z : BitVec 1) (y : BitVec 1) (x : BitVec 1) (b : BitVec 5) (a : BitVec 5) (d : BitVec 5) : Statement (.mulh z y x b a d) := by
  refine fun _ _ => .inr ⟨rfl, pack_lt' _ _ rfl, pack_odd _ _, ?_⟩
  show decode32 (pack [⟨1, 1⟩, ⟨6, 0⟩, ⟨5, d⟩, ⟨5, a⟩, ⟨5, b⟩, ⟨1, x⟩, ⟨1, y⟩, ⟨1, z⟩, ⟨2, 0⟩, ⟨5, 10⟩]) = .ok (.mulh z y x b a d)
  rw [major00 _ (by simp [bits_tail, bits_head])]
  simp [decodeMajor00, bits_tail, bits_head, fld_head, fld_tail]
theorem mulhn (z : BitVec 1) (y : BitVec 1) (x : BitVec 1) (b : BitVec 5) (a : BitVec 5) (d : BitVec 5) : Statement (.mulhn z y x b a d) := by
  refine fun _ _ => .inr ⟨rfl, pack_lt' _ _ rfl, pack_odd _ _, ?_⟩
  show decode32 (pack [⟨1, 1⟩, ⟨6, 0⟩, ⟨5, d⟩, ⟨5, a⟩, ⟨5, b⟩, ⟨1, x⟩, ⟨1, y⟩, ⟨1, z⟩, ⟨2, 0⟩, ⟨5, 11⟩]) = .ok (.mulhn z y x b a d)
  rw [major00 _ (by simp [bits_tail, bits_head])]
  simp [decodeMajor00, bits_tail, bits_head, fld_head, fld_tail]
theorem div (z : BitVec 1) (y : BitVec 1) (x : BitVec 1) (b : BitVec 5) (a : BitVec 5) (d : BitVec 5) : Statement (.div z y x b a d) := by
  refine fun _ _ => .inr ⟨rfl, pack_lt' _ _ rfl, pack_odd _ _, ?_⟩
  show decode32 (pack [⟨1, 1⟩, ⟨6, 0⟩, ⟨5, d⟩, ⟨5, a⟩, ⟨5, b⟩, ⟨1, x⟩, ⟨1, y⟩, ⟨1, z⟩, ⟨2, 0⟩, ⟨5, 12⟩]) = .ok (.div z y x b a d)
  rw [major00 _ (by simp [bits_tail, bits_head])]
  simp [decodeMajor00, bits_tail, bits_head, fld_head, fld_tail]
theorem divn (z : BitVec 1) (y : BitVec 1) (x : BitVec 1) (b : BitVec 5) (a : BitVec 5) (d : BitVec 5) : Statement (.divn z y x b a d) := by
  refine fun _ _ => .inr ⟨rfl, pack_lt' _ _ rfl, pack_odd _ _, ?_⟩
  show decode32 (pack [⟨1, 1⟩, ⟨6, 0⟩, ⟨5, d⟩, ⟨5, a⟩, ⟨5, b⟩, ⟨1, x⟩, ⟨1, y⟩, ⟨1, z⟩, ⟨2, 0⟩, ⟨5, 13⟩]) = .ok (.divn z y x b a d)
  rw [major00 _ (by simp [bits_tail, bits_head])]
  simp [decodeMajor00, bits_tail, bits_head, fld_head, fld_tail]
theorem rem (z : BitVec 1) (y : BitVec 1) (x : BitVec 1) (b : BitVec 5) (a : BitVec 5) (d : BitVec 5) : Statement (.rem z y x b a d) := by
  refine fun _ _ => .inr ⟨rfl, pack_lt' _ _ rfl, pack_odd _ _, ?_⟩
  show decode32 (pack [⟨1, 1⟩, ⟨6, 0⟩, ⟨5, d⟩, ⟨5, a⟩, ⟨5, b⟩, ⟨1, x⟩, ⟨1, y⟩, ⟨1, z⟩, ⟨2, 0⟩, ⟨5, 14⟩]) = .ok (.rem z y x b a d)
  rw [major00 _ (by simp [bits_tail, bits_head])]
  simp [decodeMajor00, bits_tail, bits_head, fld_head, fld_tail]
theorem remn (z : BitVec 1) (y : BitVec 1) (x : BitVec 1) (b : BitVec 5) (a : BitVec 5) (d : BitVec 5) : Statement (.remn z y x b a d) := by
  refine fun _ _ => .inr ⟨rfl, pack_lt' _ _ rfl, pack_odd _ _, ?_⟩
  show decode32 (pack [⟨1, 1⟩, ⟨6, 0⟩, ⟨5, d⟩, ⟨5, a⟩, ⟨5, b⟩, ⟨1, x⟩, ⟨1, y⟩, ⟨1, z⟩, ⟨2, 0⟩, ⟨5, 15⟩]) = .ok (.remn z y x b a d)
  rw [major00 _ (by simp [bits_tail, bits_head])]
  simp [decodeMajor00, bits_tail, bits_head, fld_head, fld_tail]
theorem min (z : BitVec 1) (y : BitVec 1) (x : BitVec 1) (b : BitVec 5) (a : BitVec 5) (d : BitVec 5) : Statement (.min z y x b a d) := by
  refine fun _ _ => .inr ⟨rfl, pack_lt' _ _ rfl, pack_odd _ _, ?_⟩
  show decode32 (pack [⟨1, 1⟩, ⟨6, 0⟩, ⟨5, d⟩, ⟨5, a⟩, ⟨5, b⟩, ⟨1, x⟩, ⟨1, y⟩, ⟨1, z⟩, ⟨2, 0⟩, ⟨5, 16⟩]) = .ok (.min z y x b a d)
  rw [major00 _ (by simp [bits_tail, bits_head])]
  simp [decodeMajor00, bits_tail, bits_head, fld_head, fld_tail]
theorem max (z : BitVec 1) (y : BitVec 1) (x : BitVec 1) (b : BitVec 5) (a : BitVec 5) (d : BitVec 5) : Statement (.max z y x b a d) := by
  refine fun _ _ => .inr ⟨rfl, pack_lt' _ _ rfl, pack_odd _ _, ?_⟩
  show decode32 (pack [⟨1, 1⟩, ⟨6, 0⟩, ⟨5, d⟩, ⟨5, a⟩, ⟨5, b⟩, ⟨1, x⟩, ⟨1, y⟩, ⟨1, z⟩, ⟨2, 0⟩, ⟨5, 17⟩]) = .ok (.max z y x b a d)
  rw [major00 _ (by simp [bits_tail, bits_head])]
  simp [decodeMajor00, bits_tail, bits_head, fld_head, fld_tail]
theorem minn (z : BitVec 1) (y : BitVec 1) (x : BitVec 1) (b : BitVec 5) (a : BitVec 5) (d : BitVec 5) : Statement (.minn z y x b a d) := by
  refine fun _ _ => .inr ⟨rfl, pack_lt' _ _ rfl, pack_odd _ _, ?_⟩
  show decode32 (pack [⟨1, 1⟩, ⟨6, 0⟩, ⟨5, d⟩, ⟨5, a⟩, ⟨5, b⟩, ⟨1, x⟩, ⟨1, y⟩, ⟨1, z⟩, ⟨2, 0⟩, ⟨5, 18⟩]) = .ok (.minn z y x b a d)
  rw [major00 _ (by simp [bits_tail, bits_head])]
  simp [decodeMajor00, bits_tail, bits_head, fld_head, fld_tail]
theorem maxn (z : BitVec 1) (y : BitVec 1) (x : BitVec 1) (b : BitVec 5) (a : BitVec 5) (d : BitVec 5) : Statement (.maxn z y x b a d) := by
  refine fun _ _ => .inr ⟨rfl, pack_lt' _ _ rfl, pack_odd _ _, ?_⟩
  show decode32 (pack [⟨1, 1⟩, ⟨6, 0⟩, ⟨5, d⟩, ⟨5, a⟩, ⟨5, b⟩, ⟨1, x⟩, ⟨1, y⟩, ⟨1, z⟩, ⟨2, 0⟩, ⟨5, 19⟩]) = .ok (.maxn z y x b a d)
  rw [major00 _ (by simp [bits_tail, bits_head])]
  simp [decodeMajor00, bits_tail, bits_head, fld_head, fld_tail]
theorem slt (z : BitVec 1) (y : BitVec 1) (x : BitVec 1) (b : BitVec 5) (a : BitVec 5) (d : BitVec 5) : Statement (.slt z y x b a d) := by
  refine fun _ _ => .inr ⟨rfl, pack_lt' _ _ rfl, pack_odd _ _, ?_⟩
  show decode32 (pack [⟨1, 1⟩, ⟨6, 0⟩, ⟨5, d⟩, ⟨5, a⟩, ⟨5, b⟩, ⟨1, x⟩, ⟨1, y⟩, ⟨1, z⟩, ⟨2, 0⟩, ⟨5, 20⟩]) = .ok (.slt z y x b a d)
  rw [major00 _ (by simp [bits_tail, bits_head])]
  simp [decodeMajor00, bits_tail, bits_head, fld_head, fld_tail]
theorem sltn (z : BitVec 1) (y : BitVec 1) (x : BitVec 1) (b : BitVec 5) (a : BitVec 5) (d : BitVec 5) : Statement (.sltn z y x b a d) := by
  refine fun _ _ => .inr ⟨rfl, pack_lt' _ _ rfl, pack_odd _ _, ?_⟩
  show decode32 (pack [⟨1, 1⟩, ⟨6, 0⟩, ⟨5, d⟩, ⟨5, a⟩, ⟨5, b⟩, ⟨1, x⟩, ⟨1, y⟩, ⟨1, z⟩, ⟨2, 0⟩, ⟨5, 21⟩]) = .ok (.sltn z y x b a d)
  rw [major00 _ (by simp [bits_tail, bits_head])]
  simp [decodeMajor00, bits_tail, bits_head, fld_head, fld_tail]
theorem seq (z : BitVec 1) (y : BitVec 1) (x : BitVec 1) (b : BitVec 5) (a : BitVec 5) (d : BitVec 5) : Statement (.seq z y x b a d) := by
  refine fun _ _ => .inr ⟨rfl, pack_lt' _ _ rfl, pack_odd _ _, ?_⟩
  show decode32 (pack [⟨1, 1⟩, ⟨6, 0⟩, ⟨5, d⟩, ⟨5, a⟩, ⟨5, b⟩, ⟨1, x⟩, ⟨1, y⟩, ⟨1, z⟩, ⟨2, 0⟩, ⟨5, 22⟩]) = .ok (.seq z y x b a d)
  rw [major00 _ (by simp [bits_tail, bits_head])]
  simp [decodeMajor00, bits_tail, bits_head, fld_head, fld_tail]
theorem csel (z : BitVec 1) (y : BitVec 1) (b : BitVec 5) (a : BitVec 5) (d : BitVec 5) : Statement (.csel z y b a d) := by
  refine fun _ _ => .inr ⟨rfl, pack_lt' _ _ rfl, pack_odd _ _, ?_⟩
  show decode32 (pack [⟨1, 1⟩, ⟨6, 0⟩, ⟨5, d⟩, ⟨5, a⟩, ⟨5, b⟩, ⟨1, 0⟩, ⟨1, y⟩, ⟨1, z⟩, ⟨2, 0⟩, ⟨5, 23⟩]) = .ok (.csel z y b a d)
  rw [major00 _ (by simp [bits_tail, bits_head])]
  simp [decodeMajor00, bits_tail, bits_head, fld_head, fld_tail]
theorem clz (y : BitVec 1) (x : BitVec 1) (a : BitVec 5) (d : BitVec 5) : Statement (.clz y x a d) := by
  refine fun _ _ => .inr ⟨rfl, pack_lt' _ _ rfl, pack_odd _ _, ?_⟩
  show decode32 (pack [⟨1, 1⟩, ⟨6, 0⟩, ⟨5, d⟩, ⟨5, a⟩, ⟨5, 0⟩, ⟨1, x⟩, ⟨1, y⟩, ⟨1, 0⟩, ⟨2, 0⟩, ⟨5, 24⟩]) = .ok (.clz y x a d)
  rw [major00 _ (by simp [bits_tail, bits_head])]
  simp [decodeMajor00, bits_tail, bits_head, fld_head, fld_tail]
theorem ctz (y : BitVec 1) (x : BitVec 1) (a : BitVec 5) (d : BitVec 5) : Statement (.ctz y x a d) := by
  refine fun _ _ => .inr ⟨rfl, pack_lt' _ _ rfl, pack_odd _ _, ?_⟩
  show decode32 (pack [⟨1, 1⟩, ⟨6, 0⟩, ⟨5, d⟩, ⟨5, a⟩, ⟨5, 0⟩, ⟨1, x⟩, ⟨1, y⟩, ⟨1, 0⟩, ⟨2, 0⟩, ⟨5, 25⟩]) = .ok (.ctz y x a d)
  rw [major00 _ (by simp [bits_tail, bits_head])]
  simp [decodeMajor00, bits_tail, bits_head, fld_head, fld_tail]
theorem popc (y : BitVec 1) (x : BitVec 1) (a : BitVec 5) (d : BitVec 5) : Statement (.popc y x a d) := by
  refine fun _ _ => .inr ⟨rfl, pack_lt' _ _ rfl, pack_odd _ _, ?_⟩
  show decode32 (pack [⟨1, 1⟩, ⟨6, 0⟩, ⟨5, d⟩, ⟨5, a⟩, ⟨5, 0⟩, ⟨1, x⟩, ⟨1, y⟩, ⟨1, 0⟩, ⟨2, 0⟩, ⟨5, 26⟩]) = .ok (.popc y x a d)
  rw [major00 _ (by simp [bits_tail, bits_head])]
  simp [decodeMajor00, bits_tail, bits_head, fld_head, fld_tail]
theorem sext (w : BitVec 2) (y : BitVec 1) (x : BitVec 1) (a : BitVec 5) (d : BitVec 5) : Statement (.sext w y x a d) := by
  refine fun _ _ => .inr ⟨rfl, pack_lt' _ _ rfl, pack_odd _ _, ?_⟩
  show decode32 (pack [⟨1, 1⟩, ⟨6, 0⟩, ⟨5, d⟩, ⟨5, a⟩, ⟨5, 0⟩, ⟨1, x⟩, ⟨1, y⟩, ⟨1, 0⟩, ⟨2, w⟩, ⟨5, 27⟩]) = .ok (.sext w y x a d)
  rw [major00 _ (by simp [bits_tail, bits_head])]
  simp [decodeMajor00, bits_tail, bits_head, fld_head, fld_tail]
theorem zext (w : BitVec 2) (y : BitVec 1) (x : BitVec 1) (a : BitVec 5) (d : BitVec 5) : Statement (.zext w y x a d) := by
  refine fun _ _ => .inr ⟨rfl, pack_lt' _ _ rfl, pack_odd _ _, ?_⟩
  show decode32 (pack [⟨1, 1⟩, ⟨6, 0⟩, ⟨5, d⟩, ⟨5, a⟩, ⟨5, 0⟩, ⟨1, x⟩, ⟨1, y⟩, ⟨1, 0⟩, ⟨2, w⟩, ⟨5, 28⟩]) = .ok (.zext w y x a d)
  rw [major00 _ (by simp [bits_tail, bits_head])]
  simp [decodeMajor00, bits_tail, bits_head, fld_head, fld_tail]
theorem addi (i : BitVec 12) (a : BitVec 5) (d : BitVec 5) : Statement (.addi i a d) := by
  refine fun _ _ => .inr ⟨rfl, pack_lt' _ _ rfl, pack_odd _ _, ?_⟩
  show decode32 (pack [⟨1, 1⟩, ⟨6, 1⟩, ⟨5, d⟩, ⟨5, a⟩, ⟨12, i⟩, ⟨3, 0⟩]) = .ok (.addi i a d)
  rw [major01 _ (by simp [bits_tail, bits_head])]
  simp [decodeMajor01, bits_tail, bits_head, fld_head, fld_tail]
theorem andi (i : BitVec 12) (a : BitVec 5) (d : BitVec 5) : Statement (.andi i a d) := by
  refine fun _ _ => .inr ⟨rfl, pack_lt' _ _ rfl, pack_odd _ _, ?_⟩
  show decode32 (pack [⟨1, 1⟩, ⟨6, 1⟩, ⟨5, d⟩, ⟨5, a⟩, ⟨12, i⟩, ⟨3, 1⟩]) = .ok (.andi i a d)
  rw [major01 _ (by simp [bits_tail, bits_head])]
  simp [decodeMajor01, bits_tail, bits_head, fld_head, fld_tail]
theorem ori (i : BitVec 12) (a : BitVec 5) (d : BitVec 5) : Statement (.ori i a d) := by
  refine fun _ _ => .inr ⟨rfl, pack_lt' _ _ rfl, pack_odd _ _, ?_⟩
  show decode32 (pack [⟨1, 1⟩, ⟨6, 1⟩, ⟨5, d⟩, ⟨5, a⟩, ⟨12, i⟩, ⟨3, 2⟩]) = .ok (.ori i a d)
  rw [major01 _ (by simp [bits_tail, bits_head])]
  simp [decodeMajor01, bits_tail, bits_head, fld_head, fld_tail]
theorem xori (i : BitVec 12) (a : BitVec 5) (d : BitVec 5) : Statement (.xori i a d) := by
  refine fun _ _ => .inr ⟨rfl, pack_lt' _ _ rfl, pack_odd _ _, ?_⟩
  show decode32 (pack [⟨1, 1⟩, ⟨6, 1⟩, ⟨5, d⟩, ⟨5, a⟩, ⟨12, i⟩, ⟨3, 3⟩]) = .ok (.xori i a d)
  rw [major01 _ (by simp [bits_tail, bits_head])]
  simp [decodeMajor01, bits_tail, bits_head, fld_head, fld_tail]
theorem shli (i : BitVec 12) (a : BitVec 5) (d : BitVec 5) : Statement (.shli i a d) := by
  refine fun _ _ => .inr ⟨rfl, pack_lt' _ _ rfl, pack_odd _ _, ?_⟩
  show decode32 (pack [⟨1, 1⟩, ⟨6, 1⟩, ⟨5, d⟩, ⟨5, a⟩, ⟨12, i⟩, ⟨3, 4⟩]) = .ok (.shli i a d)
  rw [major01 _ (by simp [bits_tail, bits_head])]
  simp [decodeMajor01, bits_tail, bits_head, fld_head, fld_tail]
theorem shri (i : BitVec 12) (a : BitVec 5) (d : BitVec 5) : Statement (.shri i a d) := by
  refine fun _ _ => .inr ⟨rfl, pack_lt' _ _ rfl, pack_odd _ _, ?_⟩
  show decode32 (pack [⟨1, 1⟩, ⟨6, 1⟩, ⟨5, d⟩, ⟨5, a⟩, ⟨12, i⟩, ⟨3, 5⟩]) = .ok (.shri i a d)
  rw [major01 _ (by simp [bits_tail, bits_head])]
  simp [decodeMajor01, bits_tail, bits_head, fld_head, fld_tail]
theorem srai (i : BitVec 12) (a : BitVec 5) (d : BitVec 5) : Statement (.srai i a d) := by
  refine fun _ _ => .inr ⟨rfl, pack_lt' _ _ rfl, pack_odd _ _, ?_⟩
  show decode32 (pack [⟨1, 1⟩, ⟨6, 1⟩, ⟨5, d⟩, ⟨5, a⟩, ⟨12, i⟩, ⟨3, 6⟩]) = .ok (.srai i a d)
  rw [major01 _ (by simp [bits_tail, bits_head])]
  simp [decodeMajor01, bits_tail, bits_head, fld_head, fld_tail]
theorem slti (i : BitVec 12) (a : BitVec 5) (d : BitVec 5) : Statement (.slti i a d) := by
  refine fun _ _ => .inr ⟨rfl, pack_lt' _ _ rfl, pack_odd _ _, ?_⟩
  show decode32 (pack [⟨1, 1⟩, ⟨6, 1⟩, ⟨5, d⟩, ⟨5, a⟩, ⟨12, i⟩, ⟨3, 7⟩]) = .ok (.slti i a d)
  rw [major01 _ (by simp [bits_tail, bits_head])]
  simp [decodeMajor01, bits_tail, bits_head, fld_head, fld_tail]
theorem lui (i : BitVec 20) (d : BitVec 5) : Statement (.lui i d) := by
  refine fun _ _ => .inr ⟨rfl, pack_lt' _ _ rfl, pack_odd _ _, ?_⟩
  show decode32 (pack [⟨1, 1⟩, ⟨6, 2⟩, ⟨5, d⟩, ⟨20, i⟩]) = .ok (.lui i d)
  rw [major02 _ (by simp [bits_tail, bits_head])]
  simp [decodeMajor02, bits_tail, bits_head, fld_head, fld_tail]
theorem addpc (i : BitVec 20) (d : BitVec 5) : Statement (.addpc i d) := by
  refine fun _ _ => .inr ⟨rfl, pack_lt' _ _ rfl, pack_odd _ _, ?_⟩
  show decode32 (pack [⟨1, 1⟩, ⟨6, 3⟩, ⟨5, d⟩, ⟨20, i⟩]) = .ok (.addpc i d)
  rw [major03 _ (by simp [bits_tail, bits_head])]
  simp [decodeMajor03, bits_tail, bits_head, fld_head, fld_tail]
theorem ld (s : BitVec 3) (i : BitVec 12) (a : BitVec 5) (d : BitVec 5) : Statement (.ld s i a d) := by
  refine fun _ _ => .inr ⟨rfl, pack_lt' _ _ rfl, pack_odd _ _, ?_⟩
  show decode32 (pack [⟨1, 1⟩, ⟨6, 16⟩, ⟨5, d⟩, ⟨5, a⟩, ⟨12, i⟩, ⟨3, s⟩]) = .ok (.ld s i a d)
  rw [major10 _ (by simp [bits_tail, bits_head])]
  simp [decodeMajor10, bits_tail, bits_head, fld_head, fld_tail]
theorem st (s : BitVec 2) (i : BitVec 12) (a : BitVec 5) (c : BitVec 5) : Statement (.st s i a c) := by
  refine fun _ _ => .inr ⟨rfl, pack_lt' _ _ rfl, pack_odd _ _, ?_⟩
  show decode32 (pack [⟨1, 1⟩, ⟨6, 17⟩, ⟨5, c⟩, ⟨5, a⟩, ⟨12, i⟩, ⟨2, s⟩, ⟨1, 0⟩]) = .ok (.st s i a c)
  rw [major11 _ (by simp [bits_tail, bits_head])]
  simp [decodeMajor11, bits_tail, bits_head, fld_head, fld_tail]
theorem ldx (s : BitVec 3) (z : BitVec 1) (y : BitVec 1) (x : BitVec 1) (b : BitVec 5) (a : BitVec 5) (d : BitVec 5) : Statement (.ldx s z y x b a d) := by
  refine fun _ _ => .inr ⟨rfl, pack_lt' _ _ rfl, pack_odd _ _, ?_⟩
  show decode32 (pack [⟨1, 1⟩, ⟨6, 18⟩, ⟨5, d⟩, ⟨5, a⟩, ⟨5, b⟩, ⟨1, x⟩, ⟨1, y⟩, ⟨1, z⟩, ⟨2, 0⟩, ⟨3, s⟩, ⟨2, 0⟩]) = .ok (.ldx s z y x b a d)
  rw [major12 _ (by simp [bits_tail, bits_head])]
  simp [decodeMajor12, bits_tail, bits_head, fld_head, fld_tail]
theorem stx (s : BitVec 2) (z : BitVec 1) (y : BitVec 1) (x : BitVec 1) (b : BitVec 5) (a : BitVec 5) (c : BitVec 5) : Statement (.stx s z y x b a c) := by
  refine fun _ _ => .inr ⟨rfl, pack_lt' _ _ rfl, pack_odd _ _, ?_⟩
  show decode32 (pack [⟨1, 1⟩, ⟨6, 18⟩, ⟨5, c⟩, ⟨5, a⟩, ⟨5, b⟩, ⟨1, x⟩, ⟨1, y⟩, ⟨1, z⟩, ⟨2, 0⟩, ⟨2, s⟩, ⟨1, 0⟩, ⟨2, 1⟩]) = .ok (.stx s z y x b a c)
  rw [major12 _ (by simp [bits_tail, bits_head])]
  simp [decodeMajor12, bits_tail, bits_head, fld_head, fld_tail]
theorem pref (i : BitVec 12) (a : BitVec 5) : Statement (.pref i a) := by
  refine fun _ _ => .inr ⟨rfl, pack_lt' _ _ rfl, pack_odd _ _, ?_⟩
  show decode32 (pack [⟨1, 1⟩, ⟨6, 19⟩, ⟨5, 0⟩, ⟨5, a⟩, ⟨12, i⟩, ⟨3, 0⟩]) = .ok (.pref i a)
  rw [major13 _ (by simp [bits_tail, bits_head])]
  simp [decodeMajor13, bits_tail, bits_head, fld_head, fld_tail]
theorem alloc (t : BitVec 12) (a : BitVec 5) (d : BitVec 5) : Statement (.alloc t a d) := by
  refine fun _ _ => .inr ⟨rfl, pack_lt' _ _ rfl, pack_odd _ _, ?_⟩
  show decode32 (pack [⟨1, 1⟩, ⟨6, 20⟩, ⟨5, d⟩, ⟨5, a⟩, ⟨12, t⟩, ⟨3, 0⟩]) = .ok (.alloc t a d)
  rw [major14 _ (by simp [bits_tail, bits_head])]
  simp [decodeMajor14, bits_tail, bits_head, fld_head, fld_tail]
theorem free (a : BitVec 5) (d : BitVec 5) : Statement (.free a d) := by
  refine fun _ _ => .inr ⟨rfl, pack_lt' _ _ rfl, pack_odd _ _, ?_⟩
  show decode32 (pack [⟨1, 1⟩, ⟨6, 20⟩, ⟨5, d⟩, ⟨5, a⟩, ⟨12, 0⟩, ⟨3, 1⟩]) = .ok (.free a d)
  rw [major14 _ (by simp [bits_tail, bits_head])]
  simp [decodeMajor14, bits_tail, bits_head, fld_head, fld_tail]
theorem beq (h : BitVec 1) (i : BitVec 11) (b : BitVec 5) (a : BitVec 5) : Statement (.beq h i b a) := by
  refine fun _ _ => .inr ⟨rfl, pack_lt' _ _ rfl, pack_odd _ _, ?_⟩
  show decode32 (pack [⟨1, 1⟩, ⟨6, 24⟩, ⟨5, a⟩, ⟨5, b⟩, ⟨3, 0⟩, ⟨11, i⟩, ⟨1, h⟩]) = .ok (.beq h i b a)
  rw [major18 _ (by simp [bits_tail, bits_head])]
  simp [decodeMajor18, bits_tail, bits_head, fld_head, fld_tail]
theorem bne (h : BitVec 1) (i : BitVec 11) (b : BitVec 5) (a : BitVec 5) : Statement (.bne h i b a) := by
  refine fun _ _ => .inr ⟨rfl, pack_lt' _ _ rfl, pack_odd _ _, ?_⟩
  show decode32 (pack [⟨1, 1⟩, ⟨6, 24⟩, ⟨5, a⟩, ⟨5, b⟩, ⟨3, 1⟩, ⟨11, i⟩, ⟨1, h⟩]) = .ok (.bne h i b a)
  rw [major18 _ (by simp [bits_tail, bits_head])]
  simp [decodeMajor18, bits_tail, bits_head, fld_head, fld_tail]
theorem blt (h : BitVec 1) (i : BitVec 11) (b : BitVec 5) (a : BitVec 5) : Statement (.blt h i b a) := by
  refine fun _ _ => .inr ⟨rfl, pack_lt' _ _ rfl, pack_odd _ _, ?_⟩
  show decode32 (pack [⟨1, 1⟩, ⟨6, 24⟩, ⟨5, a⟩, ⟨5, b⟩, ⟨3, 2⟩, ⟨11, i⟩, ⟨1, h⟩]) = .ok (.blt h i b a)
  rw [major18 _ (by simp [bits_tail, bits_head])]
  simp [decodeMajor18, bits_tail, bits_head, fld_head, fld_tail]
theorem bge (h : BitVec 1) (i : BitVec 11) (b : BitVec 5) (a : BitVec 5) : Statement (.bge h i b a) := by
  refine fun _ _ => .inr ⟨rfl, pack_lt' _ _ rfl, pack_odd _ _, ?_⟩
  show decode32 (pack [⟨1, 1⟩, ⟨6, 24⟩, ⟨5, a⟩, ⟨5, b⟩, ⟨3, 3⟩, ⟨11, i⟩, ⟨1, h⟩]) = .ok (.bge h i b a)
  rw [major18 _ (by simp [bits_tail, bits_head])]
  simp [decodeMajor18, bits_tail, bits_head, fld_head, fld_tail]
theorem bltn (h : BitVec 1) (i : BitVec 11) (b : BitVec 5) (a : BitVec 5) : Statement (.bltn h i b a) := by
  refine fun _ _ => .inr ⟨rfl, pack_lt' _ _ rfl, pack_odd _ _, ?_⟩
  show decode32 (pack [⟨1, 1⟩, ⟨6, 24⟩, ⟨5, a⟩, ⟨5, b⟩, ⟨3, 4⟩, ⟨11, i⟩, ⟨1, h⟩]) = .ok (.bltn h i b a)
  rw [major18 _ (by simp [bits_tail, bits_head])]
  simp [decodeMajor18, bits_tail, bits_head, fld_head, fld_tail]
theorem bgen (h : BitVec 1) (i : BitVec 11) (b : BitVec 5) (a : BitVec 5) : Statement (.bgen h i b a) := by
  refine fun _ _ => .inr ⟨rfl, pack_lt' _ _ rfl, pack_odd _ _, ?_⟩
  show decode32 (pack [⟨1, 1⟩, ⟨6, 24⟩, ⟨5, a⟩, ⟨5, b⟩, ⟨3, 5⟩, ⟨11, i⟩, ⟨1, h⟩]) = .ok (.bgen h i b a)
  rw [major18 _ (by simp [bits_tail, bits_head])]
  simp [decodeMajor18, bits_tail, bits_head, fld_head, fld_tail]
theorem loop (h : BitVec 1) (i : BitVec 11) (a : BitVec 5) : Statement (.loop h i a) := by
  refine fun _ _ => .inr ⟨rfl, pack_lt' _ _ rfl, pack_odd _ _, ?_⟩
  show decode32 (pack [⟨1, 1⟩, ⟨6, 24⟩, ⟨5, a⟩, ⟨5, 0⟩, ⟨3, 6⟩, ⟨11, i⟩, ⟨1, h⟩]) = .ok (.loop h i a)
  rw [major18 _ (by simp [bits_tail, bits_head])]
  simp [decodeMajor18, bits_tail, bits_head, fld_head, fld_tail]
theorem jal (i : BitVec 20) (d : BitVec 5) : Statement (.jal i d) := by
  refine fun _ _ => .inr ⟨rfl, pack_lt' _ _ rfl, pack_odd _ _, ?_⟩
  show decode32 (pack [⟨1, 1⟩, ⟨6, 25⟩, ⟨5, d⟩, ⟨20, i⟩]) = .ok (.jal i d)
  rw [major19 _ (by simp [bits_tail, bits_head])]
  simp [decodeMajor19, bits_tail, bits_head, fld_head, fld_tail]
theorem jalr (i : BitVec 12) (a : BitVec 5) (d : BitVec 5) : Statement (.jalr i a d) := by
  refine fun _ _ => .inr ⟨rfl, pack_lt' _ _ rfl, pack_odd _ _, ?_⟩
  show decode32 (pack [⟨1, 1⟩, ⟨6, 26⟩, ⟨5, d⟩, ⟨5, a⟩, ⟨12, i⟩, ⟨3, 0⟩]) = .ok (.jalr i a d)
  rw [major1A _ (by simp [bits_tail, bits_head])]
  simp [decodeMajor1A, bits_tail, bits_head, fld_head, fld_tail]
theorem realign (n : BitVec 12) : Statement (.realign n) := by
  refine fun _ _ => .inr ⟨rfl, pack_lt' _ _ rfl, pack_odd _ _, ?_⟩
  show decode32 (pack [⟨1, 1⟩, ⟨6, 27⟩, ⟨5, 0⟩, ⟨5, 0⟩, ⟨12, n⟩, ⟨3, 0⟩]) = .ok (.realign n)
  rw [major1B _ (by simp [bits_tail, bits_head])]
  simp [decodeMajor1B, bits_tail, bits_head, fld_head, fld_tail]
theorem fin : Statement (.fin) := by
  refine fun _ _ => .inr ⟨rfl, pack_lt' _ _ rfl, pack_odd _ _, ?_⟩
  show decode32 (pack [⟨1, 1⟩, ⟨6, 30⟩, ⟨5, 0⟩, ⟨5, 0⟩, ⟨3, 0⟩, ⟨2, 0⟩, ⟨4, 0⟩, ⟨3, 0⟩, ⟨3, 0⟩]) = .ok (.fin)
  rw [major1E _ (by simp [bits_tail, bits_head])]
  simp [decodeMajor1E, bits_tail, bits_head, fld_head, fld_tail]
theorem nop : Statement (.nop) := by
  refine fun _ _ => .inr ⟨rfl, pack_lt' _ _ rfl, pack_odd _ _, ?_⟩
  show decode32 (pack [⟨1, 1⟩, ⟨6, 31⟩, ⟨5, 0⟩, ⟨5, 0⟩, ⟨3, 0⟩, ⟨2, 0⟩, ⟨4, 0⟩, ⟨3, 0⟩, ⟨3, 0⟩]) = .ok (.nop)
  rw [major1F _ (by simp [bits_tail, bits_head])]
  simp [decodeMajor1F, bits_tail, bits_head, fld_head, fld_tail]
theorem vadd16 (m : BitVec 3) (s : BitVec 4) (d : BitVec 4) : Statement (.vadd16 m s d) := by
  refine fun _ _ => .inl ⟨rfl, pack_lt' _ _ rfl, pack_odd _ _, ?_⟩
  show decodeHalf (pack [⟨1, 0⟩, ⟨4, 0⟩, ⟨4, d⟩, ⟨4, s⟩, ⟨3, m⟩]) = (.vadd16 m s d)
  rw [half0 _ (by simp [bits_tail, bits_head])]
  simp [bits_tail, bits_head, fld_head, fld_tail]
theorem vsub16 (m : BitVec 3) (s : BitVec 4) (d : BitVec 4) : Statement (.vsub16 m s d) := by
  refine fun _ _ => .inl ⟨rfl, pack_lt' _ _ rfl, pack_odd _ _, ?_⟩
  show decodeHalf (pack [⟨1, 0⟩, ⟨4, 1⟩, ⟨4, d⟩, ⟨4, s⟩, ⟨3, m⟩]) = (.vsub16 m s d)
  rw [half1 _ (by simp [bits_tail, bits_head])]
  simp [bits_tail, bits_head, fld_head, fld_tail]
theorem vrsub16 (m : BitVec 3) (s : BitVec 4) (d : BitVec 4) : Statement (.vrsub16 m s d) := by
  refine fun _ _ => .inl ⟨rfl, pack_lt' _ _ rfl, pack_odd _ _, ?_⟩
  show decodeHalf (pack [⟨1, 0⟩, ⟨4, 2⟩, ⟨4, d⟩, ⟨4, s⟩, ⟨3, m⟩]) = (.vrsub16 m s d)
  rw [half2 _ (by simp [bits_tail, bits_head])]
  simp [bits_tail, bits_head, fld_head, fld_tail]
theorem vmul16 (m : BitVec 3) (s : BitVec 4) (d : BitVec 4) : Statement (.vmul16 m s d) := by
  refine fun _ _ => .inl ⟨rfl, pack_lt' _ _ rfl, pack_odd _ _, ?_⟩
  show decodeHalf (pack [⟨1, 0⟩, ⟨4, 3⟩, ⟨4, d⟩, ⟨4, s⟩, ⟨3, m⟩]) = (.vmul16 m s d)
  rw [half3 _ (by simp [bits_tail, bits_head])]
  simp [bits_tail, bits_head, fld_head, fld_tail]
theorem vmin16 (m : BitVec 3) (s : BitVec 4) (d : BitVec 4) : Statement (.vmin16 m s d) := by
  refine fun _ _ => .inl ⟨rfl, pack_lt' _ _ rfl, pack_odd _ _, ?_⟩
  show decodeHalf (pack [⟨1, 0⟩, ⟨4, 4⟩, ⟨4, d⟩, ⟨4, s⟩, ⟨3, m⟩]) = (.vmin16 m s d)
  rw [half4 _ (by simp [bits_tail, bits_head])]
  simp [bits_tail, bits_head, fld_head, fld_tail]
theorem vmax16 (m : BitVec 3) (s : BitVec 4) (d : BitVec 4) : Statement (.vmax16 m s d) := by
  refine fun _ _ => .inl ⟨rfl, pack_lt' _ _ rfl, pack_odd _ _, ?_⟩
  show decodeHalf (pack [⟨1, 0⟩, ⟨4, 5⟩, ⟨4, d⟩, ⟨4, s⟩, ⟨3, m⟩]) = (.vmax16 m s d)
  rw [half5 _ (by simp [bits_tail, bits_head])]
  simp [bits_tail, bits_head, fld_head, fld_tail]
theorem vand16 (m : BitVec 3) (s : BitVec 4) (d : BitVec 4) : Statement (.vand16 m s d) := by
  refine fun _ _ => .inl ⟨rfl, pack_lt' _ _ rfl, pack_odd _ _, ?_⟩
  show decodeHalf (pack [⟨1, 0⟩, ⟨4, 6⟩, ⟨4, d⟩, ⟨4, s⟩, ⟨3, m⟩]) = (.vand16 m s d)
  rw [half6 _ (by simp [bits_tail, bits_head])]
  simp [bits_tail, bits_head, fld_head, fld_tail]
theorem vor16 (m : BitVec 3) (s : BitVec 4) (d : BitVec 4) : Statement (.vor16 m s d) := by
  refine fun _ _ => .inl ⟨rfl, pack_lt' _ _ rfl, pack_odd _ _, ?_⟩
  show decodeHalf (pack [⟨1, 0⟩, ⟨4, 7⟩, ⟨4, d⟩, ⟨4, s⟩, ⟨3, m⟩]) = (.vor16 m s d)
  rw [half7 _ (by simp [bits_tail, bits_head])]
  simp [bits_tail, bits_head, fld_head, fld_tail]
theorem vxor16 (m : BitVec 3) (s : BitVec 4) (d : BitVec 4) : Statement (.vxor16 m s d) := by
  refine fun _ _ => .inl ⟨rfl, pack_lt' _ _ rfl, pack_odd _ _, ?_⟩
  show decodeHalf (pack [⟨1, 0⟩, ⟨4, 8⟩, ⟨4, d⟩, ⟨4, s⟩, ⟨3, m⟩]) = (.vxor16 m s d)
  rw [half8 _ (by simp [bits_tail, bits_head])]
  simp [bits_tail, bits_head, fld_head, fld_tail]
theorem vmov16 (m : BitVec 3) (s : BitVec 4) (d : BitVec 4) : Statement (.vmov16 m s d) := by
  refine fun _ _ => .inl ⟨rfl, pack_lt' _ _ rfl, pack_odd _ _, ?_⟩
  show decodeHalf (pack [⟨1, 0⟩, ⟨4, 9⟩, ⟨4, d⟩, ⟨4, s⟩, ⟨3, m⟩]) = (.vmov16 m s d)
  rw [half9 _ (by simp [bits_tail, bits_head])]
  simp [bits_tail, bits_head, fld_head, fld_tail]
theorem vabs16 (m : BitVec 3) (s : BitVec 4) (d : BitVec 4) : Statement (.vabs16 m s d) := by
  refine fun _ _ => .inl ⟨rfl, pack_lt' _ _ rfl, pack_odd _ _, ?_⟩
  show decodeHalf (pack [⟨1, 0⟩, ⟨4, 10⟩, ⟨4, d⟩, ⟨4, s⟩, ⟨3, m⟩]) = (.vabs16 m s d)
  rw [half10 _ (by simp [bits_tail, bits_head])]
  simp [bits_tail, bits_head, fld_head, fld_tail]
theorem vneg16 (m : BitVec 3) (s : BitVec 4) (d : BitVec 4) : Statement (.vneg16 m s d) := by
  refine fun _ _ => .inl ⟨rfl, pack_lt' _ _ rfl, pack_odd _ _, ?_⟩
  show decodeHalf (pack [⟨1, 0⟩, ⟨4, 11⟩, ⟨4, d⟩, ⟨4, s⟩, ⟨3, m⟩]) = (.vneg16 m s d)
  rw [half11 _ (by simp [bits_tail, bits_head])]
  simp [bits_tail, bits_head, fld_head, fld_tail]
theorem vshl16 (m : BitVec 3) (s : BitVec 4) (d : BitVec 4) : Statement (.vshl16 m s d) := by
  refine fun _ _ => .inl ⟨rfl, pack_lt' _ _ rfl, pack_odd _ _, ?_⟩
  show decodeHalf (pack [⟨1, 0⟩, ⟨4, 12⟩, ⟨4, d⟩, ⟨4, s⟩, ⟨3, m⟩]) = (.vshl16 m s d)
  rw [half12 _ (by simp [bits_tail, bits_head])]
  simp [bits_tail, bits_head, fld_head, fld_tail]
theorem vshr16 (m : BitVec 3) (s : BitVec 4) (d : BitVec 4) : Statement (.vshr16 m s d) := by
  refine fun _ _ => .inl ⟨rfl, pack_lt' _ _ rfl, pack_odd _ _, ?_⟩
  show decodeHalf (pack [⟨1, 0⟩, ⟨4, 13⟩, ⟨4, d⟩, ⟨4, s⟩, ⟨3, m⟩]) = (.vshr16 m s d)
  rw [half13 _ (by simp [bits_tail, bits_head])]
  simp [bits_tail, bits_head, fld_head, fld_tail]
theorem vsra16 (m : BitVec 3) (s : BitVec 4) (d : BitVec 4) : Statement (.vsra16 m s d) := by
  refine fun _ _ => .inl ⟨rfl, pack_lt' _ _ rfl, pack_odd _ _, ?_⟩
  show decodeHalf (pack [⟨1, 0⟩, ⟨4, 14⟩, ⟨4, d⟩, ⟨4, s⟩, ⟨3, m⟩]) = (.vsra16 m s d)
  rw [half14 _ (by simp [bits_tail, bits_head])]
  simp [bits_tail, bits_head, fld_head, fld_tail]
theorem vfmak16 (m : BitVec 3) (s : BitVec 4) (d : BitVec 4) : Statement (.vfmak16 m s d) := by
  refine fun _ _ => .inl ⟨rfl, pack_lt' _ _ rfl, pack_odd _ _, ?_⟩
  show decodeHalf (pack [⟨1, 0⟩, ⟨4, 15⟩, ⟨4, d⟩, ⟨4, s⟩, ⟨3, m⟩]) = (.vfmak16 m s d)
  rw [half15 _ (by simp [bits_tail, bits_head])]
  simp [bits_tail, bits_head, fld_head, fld_tail]
theorem vadd32 (t : BitVec 3) (m : BitVec 3) (b : BitVec 5) (a : BitVec 5) (d : BitVec 5) : Statement (.vadd32 t m b a d) := by
  refine fun _ _ => .inr ⟨rfl, pack_lt' _ _ rfl, pack_odd _ _, ?_⟩
  show decode32 (pack [⟨1, 1⟩, ⟨6, 32⟩, ⟨5, d⟩, ⟨5, a⟩, ⟨5, b⟩, ⟨4, 0⟩, ⟨3, m⟩, ⟨3, t⟩]) = .ok (.vadd32 t m b a d)
  rw [major20 _ (by simp [bits_tail, bits_head])]
  simp [decodeMajor20, bits_tail, bits_head, fld_head, fld_tail]
theorem vsub32 (t : BitVec 3) (m : BitVec 3) (b : BitVec 5) (a : BitVec 5) (d : BitVec 5) : Statement (.vsub32 t m b a d) := by
  refine fun _ _ => .inr ⟨rfl, pack_lt' _ _ rfl, pack_odd _ _, ?_⟩
  show decode32 (pack [⟨1, 1⟩, ⟨6, 32⟩, ⟨5, d⟩, ⟨5, a⟩, ⟨5, b⟩, ⟨4, 1⟩, ⟨3, m⟩, ⟨3, t⟩]) = .ok (.vsub32 t m b a d)
  rw [major20 _ (by simp [bits_tail, bits_head])]
  simp [decodeMajor20, bits_tail, bits_head, fld_head, fld_tail]
theorem vrsub32 (t : BitVec 3) (m : BitVec 3) (b : BitVec 5) (a : BitVec 5) (d : BitVec 5) : Statement (.vrsub32 t m b a d) := by
  refine fun _ _ => .inr ⟨rfl, pack_lt' _ _ rfl, pack_odd _ _, ?_⟩
  show decode32 (pack [⟨1, 1⟩, ⟨6, 32⟩, ⟨5, d⟩, ⟨5, a⟩, ⟨5, b⟩, ⟨4, 2⟩, ⟨3, m⟩, ⟨3, t⟩]) = .ok (.vrsub32 t m b a d)
  rw [major20 _ (by simp [bits_tail, bits_head])]
  simp [decodeMajor20, bits_tail, bits_head, fld_head, fld_tail]
theorem vmul32 (t : BitVec 3) (m : BitVec 3) (b : BitVec 5) (a : BitVec 5) (d : BitVec 5) : Statement (.vmul32 t m b a d) := by
  refine fun _ _ => .inr ⟨rfl, pack_lt' _ _ rfl, pack_odd _ _, ?_⟩
  show decode32 (pack [⟨1, 1⟩, ⟨6, 32⟩, ⟨5, d⟩, ⟨5, a⟩, ⟨5, b⟩, ⟨4, 3⟩, ⟨3, m⟩, ⟨3, t⟩]) = .ok (.vmul32 t m b a d)
  rw [major20 _ (by simp [bits_tail, bits_head])]
  simp [decodeMajor20, bits_tail, bits_head, fld_head, fld_tail]
theorem vmin32 (t : BitVec 3) (m : BitVec 3) (b : BitVec 5) (a : BitVec 5) (d : BitVec 5) : Statement (.vmin32 t m b a d) := by
  refine fun _ _ => .inr ⟨rfl, pack_lt' _ _ rfl, pack_odd _ _, ?_⟩
  show decode32 (pack [⟨1, 1⟩, ⟨6, 32⟩, ⟨5, d⟩, ⟨5, a⟩, ⟨5, b⟩, ⟨4, 4⟩, ⟨3, m⟩, ⟨3, t⟩]) = .ok (.vmin32 t m b a d)
  rw [major20 _ (by simp [bits_tail, bits_head])]
  simp [decodeMajor20, bits_tail, bits_head, fld_head, fld_tail]
theorem vmax32 (t : BitVec 3) (m : BitVec 3) (b : BitVec 5) (a : BitVec 5) (d : BitVec 5) : Statement (.vmax32 t m b a d) := by
  refine fun _ _ => .inr ⟨rfl, pack_lt' _ _ rfl, pack_odd _ _, ?_⟩
  show decode32 (pack [⟨1, 1⟩, ⟨6, 32⟩, ⟨5, d⟩, ⟨5, a⟩, ⟨5, b⟩, ⟨4, 5⟩, ⟨3, m⟩, ⟨3, t⟩]) = .ok (.vmax32 t m b a d)
  rw [major20 _ (by simp [bits_tail, bits_head])]
  simp [decodeMajor20, bits_tail, bits_head, fld_head, fld_tail]
theorem vand32 (t : BitVec 3) (m : BitVec 3) (b : BitVec 5) (a : BitVec 5) (d : BitVec 5) : Statement (.vand32 t m b a d) := by
  refine fun _ _ => .inr ⟨rfl, pack_lt' _ _ rfl, pack_odd _ _, ?_⟩
  show decode32 (pack [⟨1, 1⟩, ⟨6, 32⟩, ⟨5, d⟩, ⟨5, a⟩, ⟨5, b⟩, ⟨4, 6⟩, ⟨3, m⟩, ⟨3, t⟩]) = .ok (.vand32 t m b a d)
  rw [major20 _ (by simp [bits_tail, bits_head])]
  simp [decodeMajor20, bits_tail, bits_head, fld_head, fld_tail]
theorem vor32 (t : BitVec 3) (m : BitVec 3) (b : BitVec 5) (a : BitVec 5) (d : BitVec 5) : Statement (.vor32 t m b a d) := by
  refine fun _ _ => .inr ⟨rfl, pack_lt' _ _ rfl, pack_odd _ _, ?_⟩
  show decode32 (pack [⟨1, 1⟩, ⟨6, 32⟩, ⟨5, d⟩, ⟨5, a⟩, ⟨5, b⟩, ⟨4, 7⟩, ⟨3, m⟩, ⟨3, t⟩]) = .ok (.vor32 t m b a d)
  rw [major20 _ (by simp [bits_tail, bits_head])]
  simp [decodeMajor20, bits_tail, bits_head, fld_head, fld_tail]
theorem vxor32 (t : BitVec 3) (m : BitVec 3) (b : BitVec 5) (a : BitVec 5) (d : BitVec 5) : Statement (.vxor32 t m b a d) := by
  refine fun _ _ => .inr ⟨rfl, pack_lt' _ _ rfl, pack_odd _ _, ?_⟩
  show decode32 (pack [⟨1, 1⟩, ⟨6, 32⟩, ⟨5, d⟩, ⟨5, a⟩, ⟨5, b⟩, ⟨4, 8⟩, ⟨3, m⟩, ⟨3, t⟩]) = .ok (.vxor32 t m b a d)
  rw [major20 _ (by simp [bits_tail, bits_head])]
  simp [decodeMajor20, bits_tail, bits_head, fld_head, fld_tail]
theorem vmov32 (t : BitVec 3) (m : BitVec 3) (a : BitVec 5) (d : BitVec 5) : Statement (.vmov32 t m a d) := by
  refine fun _ _ => .inr ⟨rfl, pack_lt' _ _ rfl, pack_odd _ _, ?_⟩
  show decode32 (pack [⟨1, 1⟩, ⟨6, 32⟩, ⟨5, d⟩, ⟨5, a⟩, ⟨3, 0⟩, ⟨2, 0⟩, ⟨4, 9⟩, ⟨3, m⟩, ⟨3, t⟩]) = .ok (.vmov32 t m a d)
  rw [major20 _ (by simp [bits_tail, bits_head])]
  simp [decodeMajor20, bits_tail, bits_head, fld_head, fld_tail]
theorem vabs32 (t : BitVec 3) (m : BitVec 3) (a : BitVec 5) (d : BitVec 5) : Statement (.vabs32 t m a d) := by
  refine fun _ _ => .inr ⟨rfl, pack_lt' _ _ rfl, pack_odd _ _, ?_⟩
  show decode32 (pack [⟨1, 1⟩, ⟨6, 32⟩, ⟨5, d⟩, ⟨5, a⟩, ⟨3, 0⟩, ⟨2, 0⟩, ⟨4, 10⟩, ⟨3, m⟩, ⟨3, t⟩]) = .ok (.vabs32 t m a d)
  rw [major20 _ (by simp [bits_tail, bits_head])]
  simp [decodeMajor20, bits_tail, bits_head, fld_head, fld_tail]
theorem vneg32 (t : BitVec 3) (m : BitVec 3) (a : BitVec 5) (d : BitVec 5) : Statement (.vneg32 t m a d) := by
  refine fun _ _ => .inr ⟨rfl, pack_lt' _ _ rfl, pack_odd _ _, ?_⟩
  show decode32 (pack [⟨1, 1⟩, ⟨6, 32⟩, ⟨5, d⟩, ⟨5, a⟩, ⟨3, 0⟩, ⟨2, 0⟩, ⟨4, 11⟩, ⟨3, m⟩, ⟨3, t⟩]) = .ok (.vneg32 t m a d)
  rw [major20 _ (by simp [bits_tail, bits_head])]
  simp [decodeMajor20, bits_tail, bits_head, fld_head, fld_tail]
theorem vshl32 (t : BitVec 3) (m : BitVec 3) (b : BitVec 5) (a : BitVec 5) (d : BitVec 5) : Statement (.vshl32 t m b a d) := by
  refine fun _ _ => .inr ⟨rfl, pack_lt' _ _ rfl, pack_odd _ _, ?_⟩
  show decode32 (pack [⟨1, 1⟩, ⟨6, 32⟩, ⟨5, d⟩, ⟨5, a⟩, ⟨5, b⟩, ⟨4, 12⟩, ⟨3, m⟩, ⟨3, t⟩]) = .ok (.vshl32 t m b a d)
  rw [major20 _ (by simp [bits_tail, bits_head])]
  simp [decodeMajor20, bits_tail, bits_head, fld_head, fld_tail]
theorem vshr32 (t : BitVec 3) (m : BitVec 3) (b : BitVec 5) (a : BitVec 5) (d : BitVec 5) : Statement (.vshr32 t m b a d) := by
  refine fun _ _ => .inr ⟨rfl, pack_lt' _ _ rfl, pack_odd _ _, ?_⟩
  show decode32 (pack [⟨1, 1⟩, ⟨6, 32⟩, ⟨5, d⟩, ⟨5, a⟩, ⟨5, b⟩, ⟨4, 13⟩, ⟨3, m⟩, ⟨3, t⟩]) = .ok (.vshr32 t m b a d)
  rw [major20 _ (by simp [bits_tail, bits_head])]
  simp [decodeMajor20, bits_tail, bits_head, fld_head, fld_tail]
theorem vsra32 (t : BitVec 3) (m : BitVec 3) (b : BitVec 5) (a : BitVec 5) (d : BitVec 5) : Statement (.vsra32 t m b a d) := by
  refine fun _ _ => .inr ⟨rfl, pack_lt' _ _ rfl, pack_odd _ _, ?_⟩
  show decode32 (pack [⟨1, 1⟩, ⟨6, 32⟩, ⟨5, d⟩, ⟨5, a⟩, ⟨5, b⟩, ⟨4, 14⟩, ⟨3, m⟩, ⟨3, t⟩]) = .ok (.vsra32 t m b a d)
  rw [major20 _ (by simp [bits_tail, bits_head])]
  simp [decodeMajor20, bits_tail, bits_head, fld_head, fld_tail]
theorem vfmak32 (t : BitVec 3) (m : BitVec 3) (b : BitVec 5) (a : BitVec 5) (d : BitVec 5) : Statement (.vfmak32 t m b a d) := by
  refine fun _ _ => .inr ⟨rfl, pack_lt' _ _ rfl, pack_odd _ _, ?_⟩
  show decode32 (pack [⟨1, 1⟩, ⟨6, 32⟩, ⟨5, d⟩, ⟨5, a⟩, ⟨5, b⟩, ⟨4, 15⟩, ⟨3, m⟩, ⟨3, t⟩]) = .ok (.vfmak32 t m b a d)
  rw [major20 _ (by simp [bits_tail, bits_head])]
  simp [decodeMajor20, bits_tail, bits_head, fld_head, fld_tail]
theorem vfma (t : BitVec 3) (m : BitVec 3) (c : BitVec 4) (b : BitVec 5) (a : BitVec 5) (d : BitVec 5) : Statement (.vfma t m c b a d) := by
  refine fun _ _ => .inr ⟨rfl, pack_lt' _ _ rfl, pack_odd _ _, ?_⟩
  show decode32 (pack [⟨1, 1⟩, ⟨6, 33⟩, ⟨5, d⟩, ⟨5, a⟩, ⟨5, b⟩, ⟨4, c⟩, ⟨3, m⟩, ⟨3, t⟩]) = .ok (.vfma t m c b a d)
  rw [major21 _ (by simp [bits_tail, bits_head])]
  simp [decodeMajor21, bits_tail, bits_head, fld_head, fld_tail]
theorem vfms (t : BitVec 3) (m : BitVec 3) (c : BitVec 4) (b : BitVec 5) (a : BitVec 5) (d : BitVec 5) : Statement (.vfms t m c b a d) := by
  refine fun _ _ => .inr ⟨rfl, pack_lt' _ _ rfl, pack_odd _ _, ?_⟩
  show decode32 (pack [⟨1, 1⟩, ⟨6, 34⟩, ⟨5, d⟩, ⟨5, a⟩, ⟨5, b⟩, ⟨4, c⟩, ⟨3, m⟩, ⟨3, t⟩]) = .ok (.vfms t m c b a d)
  rw [major22 _ (by simp [bits_tail, bits_head])]
  simp [decodeMajor22, bits_tail, bits_head, fld_head, fld_tail]
theorem vfnma (t : BitVec 3) (m : BitVec 3) (c : BitVec 4) (b : BitVec 5) (a : BitVec 5) (d : BitVec 5) : Statement (.vfnma t m c b a d) := by
  refine fun _ _ => .inr ⟨rfl, pack_lt' _ _ rfl, pack_odd _ _, ?_⟩
  show decode32 (pack [⟨1, 1⟩, ⟨6, 35⟩, ⟨5, d⟩, ⟨5, a⟩, ⟨5, b⟩, ⟨4, c⟩, ⟨3, m⟩, ⟨3, t⟩]) = .ok (.vfnma t m c b a d)
  rw [major23 _ (by simp [bits_tail, bits_head])]
  simp [decodeMajor23, bits_tail, bits_head, fld_head, fld_tail]
theorem vcmp (t : BitVec 3) (m : BitVec 3) (c : BitVec 4) (b : BitVec 5) (a : BitVec 5) (d : BitVec 5) : Statement (.vcmp t m c b a d) := by
  refine fun _ _ => .inr ⟨rfl, pack_lt' _ _ rfl, pack_odd _ _, ?_⟩
  show decode32 (pack [⟨1, 1⟩, ⟨6, 36⟩, ⟨5, d⟩, ⟨5, a⟩, ⟨5, b⟩, ⟨4, c⟩, ⟨3, m⟩, ⟨3, t⟩]) = .ok (.vcmp t m c b a d)
  rw [major24 _ (by simp [bits_tail, bits_head])]
  simp [decodeMajor24, bits_tail, bits_head, fld_head, fld_tail]
theorem vnot (t : BitVec 3) (m : BitVec 3) (a : BitVec 5) (d : BitVec 5) : Statement (.vnot t m a d) := by
  refine fun _ _ => .inr ⟨rfl, pack_lt' _ _ rfl, pack_odd _ _, ?_⟩
  show decode32 (pack [⟨1, 1⟩, ⟨6, 37⟩, ⟨5, d⟩, ⟨5, a⟩, ⟨3, 0⟩, ⟨2, 0⟩, ⟨4, 0⟩, ⟨3, m⟩, ⟨3, t⟩]) = .ok (.vnot t m a d)
  rw [major25 _ (by simp [bits_tail, bits_head])]
  simp [decodeMajor25, bits_tail, bits_head, fld_head, fld_tail]
theorem vexp2 (t : BitVec 3) (m : BitVec 3) (a : BitVec 5) (d : BitVec 5) : Statement (.vexp2 t m a d) := by
  refine fun _ _ => .inr ⟨rfl, pack_lt' _ _ rfl, pack_odd _ _, ?_⟩
  show decode32 (pack [⟨1, 1⟩, ⟨6, 37⟩, ⟨5, d⟩, ⟨5, a⟩, ⟨3, 0⟩, ⟨2, 0⟩, ⟨4, 1⟩, ⟨3, m⟩, ⟨3, t⟩]) = .ok (.vexp2 t m a d)
  rw [major25 _ (by simp [bits_tail, bits_head])]
  simp [decodeMajor25, bits_tail, bits_head, fld_head, fld_tail]
theorem vlog2 (t : BitVec 3) (m : BitVec 3) (a : BitVec 5) (d : BitVec 5) : Statement (.vlog2 t m a d) := by
  refine fun _ _ => .inr ⟨rfl, pack_lt' _ _ rfl, pack_odd _ _, ?_⟩
  show decode32 (pack [⟨1, 1⟩, ⟨6, 37⟩, ⟨5, d⟩, ⟨5, a⟩, ⟨3, 0⟩, ⟨2, 0⟩, ⟨4, 2⟩, ⟨3, m⟩, ⟨3, t⟩]) = .ok (.vlog2 t m a d)
  rw [major25 _ (by simp [bits_tail, bits_head])]
  simp [decodeMajor25, bits_tail, bits_head, fld_head, fld_tail]
theorem vrcp (t : BitVec 3) (m : BitVec 3) (a : BitVec 5) (d : BitVec 5) : Statement (.vrcp t m a d) := by
  refine fun _ _ => .inr ⟨rfl, pack_lt' _ _ rfl, pack_odd _ _, ?_⟩
  show decode32 (pack [⟨1, 1⟩, ⟨6, 37⟩, ⟨5, d⟩, ⟨5, a⟩, ⟨3, 0⟩, ⟨2, 0⟩, ⟨4, 3⟩, ⟨3, m⟩, ⟨3, t⟩]) = .ok (.vrcp t m a d)
  rw [major25 _ (by simp [bits_tail, bits_head])]
  simp [decodeMajor25, bits_tail, bits_head, fld_head, fld_tail]
theorem vrsq (t : BitVec 3) (m : BitVec 3) (a : BitVec 5) (d : BitVec 5) : Statement (.vrsq t m a d) := by
  refine fun _ _ => .inr ⟨rfl, pack_lt' _ _ rfl, pack_odd _ _, ?_⟩
  show decode32 (pack [⟨1, 1⟩, ⟨6, 37⟩, ⟨5, d⟩, ⟨5, a⟩, ⟨3, 0⟩, ⟨2, 0⟩, ⟨4, 4⟩, ⟨3, m⟩, ⟨3, t⟩]) = .ok (.vrsq t m a d)
  rw [major25 _ (by simp [bits_tail, bits_head])]
  simp [decodeMajor25, bits_tail, bits_head, fld_head, fld_tail]
theorem viota (t : BitVec 3) (m : BitVec 3) (d : BitVec 5) : Statement (.viota t m d) := by
  refine fun _ _ => .inr ⟨rfl, pack_lt' _ _ rfl, pack_odd _ _, ?_⟩
  show decode32 (pack [⟨1, 1⟩, ⟨6, 37⟩, ⟨5, d⟩, ⟨5, 0⟩, ⟨3, 0⟩, ⟨2, 0⟩, ⟨4, 5⟩, ⟨3, m⟩, ⟨3, t⟩]) = .ok (.viota t m d)
  rw [major25 _ (by simp [bits_tail, bits_head])]
  simp [decodeMajor25, bits_tail, bits_head, fld_head, fld_tail]
theorem vcvt (t : BitVec 3) (m : BitVec 3) (s : BitVec 3) (a : BitVec 5) (d : BitVec 5) : Statement (.vcvt t m s a d) := by
  refine fun _ _ => .inr ⟨rfl, pack_lt' _ _ rfl, pack_odd _ _, ?_⟩
  show decode32 (pack [⟨1, 1⟩, ⟨6, 37⟩, ⟨5, d⟩, ⟨5, a⟩, ⟨3, s⟩, ⟨2, 0⟩, ⟨4, 6⟩, ⟨3, m⟩, ⟨3, t⟩]) = .ok (.vcvt t m s a d)
  rw [major25 _ (by simp [bits_tail, bits_head])]
  simp [decodeMajor25, bits_tail, bits_head, fld_head, fld_tail]
theorem vsel (t : BitVec 3) (m : BitVec 3) (b : BitVec 5) (a : BitVec 5) (d : BitVec 5) : Statement (.vsel t m b a d) := by
  refine fun _ _ => .inr ⟨rfl, pack_lt' _ _ rfl, pack_odd _ _, ?_⟩
  show decode32 (pack [⟨1, 1⟩, ⟨6, 38⟩, ⟨5, d⟩, ⟨5, a⟩, ⟨5, b⟩, ⟨4, 0⟩, ⟨3, m⟩, ⟨3, t⟩]) = .ok (.vsel t m b a d)
  rw [major26 _ (by simp [bits_tail, bits_head])]
  simp [decodeMajor26, bits_tail, bits_head, fld_head, fld_tail]
theorem vperm (t : BitVec 3) (m : BitVec 3) (b : BitVec 5) (a : BitVec 5) (d : BitVec 5) : Statement (.vperm t m b a d) := by
  refine fun _ _ => .inr ⟨rfl, pack_lt' _ _ rfl, pack_odd _ _, ?_⟩
  show decode32 (pack [⟨1, 1⟩, ⟨6, 38⟩, ⟨5, d⟩, ⟨5, a⟩, ⟨5, b⟩, ⟨4, 1⟩, ⟨3, m⟩, ⟨3, t⟩]) = .ok (.vperm t m b a d)
  rw [major26 _ (by simp [bits_tail, bits_head])]
  simp [decodeMajor26, bits_tail, bits_head, fld_head, fld_tail]
theorem vslideUp (t : BitVec 3) (m : BitVec 3) (b : BitVec 5) (a : BitVec 5) (d : BitVec 5) : Statement (.vslideUp t m b a d) := by
  refine fun _ _ => .inr ⟨rfl, pack_lt' _ _ rfl, pack_odd _ _, ?_⟩
  show decode32 (pack [⟨1, 1⟩, ⟨6, 38⟩, ⟨5, d⟩, ⟨5, a⟩, ⟨5, b⟩, ⟨4, 2⟩, ⟨3, m⟩, ⟨3, t⟩]) = .ok (.vslideUp t m b a d)
  rw [major26 _ (by simp [bits_tail, bits_head])]
  simp [decodeMajor26, bits_tail, bits_head, fld_head, fld_tail]
theorem vslideDn (t : BitVec 3) (m : BitVec 3) (b : BitVec 5) (a : BitVec 5) (d : BitVec 5) : Statement (.vslideDn t m b a d) := by
  refine fun _ _ => .inr ⟨rfl, pack_lt' _ _ rfl, pack_odd _ _, ?_⟩
  show decode32 (pack [⟨1, 1⟩, ⟨6, 38⟩, ⟨5, d⟩, ⟨5, a⟩, ⟨5, b⟩, ⟨4, 3⟩, ⟨3, m⟩, ⟨3, t⟩]) = .ok (.vslideDn t m b a d)
  rw [major26 _ (by simp [bits_tail, bits_head])]
  simp [decodeMajor26, bits_tail, bits_head, fld_head, fld_tail]
theorem vcompress (t : BitVec 3) (m : BitVec 3) (a : BitVec 5) (d : BitVec 5) : Statement (.vcompress t m a d) := by
  refine fun _ _ => .inr ⟨rfl, pack_lt' _ _ rfl, pack_odd _ _, ?_⟩
  show decode32 (pack [⟨1, 1⟩, ⟨6, 38⟩, ⟨5, d⟩, ⟨5, a⟩, ⟨3, 0⟩, ⟨2, 0⟩, ⟨4, 4⟩, ⟨3, m⟩, ⟨3, t⟩]) = .ok (.vcompress t m a d)
  rw [major26 _ (by simp [bits_tail, bits_head])]
  simp [decodeMajor26, bits_tail, bits_head, fld_head, fld_tail]
theorem vadds (t : BitVec 3) (m : BitVec 3) (b : BitVec 5) (a : BitVec 5) (d : BitVec 5) : Statement (.vadds t m b a d) := by
  refine fun _ _ => .inr ⟨rfl, pack_lt' _ _ rfl, pack_odd _ _, ?_⟩
  show decode32 (pack [⟨1, 1⟩, ⟨6, 38⟩, ⟨5, d⟩, ⟨5, a⟩, ⟨5, b⟩, ⟨4, 5⟩, ⟨3, m⟩, ⟨3, t⟩]) = .ok (.vadds t m b a d)
  rw [major26 _ (by simp [bits_tail, bits_head])]
  simp [decodeMajor26, bits_tail, bits_head, fld_head, fld_tail]
theorem vscanpAdd (t : BitVec 3) (m : BitVec 3) (a : BitVec 5) (d : BitVec 5) : Statement (.vscanpAdd t m a d) := by
  refine fun _ _ => .inr ⟨rfl, pack_lt' _ _ rfl, pack_odd _ _, ?_⟩
  show decode32 (pack [⟨1, 1⟩, ⟨6, 38⟩, ⟨5, d⟩, ⟨5, a⟩, ⟨3, 0⟩, ⟨2, 0⟩, ⟨4, 6⟩, ⟨3, m⟩, ⟨3, t⟩]) = .ok (.vscanpAdd t m a d)
  rw [major26 _ (by simp [bits_tail, bits_head])]
  simp [decodeMajor26, bits_tail, bits_head, fld_head, fld_tail]
theorem vscanpMin (t : BitVec 3) (m : BitVec 3) (a : BitVec 5) (d : BitVec 5) : Statement (.vscanpMin t m a d) := by
  refine fun _ _ => .inr ⟨rfl, pack_lt' _ _ rfl, pack_odd _ _, ?_⟩
  show decode32 (pack [⟨1, 1⟩, ⟨6, 38⟩, ⟨5, d⟩, ⟨5, a⟩, ⟨3, 0⟩, ⟨2, 0⟩, ⟨4, 7⟩, ⟨3, m⟩, ⟨3, t⟩]) = .ok (.vscanpMin t m a d)
  rw [major26 _ (by simp [bits_tail, bits_head])]
  simp [decodeMajor26, bits_tail, bits_head, fld_head, fld_tail]
theorem vscanpMax (t : BitVec 3) (m : BitVec 3) (a : BitVec 5) (d : BitVec 5) : Statement (.vscanpMax t m a d) := by
  refine fun _ _ => .inr ⟨rfl, pack_lt' _ _ rfl, pack_odd _ _, ?_⟩
  show decode32 (pack [⟨1, 1⟩, ⟨6, 38⟩, ⟨5, d⟩, ⟨5, a⟩, ⟨3, 0⟩, ⟨2, 0⟩, ⟨4, 8⟩, ⟨3, m⟩, ⟨3, t⟩]) = .ok (.vscanpMax t m a d)
  rw [major26 _ (by simp [bits_tail, bits_head])]
  simp [decodeMajor26, bits_tail, bits_head, fld_head, fld_tail]
theorem vredAdd (t : BitVec 3) (m : BitVec 3) (q : BitVec 1) (a : BitVec 5) (d : BitVec 5) : Statement (.vredAdd t m q a d) := by
  refine fun _ _ => .inr ⟨rfl, pack_lt' _ _ rfl, pack_odd _ _, ?_⟩
  show decode32 (pack [⟨1, 1⟩, ⟨6, 39⟩, ⟨5, d⟩, ⟨5, a⟩, ⟨5, 0⟩, ⟨3, 0⟩, ⟨1, q⟩, ⟨3, m⟩, ⟨3, t⟩]) = .ok (.vredAdd t m q a d)
  rw [major27 _ (by simp [bits_tail, bits_head])]
  simp [decodeMajor27, bits_tail, bits_head, fld_head, fld_tail]
theorem vredMin (t : BitVec 3) (m : BitVec 3) (q : BitVec 1) (a : BitVec 5) (d : BitVec 5) : Statement (.vredMin t m q a d) := by
  refine fun _ _ => .inr ⟨rfl, pack_lt' _ _ rfl, pack_odd _ _, ?_⟩
  show decode32 (pack [⟨1, 1⟩, ⟨6, 39⟩, ⟨5, d⟩, ⟨5, a⟩, ⟨5, 0⟩, ⟨3, 1⟩, ⟨1, q⟩, ⟨3, m⟩, ⟨3, t⟩]) = .ok (.vredMin t m q a d)
  rw [major27 _ (by simp [bits_tail, bits_head])]
  simp [decodeMajor27, bits_tail, bits_head, fld_head, fld_tail]
theorem vredMax (t : BitVec 3) (m : BitVec 3) (q : BitVec 1) (a : BitVec 5) (d : BitVec 5) : Statement (.vredMax t m q a d) := by
  refine fun _ _ => .inr ⟨rfl, pack_lt' _ _ rfl, pack_odd _ _, ?_⟩
  show decode32 (pack [⟨1, 1⟩, ⟨6, 39⟩, ⟨5, d⟩, ⟨5, a⟩, ⟨5, 0⟩, ⟨3, 2⟩, ⟨1, q⟩, ⟨3, m⟩, ⟨3, t⟩]) = .ok (.vredMax t m q a d)
  rw [major27 _ (by simp [bits_tail, bits_head])]
  simp [decodeMajor27, bits_tail, bits_head, fld_head, fld_tail]
theorem vredAnd (t : BitVec 3) (m : BitVec 3) (q : BitVec 1) (a : BitVec 5) (d : BitVec 5) : Statement (.vredAnd t m q a d) := by
  refine fun _ _ => .inr ⟨rfl, pack_lt' _ _ rfl, pack_odd _ _, ?_⟩
  show decode32 (pack [⟨1, 1⟩, ⟨6, 39⟩, ⟨5, d⟩, ⟨5, a⟩, ⟨5, 0⟩, ⟨3, 3⟩, ⟨1, q⟩, ⟨3, m⟩, ⟨3, t⟩]) = .ok (.vredAnd t m q a d)
  rw [major27 _ (by simp [bits_tail, bits_head])]
  simp [decodeMajor27, bits_tail, bits_head, fld_head, fld_tail]
theorem vredOr (t : BitVec 3) (m : BitVec 3) (q : BitVec 1) (a : BitVec 5) (d : BitVec 5) : Statement (.vredOr t m q a d) := by
  refine fun _ _ => .inr ⟨rfl, pack_lt' _ _ rfl, pack_odd _ _, ?_⟩
  show decode32 (pack [⟨1, 1⟩, ⟨6, 39⟩, ⟨5, d⟩, ⟨5, a⟩, ⟨5, 0⟩, ⟨3, 4⟩, ⟨1, q⟩, ⟨3, m⟩, ⟨3, t⟩]) = .ok (.vredOr t m q a d)
  rw [major27 _ (by simp [bits_tail, bits_head])]
  simp [decodeMajor27, bits_tail, bits_head, fld_head, fld_tail]
theorem vredXor (t : BitVec 3) (m : BitVec 3) (q : BitVec 1) (a : BitVec 5) (d : BitVec 5) : Statement (.vredXor t m q a d) := by
  refine fun _ _ => .inr ⟨rfl, pack_lt' _ _ rfl, pack_odd _ _, ?_⟩
  show decode32 (pack [⟨1, 1⟩, ⟨6, 39⟩, ⟨5, d⟩, ⟨5, a⟩, ⟨5, 0⟩, ⟨3, 5⟩, ⟨1, q⟩, ⟨3, m⟩, ⟨3, t⟩]) = .ok (.vredXor t m q a d)
  rw [major27 _ (by simp [bits_tail, bits_head])]
  simp [decodeMajor27, bits_tail, bits_head, fld_head, fld_tail]
theorem vdot (t : BitVec 3) (m : BitVec 3) (q : BitVec 1) (b : BitVec 5) (a : BitVec 5) (d : BitVec 5) : Statement (.vdot t m q b a d) := by
  refine fun _ _ => .inr ⟨rfl, pack_lt' _ _ rfl, pack_odd _ _, ?_⟩
  show decode32 (pack [⟨1, 1⟩, ⟨6, 39⟩, ⟨5, d⟩, ⟨5, a⟩, ⟨5, b⟩, ⟨3, 6⟩, ⟨1, q⟩, ⟨3, m⟩, ⟨3, t⟩]) = .ok (.vdot t m q b a d)
  rw [major27 _ (by simp [bits_tail, bits_head])]
  simp [decodeMajor27, bits_tail, bits_head, fld_head, fld_tail]
theorem vbcast (t : BitVec 3) (a : BitVec 5) (d : BitVec 5) : Statement (.vbcast t a d) := by
  refine fun _ _ => .inr ⟨rfl, pack_lt' _ _ rfl, pack_odd _ _, ?_⟩
  show decode32 (pack [⟨1, 1⟩, ⟨6, 40⟩, ⟨5, d⟩, ⟨5, a⟩, ⟨3, 0⟩, ⟨2, 0⟩, ⟨4, 0⟩, ⟨3, 0⟩, ⟨3, t⟩]) = .ok (.vbcast t a d)
  rw [major28 _ (by simp [bits_tail, bits_head])]
  simp [decodeMajor28, bits_tail, bits_head, fld_head, fld_tail]
theorem vins (t : BitVec 3) (b : BitVec 5) (a : BitVec 5) (d : BitVec 5) : Statement (.vins t b a d) := by
  refine fun _ _ => .inr ⟨rfl, pack_lt' _ _ rfl, pack_odd _ _, ?_⟩
  show decode32 (pack [⟨1, 1⟩, ⟨6, 40⟩, ⟨5, d⟩, ⟨5, a⟩, ⟨5, b⟩, ⟨4, 1⟩, ⟨3, 0⟩, ⟨3, t⟩]) = .ok (.vins t b a d)
  rw [major28 _ (by simp [bits_tail, bits_head])]
  simp [decodeMajor28, bits_tail, bits_head, fld_head, fld_tail]
theorem vext (t : BitVec 3) (b : BitVec 5) (a : BitVec 5) (d : BitVec 5) : Statement (.vext t b a d) := by
  refine fun _ _ => .inr ⟨rfl, pack_lt' _ _ rfl, pack_odd _ _, ?_⟩
  show decode32 (pack [⟨1, 1⟩, ⟨6, 40⟩, ⟨5, d⟩, ⟨5, a⟩, ⟨5, b⟩, ⟨4, 2⟩, ⟨3, 0⟩, ⟨3, t⟩]) = .ok (.vext t b a d)
  rw [major28 _ (by simp [bits_tail, bits_head])]
  simp [decodeMajor28, bits_tail, bits_head, fld_head, fld_tail]
theorem unpkT5 (l : BitVec 3) (a : BitVec 5) (d : BitVec 5) : Statement (.unpkT5 l a d) := by
  refine fun _ _ => .inr ⟨rfl, pack_lt' _ _ rfl, pack_odd _ _, ?_⟩
  show decode32 (pack [⟨1, 1⟩, ⟨6, 41⟩, ⟨5, d⟩, ⟨5, a⟩, ⟨3, l⟩, ⟨2, 0⟩, ⟨4, 0⟩, ⟨3, 0⟩, ⟨3, 0⟩]) = .ok (.unpkT5 l a d)
  rw [major29 _ (by simp [bits_tail, bits_head])]
  simp [decodeMajor29, bits_tail, bits_head, fld_head, fld_tail]
theorem unpkI8 (l : BitVec 3) (a : BitVec 5) (d : BitVec 5) : Statement (.unpkI8 l a d) := by
  refine fun _ _ => .inr ⟨rfl, pack_lt' _ _ rfl, pack_odd _ _, ?_⟩
  show decode32 (pack [⟨1, 1⟩, ⟨6, 41⟩, ⟨5, d⟩, ⟨5, a⟩, ⟨3, l⟩, ⟨2, 0⟩, ⟨4, 1⟩, ⟨3, 0⟩, ⟨3, 0⟩]) = .ok (.unpkI8 l a d)
  rw [major29 _ (by simp [bits_tail, bits_head])]
  simp [decodeMajor29, bits_tail, bits_head, fld_head, fld_tail]
theorem unpkN8 (l : BitVec 3) (a : BitVec 5) (d : BitVec 5) : Statement (.unpkN8 l a d) := by
  refine fun _ _ => .inr ⟨rfl, pack_lt' _ _ rfl, pack_odd _ _, ?_⟩
  show decode32 (pack [⟨1, 1⟩, ⟨6, 41⟩, ⟨5, d⟩, ⟨5, a⟩, ⟨3, l⟩, ⟨2, 0⟩, ⟨4, 2⟩, ⟨3, 0⟩, ⟨3, 0⟩]) = .ok (.unpkN8 l a d)
  rw [major29 _ (by simp [bits_tail, bits_head])]
  simp [decodeMajor29, bits_tail, bits_head, fld_head, fld_tail]
theorem unpkI4 (l : BitVec 3) (a : BitVec 5) (d : BitVec 5) : Statement (.unpkI4 l a d) := by
  refine fun _ _ => .inr ⟨rfl, pack_lt' _ _ rfl, pack_odd _ _, ?_⟩
  show decode32 (pack [⟨1, 1⟩, ⟨6, 41⟩, ⟨5, d⟩, ⟨5, a⟩, ⟨3, l⟩, ⟨2, 0⟩, ⟨4, 3⟩, ⟨3, 0⟩, ⟨3, 0⟩]) = .ok (.unpkI4 l a d)
  rw [major29 _ (by simp [bits_tail, bits_head])]
  simp [decodeMajor29, bits_tail, bits_head, fld_head, fld_tail]
theorem unpkN4 (l : BitVec 3) (a : BitVec 5) (d : BitVec 5) : Statement (.unpkN4 l a d) := by
  refine fun _ _ => .inr ⟨rfl, pack_lt' _ _ rfl, pack_odd _ _, ?_⟩
  show decode32 (pack [⟨1, 1⟩, ⟨6, 41⟩, ⟨5, d⟩, ⟨5, a⟩, ⟨3, l⟩, ⟨2, 0⟩, ⟨4, 4⟩, ⟨3, 0⟩, ⟨3, 0⟩]) = .ok (.unpkN4 l a d)
  rw [major29 _ (by simp [bits_tail, bits_head])]
  simp [decodeMajor29, bits_tail, bits_head, fld_head, fld_tail]
theorem mand (b : BitVec 5) (a : BitVec 5) (d : BitVec 5) : Statement (.mand b a d) := by
  refine fun _ _ => .inr ⟨rfl, pack_lt' _ _ rfl, pack_odd _ _, ?_⟩
  show decode32 (pack [⟨1, 1⟩, ⟨6, 42⟩, ⟨5, d⟩, ⟨5, a⟩, ⟨5, b⟩, ⟨4, 0⟩, ⟨3, 0⟩, ⟨3, 0⟩]) = .ok (.mand b a d)
  rw [major2A _ (by simp [bits_tail, bits_head])]
  simp [decodeMajor2A, bits_tail, bits_head, fld_head, fld_tail]
theorem mor (b : BitVec 5) (a : BitVec 5) (d : BitVec 5) : Statement (.mor b a d) := by
  refine fun _ _ => .inr ⟨rfl, pack_lt' _ _ rfl, pack_odd _ _, ?_⟩
  show decode32 (pack [⟨1, 1⟩, ⟨6, 42⟩, ⟨5, d⟩, ⟨5, a⟩, ⟨5, b⟩, ⟨4, 1⟩, ⟨3, 0⟩, ⟨3, 0⟩]) = .ok (.mor b a d)
  rw [major2A _ (by simp [bits_tail, bits_head])]
  simp [decodeMajor2A, bits_tail, bits_head, fld_head, fld_tail]
theorem mxor (b : BitVec 5) (a : BitVec 5) (d : BitVec 5) : Statement (.mxor b a d) := by
  refine fun _ _ => .inr ⟨rfl, pack_lt' _ _ rfl, pack_odd _ _, ?_⟩
  show decode32 (pack [⟨1, 1⟩, ⟨6, 42⟩, ⟨5, d⟩, ⟨5, a⟩, ⟨5, b⟩, ⟨4, 2⟩, ⟨3, 0⟩, ⟨3, 0⟩]) = .ok (.mxor b a d)
  rw [major2A _ (by simp [bits_tail, bits_head])]
  simp [decodeMajor2A, bits_tail, bits_head, fld_head, fld_tail]
theorem mnot (a : BitVec 5) (d : BitVec 5) : Statement (.mnot a d) := by
  refine fun _ _ => .inr ⟨rfl, pack_lt' _ _ rfl, pack_odd _ _, ?_⟩
  show decode32 (pack [⟨1, 1⟩, ⟨6, 42⟩, ⟨5, d⟩, ⟨5, a⟩, ⟨3, 0⟩, ⟨2, 0⟩, ⟨4, 3⟩, ⟨3, 0⟩, ⟨3, 0⟩]) = .ok (.mnot a d)
  rw [major2A _ (by simp [bits_tail, bits_head])]
  simp [decodeMajor2A, bits_tail, bits_head, fld_head, fld_tail]
theorem mpop (t : BitVec 3) (a : BitVec 5) (d : BitVec 5) : Statement (.mpop t a d) := by
  refine fun _ _ => .inr ⟨rfl, pack_lt' _ _ rfl, pack_odd _ _, ?_⟩
  show decode32 (pack [⟨1, 1⟩, ⟨6, 42⟩, ⟨5, d⟩, ⟨5, a⟩, ⟨3, 0⟩, ⟨2, 0⟩, ⟨4, 4⟩, ⟨3, 0⟩, ⟨3, t⟩]) = .ok (.mpop t a d)
  rw [major2A _ (by simp [bits_tail, bits_head])]
  simp [decodeMajor2A, bits_tail, bits_head, fld_head, fld_tail]
theorem vtype (t : BitVec 3) : Statement (.vtype t) := by
  refine fun _ _ => .inr ⟨rfl, pack_lt' _ _ rfl, pack_odd _ _, ?_⟩
  show decode32 (pack [⟨1, 1⟩, ⟨6, 43⟩, ⟨5, 0⟩, ⟨5, 0⟩, ⟨3, 0⟩, ⟨2, 0⟩, ⟨4, 0⟩, ⟨3, 0⟩, ⟨3, t⟩]) = .ok (.vtype t)
  rw [major2B _ (by simp [bits_tail, bits_head])]
  simp [decodeMajor2B, bits_tail, bits_head, fld_head, fld_tail]
theorem vld (t : BitVec 3) (m : BitVec 3) (i : BitVec 9) (a : BitVec 5) (d : BitVec 5) : Statement (.vld t m i a d) := by
  refine fun _ _ => .inr ⟨rfl, pack_lt' _ _ rfl, pack_odd _ _, ?_⟩
  show decode32 (pack [⟨1, 1⟩, ⟨6, 21⟩, ⟨5, d⟩, ⟨5, a⟩, ⟨9, i⟩, ⟨3, m⟩, ⟨3, t⟩]) = .ok (.vld t m i a d)
  rw [major15 _ (by simp [bits_tail, bits_head])]
  simp [decodeMajor15, bits_tail, bits_head, fld_head, fld_tail]
theorem vst (t : BitVec 3) (m : BitVec 3) (i : BitVec 9) (a : BitVec 5) (c : BitVec 5) : Statement (.vst t m i a c) := by
  refine fun _ _ => .inr ⟨rfl, pack_lt' _ _ rfl, pack_odd _ _, ?_⟩
  show decode32 (pack [⟨1, 1⟩, ⟨6, 22⟩, ⟨5, c⟩, ⟨5, a⟩, ⟨9, i⟩, ⟨3, m⟩, ⟨3, t⟩]) = .ok (.vst t m i a c)
  rw [major16 _ (by simp [bits_tail, bits_head])]
  simp [decodeMajor16, bits_tail, bits_head, fld_head, fld_tail]
theorem vlds (t : BitVec 3) (m : BitVec 3) (b : BitVec 5) (a : BitVec 5) (d : BitVec 5) : Statement (.vlds t m b a d) := by
  refine fun _ _ => .inr ⟨rfl, pack_lt' _ _ rfl, pack_odd _ _, ?_⟩
  show decode32 (pack [⟨1, 1⟩, ⟨6, 23⟩, ⟨5, d⟩, ⟨5, a⟩, ⟨5, b⟩, ⟨4, 0⟩, ⟨3, m⟩, ⟨3, t⟩]) = .ok (.vlds t m b a d)
  rw [major17 _ (by simp [bits_tail, bits_head])]
  simp [decodeMajor17, bits_tail, bits_head, fld_head, fld_tail]
theorem vsts (t : BitVec 3) (m : BitVec 3) (b : BitVec 5) (a : BitVec 5) (c : BitVec 5) : Statement (.vsts t m b a c) := by
  refine fun _ _ => .inr ⟨rfl, pack_lt' _ _ rfl, pack_odd _ _, ?_⟩
  show decode32 (pack [⟨1, 1⟩, ⟨6, 23⟩, ⟨5, c⟩, ⟨5, a⟩, ⟨5, b⟩, ⟨4, 1⟩, ⟨3, m⟩, ⟨3, t⟩]) = .ok (.vsts t m b a c)
  rw [major17 _ (by simp [bits_tail, bits_head])]
  simp [decodeMajor17, bits_tail, bits_head, fld_head, fld_tail]
theorem vgath (t : BitVec 3) (m : BitVec 3) (b : BitVec 5) (a : BitVec 5) (d : BitVec 5) : Statement (.vgath t m b a d) := by
  refine fun _ _ => .inr ⟨rfl, pack_lt' _ _ rfl, pack_odd _ _, ?_⟩
  show decode32 (pack [⟨1, 1⟩, ⟨6, 23⟩, ⟨5, d⟩, ⟨5, a⟩, ⟨5, b⟩, ⟨4, 2⟩, ⟨3, m⟩, ⟨3, t⟩]) = .ok (.vgath t m b a d)
  rw [major17 _ (by simp [bits_tail, bits_head])]
  simp [decodeMajor17, bits_tail, bits_head, fld_head, fld_tail]
theorem vscat (t : BitVec 3) (m : BitVec 3) (b : BitVec 5) (a : BitVec 5) (c : BitVec 5) : Statement (.vscat t m b a c) := by
  refine fun _ _ => .inr ⟨rfl, pack_lt' _ _ rfl, pack_odd _ _, ?_⟩
  show decode32 (pack [⟨1, 1⟩, ⟨6, 23⟩, ⟨5, c⟩, ⟨5, a⟩, ⟨5, b⟩, ⟨4, 3⟩, ⟨3, m⟩, ⟨3, t⟩]) = .ok (.vscat t m b a c)
  rw [major17 _ (by simp [bits_tail, bits_head])]
  simp [decodeMajor17, bits_tail, bits_head, fld_head, fld_tail]
theorem vldIndexed (t : BitVec 3) (m : BitVec 3) (b : BitVec 5) (a : BitVec 5) (d : BitVec 5) : Statement (.vldIndexed t m b a d) := by
  refine fun _ _ => .inr ⟨rfl, pack_lt' _ _ rfl, pack_odd _ _, ?_⟩
  show decode32 (pack [⟨1, 1⟩, ⟨6, 23⟩, ⟨5, d⟩, ⟨5, a⟩, ⟨5, b⟩, ⟨4, 4⟩, ⟨3, m⟩, ⟨3, t⟩]) = .ok (.vldIndexed t m b a d)
  rw [major17 _ (by simp [bits_tail, bits_head])]
  simp [decodeMajor17, bits_tail, bits_head, fld_head, fld_tail]
theorem vstIndexed (t : BitVec 3) (m : BitVec 3) (b : BitVec 5) (a : BitVec 5) (c : BitVec 5) : Statement (.vstIndexed t m b a c) := by
  refine fun _ _ => .inr ⟨rfl, pack_lt' _ _ rfl, pack_odd _ _, ?_⟩
  show decode32 (pack [⟨1, 1⟩, ⟨6, 23⟩, ⟨5, c⟩, ⟨5, a⟩, ⟨5, b⟩, ⟨4, 5⟩, ⟨3, m⟩, ⟨3, t⟩]) = .ok (.vstIndexed t m b a c)
  rw [major17 _ (by simp [bits_tail, bits_head])]
  simp [decodeMajor17, bits_tail, bits_head, fld_head, fld_tail]
theorem mma (n : BitVec 4) (b : BitVec 5) (a : BitVec 5) (k : BitVec 2) : Statement (.mma n b a k) := by
  refine fun _ _ => .inr ⟨rfl, pack_lt' _ _ rfl, pack_odd _ _, ?_⟩
  show decode32 (pack [⟨1, 1⟩, ⟨6, 48⟩, ⟨2, k⟩, ⟨3, 0⟩, ⟨5, a⟩, ⟨5, b⟩, ⟨3, 0⟩, ⟨4, n⟩, ⟨3, 0⟩]) = .ok (.mma n b a k)
  rw [major30 _ (by simp [bits_tail, bits_head])]
  simp [decodeMajor30, bits_tail, bits_head, fld_head, fld_tail]
theorem mmag (n : BitVec 4) (b : BitVec 5) (g : BitVec 5) (k : BitVec 2) : Statement (.mmag n b g k) := by
  refine fun _ _ => .inr ⟨rfl, pack_lt' _ _ rfl, pack_odd _ _, ?_⟩
  show decode32 (pack [⟨1, 1⟩, ⟨6, 48⟩, ⟨2, k⟩, ⟨3, 0⟩, ⟨5, g⟩, ⟨5, b⟩, ⟨3, 1⟩, ⟨4, n⟩, ⟨3, 0⟩]) = .ok (.mmag n b g k)
  rw [major30 _ (by simp [bits_tail, bits_head])]
  simp [decodeMajor30, bits_tail, bits_head, fld_head, fld_tail]
theorem mzero (k : BitVec 2) : Statement (.mzero k) := by
  refine fun _ _ => .inr ⟨rfl, pack_lt' _ _ rfl, pack_odd _ _, ?_⟩
  show decode32 (pack [⟨1, 1⟩, ⟨6, 48⟩, ⟨2, k⟩, ⟨3, 0⟩, ⟨5, 0⟩, ⟨5, 0⟩, ⟨3, 2⟩, ⟨7, 0⟩]) = .ok (.mzero k)
  rw [major30 _ (by simp [bits_tail, bits_head])]
  simp [decodeMajor30, bits_tail, bits_head, fld_head, fld_tail]
theorem mldb (a : BitVec 5) (b : BitVec 5) : Statement (.mldb a b) := by
  refine fun _ _ => .inr ⟨rfl, pack_lt' _ _ rfl, pack_odd _ _, ?_⟩
  show decode32 (pack [⟨1, 1⟩, ⟨6, 48⟩, ⟨5, b⟩, ⟨5, a⟩, ⟨5, 0⟩, ⟨3, 3⟩, ⟨7, 0⟩]) = .ok (.mldb a b)
  rw [major30 _ (by simp [bits_tail, bits_head])]
  simp [decodeMajor30, bits_tail, bits_head, fld_head, fld_tail]
theorem mdrn (i : BitVec 7) (c : BitVec 5) (a : BitVec 5) (f : BitVec 3) (k : BitVec 2) : Statement (.mdrn i c a f k) := by
  refine fun _ _ => .inr ⟨rfl, pack_lt' _ _ rfl, pack_odd _ _, ?_⟩
  show decode32 (pack [⟨1, 1⟩, ⟨6, 48⟩, ⟨2, k⟩, ⟨3, f⟩, ⟨5, a⟩, ⟨5, c⟩, ⟨3, 4⟩, ⟨7, i⟩]) = .ok (.mdrn i c a f k)
  rw [major30 _ (by simp [bits_tail, bits_head])]
  simp [decodeMajor30, bits_tail, bits_head, fld_head, fld_tail]
theorem mcfg (a : BitVec 5) (n : BitVec 2) : Statement (.mcfg a n) := by
  refine fun _ _ => .inr ⟨rfl, pack_lt' _ _ rfl, pack_odd _ _, ?_⟩
  show decode32 (pack [⟨1, 1⟩, ⟨6, 48⟩, ⟨2, n⟩, ⟨3, 0⟩, ⟨5, a⟩, ⟨5, 0⟩, ⟨3, 5⟩, ⟨7, 0⟩]) = .ok (.mcfg a n)
  rw [major30 _ (by simp [bits_tail, bits_head])]
  simp [decodeMajor30, bits_tail, bits_head, fld_head, fld_tail]
theorem pfx (q : BitVec 5) (g : BitVec 2) (b : BitVec 3) (a : BitVec 3) : Statement (.pfx q g b a) := by
  refine fun _ _ => .inr ⟨rfl, pack_lt' _ _ rfl, pack_odd _ _, ?_⟩
  show decode32 (pack [⟨1, 1⟩, ⟨6, 63⟩, ⟨3, a⟩, ⟨3, b⟩, ⟨2, g⟩, ⟨5, q⟩, ⟨12, 0⟩]) = .ok (.pfx q g b a)
  rw [major3F _ (by simp [bits_tail, bits_head])]
  simp [decodeMajor3F, bits_tail, bits_head, fld_head, fld_tail]
theorem ecopy (i : BitVec 7) (a : BitVec 5) : Statement (.ecopy i a) := by
  refine fun _ _ => .inr ⟨rfl, pack_lt' _ _ rfl, pack_odd _ _, ?_⟩
  show decode32 (pack [⟨1, 1⟩, ⟨6, 49⟩, ⟨2, 0⟩, ⟨3, 0⟩, ⟨5, a⟩, ⟨5, 0⟩, ⟨3, 0⟩, ⟨7, i⟩]) = .ok (.ecopy i a)
  rw [major31 _ (by simp [bits_tail, bits_head])]
  simp [decodeMajor31, bits_tail, bits_head, fld_head, fld_tail]
theorem barinit (b : BitVec 5) (a : BitVec 5) : Statement (.barinit b a) := by
  refine fun _ _ => .inr ⟨rfl, pack_lt' _ _ rfl, pack_odd _ _, ?_⟩
  show decode32 (pack [⟨1, 1⟩, ⟨6, 49⟩, ⟨2, 0⟩, ⟨3, 0⟩, ⟨5, a⟩, ⟨5, b⟩, ⟨3, 1⟩, ⟨7, 0⟩]) = .ok (.barinit b a)
  rw [major31 _ (by simp [bits_tail, bits_head])]
  simp [decodeMajor31, bits_tail, bits_head, fld_head, fld_tail]
theorem baradd (b : BitVec 5) (a : BitVec 5) : Statement (.baradd b a) := by
  refine fun _ _ => .inr ⟨rfl, pack_lt' _ _ rfl, pack_odd _ _, ?_⟩
  show decode32 (pack [⟨1, 1⟩, ⟨6, 49⟩, ⟨2, 0⟩, ⟨3, 0⟩, ⟨5, a⟩, ⟨5, b⟩, ⟨3, 2⟩, ⟨7, 0⟩]) = .ok (.baradd b a)
  rw [major31 _ (by simp [bits_tail, bits_head])]
  simp [decodeMajor31, bits_tail, bits_head, fld_head, fld_tail]
theorem cabcfg (i : BitVec 7) (c : BitVec 5) (k : BitVec 5) : Statement (.cabcfg i c k) := by
  refine fun _ _ => .inr ⟨rfl, pack_lt' _ _ rfl, pack_odd _ _, ?_⟩
  show decode32 (pack [⟨1, 1⟩, ⟨6, 50⟩, ⟨2, 0⟩, ⟨3, 0⟩, ⟨5, k⟩, ⟨5, c⟩, ⟨3, 0⟩, ⟨7, i⟩]) = .ok (.cabcfg i c k)
  rw [major32 _ (by simp [bits_tail, bits_head])]
  simp [decodeMajor32, bits_tail, bits_head, fld_head, fld_tail]
theorem cabpush (m : BitVec 3) (v : BitVec 5) (k : BitVec 5) (w : BitVec 5) : Statement (.cabpush m v k w) := by
  refine fun _ _ => .inr ⟨rfl, pack_lt' _ _ rfl, pack_odd _ _, ?_⟩
  show decode32 (pack [⟨1, 1⟩, ⟨6, 50⟩, ⟨5, w⟩, ⟨5, k⟩, ⟨5, v⟩, ⟨3, 1⟩, ⟨3, m⟩, ⟨4, 0⟩]) = .ok (.cabpush m v k w)
  rw [major32 _ (by simp [bits_tail, bits_head])]
  simp [decodeMajor32, bits_tail, bits_head, fld_head, fld_tail]
theorem cabmrg (k : BitVec 5) (d : BitVec 5) : Statement (.cabmrg k d) := by
  refine fun _ _ => .inr ⟨rfl, pack_lt' _ _ rfl, pack_odd _ _, ?_⟩
  show decode32 (pack [⟨1, 1⟩, ⟨6, 50⟩, ⟨5, d⟩, ⟨5, k⟩, ⟨5, 0⟩, ⟨3, 2⟩, ⟨7, 0⟩]) = .ok (.cabmrg k d)
  rw [major32 _ (by simp [bits_tail, bits_head])]
  simp [decodeMajor32, bits_tail, bits_head, fld_head, fld_tail]
theorem cabrd (c : BitVec 5) (k : BitVec 5) (i : BitVec 5) : Statement (.cabrd c k i) := by
  refine fun _ _ => .inr ⟨rfl, pack_lt' _ _ rfl, pack_odd _ _, ?_⟩
  show decode32 (pack [⟨1, 1⟩, ⟨6, 50⟩, ⟨5, i⟩, ⟨5, k⟩, ⟨5, c⟩, ⟨3, 3⟩, ⟨7, 0⟩]) = .ok (.cabrd c k i)
  rw [major32 _ (by simp [bits_tail, bits_head])]
  simp [decodeMajor32, bits_tail, bits_head, fld_head, fld_tail]
theorem cabdrn (i : BitVec 7) (c : BitVec 5) (k : BitVec 5) : Statement (.cabdrn i c k) := by
  refine fun _ _ => .inr ⟨rfl, pack_lt' _ _ rfl, pack_odd _ _, ?_⟩
  show decode32 (pack [⟨1, 1⟩, ⟨6, 50⟩, ⟨2, 0⟩, ⟨3, 0⟩, ⟨5, k⟩, ⟨5, c⟩, ⟨3, 4⟩, ⟨7, i⟩]) = .ok (.cabdrn i c k)
  rw [major32 _ (by simp [bits_tail, bits_head])]
  simp [decodeMajor32, bits_tail, bits_head, fld_head, fld_tail]
theorem cabclr (k : BitVec 5) : Statement (.cabclr k) := by
  refine fun _ _ => .inr ⟨rfl, pack_lt' _ _ rfl, pack_odd _ _, ?_⟩
  show decode32 (pack [⟨1, 1⟩, ⟨6, 50⟩, ⟨2, 0⟩, ⟨3, 0⟩, ⟨5, k⟩, ⟨5, 0⟩, ⟨3, 5⟩, ⟨7, 0⟩]) = .ok (.cabclr k)
  rw [major32 _ (by simp [bits_tail, bits_head])]
  simp [decodeMajor32, bits_tail, bits_head, fld_head, fld_tail]
theorem scan (i : BitVec 7) (a : BitVec 5) : Statement (.scan i a) := by
  refine fun _ _ => .inr ⟨rfl, pack_lt' _ _ rfl, pack_odd _ _, ?_⟩
  show decode32 (pack [⟨1, 1⟩, ⟨6, 51⟩, ⟨2, 0⟩, ⟨3, 0⟩, ⟨5, a⟩, ⟨5, 0⟩, ⟨3, 0⟩, ⟨7, i⟩]) = .ok (.scan i a)
  rw [major33 _ (by simp [bits_tail, bits_head])]
  simp [decodeMajor33, bits_tail, bits_head, fld_head, fld_tail]
theorem amoAdd (c : BitVec 1) (z : BitVec 1) (s : BitVec 4) (b : BitVec 5) (a : BitVec 5) (d : BitVec 5) : Statement (.amoAdd c z s b a d) := by
  refine fun _ _ => .inr ⟨rfl, pack_lt' _ _ rfl, pack_odd _ _, ?_⟩
  show decode32 (pack [⟨1, 1⟩, ⟨6, 56⟩, ⟨5, d⟩, ⟨5, a⟩, ⟨5, b⟩, ⟨4, s⟩, ⟨1, z⟩, ⟨1, c⟩, ⟨4, 0⟩]) = .ok (.amoAdd c z s b a d)
  rw [major38 _ (by simp [bits_tail, bits_head])]
  simp [decodeMajor38, bits_tail, bits_head, fld_head, fld_tail]
theorem amoAnd (c : BitVec 1) (z : BitVec 1) (s : BitVec 4) (b : BitVec 5) (a : BitVec 5) (d : BitVec 5) : Statement (.amoAnd c z s b a d) := by
  refine fun _ _ => .inr ⟨rfl, pack_lt' _ _ rfl, pack_odd _ _, ?_⟩
  show decode32 (pack [⟨1, 1⟩, ⟨6, 56⟩, ⟨5, d⟩, ⟨5, a⟩, ⟨5, b⟩, ⟨4, s⟩, ⟨1, z⟩, ⟨1, c⟩, ⟨4, 1⟩]) = .ok (.amoAnd c z s b a d)
  rw [major38 _ (by simp [bits_tail, bits_head])]
  simp [decodeMajor38, bits_tail, bits_head, fld_head, fld_tail]
theorem amoOr (c : BitVec 1) (z : BitVec 1) (s : BitVec 4) (b : BitVec 5) (a : BitVec 5) (d : BitVec 5) : Statement (.amoOr c z s b a d) := by
  refine fun _ _ => .inr ⟨rfl, pack_lt' _ _ rfl, pack_odd _ _, ?_⟩
  show decode32 (pack [⟨1, 1⟩, ⟨6, 56⟩, ⟨5, d⟩, ⟨5, a⟩, ⟨5, b⟩, ⟨4, s⟩, ⟨1, z⟩, ⟨1, c⟩, ⟨4, 2⟩]) = .ok (.amoOr c z s b a d)
  rw [major38 _ (by simp [bits_tail, bits_head])]
  simp [decodeMajor38, bits_tail, bits_head, fld_head, fld_tail]
theorem amoXor (c : BitVec 1) (z : BitVec 1) (s : BitVec 4) (b : BitVec 5) (a : BitVec 5) (d : BitVec 5) : Statement (.amoXor c z s b a d) := by
  refine fun _ _ => .inr ⟨rfl, pack_lt' _ _ rfl, pack_odd _ _, ?_⟩
  show decode32 (pack [⟨1, 1⟩, ⟨6, 56⟩, ⟨5, d⟩, ⟨5, a⟩, ⟨5, b⟩, ⟨4, s⟩, ⟨1, z⟩, ⟨1, c⟩, ⟨4, 3⟩]) = .ok (.amoXor c z s b a d)
  rw [major38 _ (by simp [bits_tail, bits_head])]
  simp [decodeMajor38, bits_tail, bits_head, fld_head, fld_tail]
theorem amoMin (c : BitVec 1) (z : BitVec 1) (s : BitVec 4) (b : BitVec 5) (a : BitVec 5) (d : BitVec 5) : Statement (.amoMin c z s b a d) := by
  refine fun _ _ => .inr ⟨rfl, pack_lt' _ _ rfl, pack_odd _ _, ?_⟩
  show decode32 (pack [⟨1, 1⟩, ⟨6, 56⟩, ⟨5, d⟩, ⟨5, a⟩, ⟨5, b⟩, ⟨4, s⟩, ⟨1, z⟩, ⟨1, c⟩, ⟨4, 4⟩]) = .ok (.amoMin c z s b a d)
  rw [major38 _ (by simp [bits_tail, bits_head])]
  simp [decodeMajor38, bits_tail, bits_head, fld_head, fld_tail]
theorem amoMax (c : BitVec 1) (z : BitVec 1) (s : BitVec 4) (b : BitVec 5) (a : BitVec 5) (d : BitVec 5) : Statement (.amoMax c z s b a d) := by
  refine fun _ _ => .inr ⟨rfl, pack_lt' _ _ rfl, pack_odd _ _, ?_⟩
  show decode32 (pack [⟨1, 1⟩, ⟨6, 56⟩, ⟨5, d⟩, ⟨5, a⟩, ⟨5, b⟩, ⟨4, s⟩, ⟨1, z⟩, ⟨1, c⟩, ⟨4, 5⟩]) = .ok (.amoMax c z s b a d)
  rw [major38 _ (by simp [bits_tail, bits_head])]
  simp [decodeMajor38, bits_tail, bits_head, fld_head, fld_tail]
theorem amoMinn (c : BitVec 1) (z : BitVec 1) (s : BitVec 4) (b : BitVec 5) (a : BitVec 5) (d : BitVec 5) : Statement (.amoMinn c z s b a d) := by
  refine fun _ _ => .inr ⟨rfl, pack_lt' _ _ rfl, pack_odd _ _, ?_⟩
  show decode32 (pack [⟨1, 1⟩, ⟨6, 56⟩, ⟨5, d⟩, ⟨5, a⟩, ⟨5, b⟩, ⟨4, s⟩, ⟨1, z⟩, ⟨1, c⟩, ⟨4, 6⟩]) = .ok (.amoMinn c z s b a d)
  rw [major38 _ (by simp [bits_tail, bits_head])]
  simp [decodeMajor38, bits_tail, bits_head, fld_head, fld_tail]
theorem amoMaxn (c : BitVec 1) (z : BitVec 1) (s : BitVec 4) (b : BitVec 5) (a : BitVec 5) (d : BitVec 5) : Statement (.amoMaxn c z s b a d) := by
  refine fun _ _ => .inr ⟨rfl, pack_lt' _ _ rfl, pack_odd _ _, ?_⟩
  show decode32 (pack [⟨1, 1⟩, ⟨6, 56⟩, ⟨5, d⟩, ⟨5, a⟩, ⟨5, b⟩, ⟨4, s⟩, ⟨1, z⟩, ⟨1, c⟩, ⟨4, 7⟩]) = .ok (.amoMaxn c z s b a d)
  rw [major38 _ (by simp [bits_tail, bits_head])]
  simp [decodeMajor38, bits_tail, bits_head, fld_head, fld_tail]
theorem amoSwap (c : BitVec 1) (z : BitVec 1) (s : BitVec 4) (b : BitVec 5) (a : BitVec 5) (d : BitVec 5) : Statement (.amoSwap c z s b a d) := by
  refine fun _ _ => .inr ⟨rfl, pack_lt' _ _ rfl, pack_odd _ _, ?_⟩
  show decode32 (pack [⟨1, 1⟩, ⟨6, 56⟩, ⟨5, d⟩, ⟨5, a⟩, ⟨5, b⟩, ⟨4, s⟩, ⟨1, z⟩, ⟨1, c⟩, ⟨4, 8⟩]) = .ok (.amoSwap c z s b a d)
  rw [major38 _ (by simp [bits_tail, bits_head])]
  simp [decodeMajor38, bits_tail, bits_head, fld_head, fld_tail]
theorem cas (c : BitVec 1) (z : BitVec 1) (s : BitVec 4) (b : BitVec 5) (a : BitVec 5) (d : BitVec 5) : Statement (.cas c z s b a d) := by
  refine fun _ _ => .inr ⟨rfl, pack_lt' _ _ rfl, pack_odd _ _, ?_⟩
  show decode32 (pack [⟨1, 1⟩, ⟨6, 56⟩, ⟨5, d⟩, ⟨5, a⟩, ⟨5, b⟩, ⟨4, s⟩, ⟨1, z⟩, ⟨1, c⟩, ⟨4, 9⟩]) = .ok (.cas c z s b a d)
  rw [major38 _ (by simp [bits_tail, bits_head])]
  simp [decodeMajor38, bits_tail, bits_head, fld_head, fld_tail]
theorem ldlk (z : BitVec 1) (a : BitVec 5) (d : BitVec 5) : Statement (.ldlk z a d) := by
  refine fun _ _ => .inr ⟨rfl, pack_lt' _ _ rfl, pack_odd _ _, ?_⟩
  show decode32 (pack [⟨1, 1⟩, ⟨6, 56⟩, ⟨5, d⟩, ⟨5, a⟩, ⟨5, 0⟩, ⟨4, 0⟩, ⟨1, z⟩, ⟨1, 0⟩, ⟨4, 10⟩]) = .ok (.ldlk z a d)
  rw [major38 _ (by simp [bits_tail, bits_head])]
  simp [decodeMajor38, bits_tail, bits_head, fld_head, fld_tail]
theorem stul (z : BitVec 1) (b : BitVec 5) (a : BitVec 5) : Statement (.stul z b a) := by
  refine fun _ _ => .inr ⟨rfl, pack_lt' _ _ rfl, pack_odd _ _, ?_⟩
  show decode32 (pack [⟨1, 1⟩, ⟨6, 56⟩, ⟨5, 0⟩, ⟨5, a⟩, ⟨5, b⟩, ⟨4, 0⟩, ⟨1, z⟩, ⟨1, 0⟩, ⟨4, 11⟩]) = .ok (.stul z b a)
  rw [major38 _ (by simp [bits_tail, bits_head])]
  simp [decodeMajor38, bits_tail, bits_head, fld_head, fld_tail]
theorem acq (z : BitVec 1) (s : BitVec 4) (a : BitVec 5) (d : BitVec 5) : Statement (.acq z s a d) := by
  refine fun _ _ => .inr ⟨rfl, pack_lt' _ _ rfl, pack_odd _ _, ?_⟩
  show decode32 (pack [⟨1, 1⟩, ⟨6, 57⟩, ⟨5, d⟩, ⟨5, a⟩, ⟨5, 0⟩, ⟨4, s⟩, ⟨1, z⟩, ⟨1, 0⟩, ⟨4, 0⟩]) = .ok (.acq z s a d)
  rw [major39 _ (by simp [bits_tail, bits_head])]
  simp [decodeMajor39, bits_tail, bits_head, fld_head, fld_tail]
theorem rel (z : BitVec 1) (s : BitVec 4) (b : BitVec 5) (a : BitVec 5) : Statement (.rel z s b a) := by
  refine fun _ _ => .inr ⟨rfl, pack_lt' _ _ rfl, pack_odd _ _, ?_⟩
  show decode32 (pack [⟨1, 1⟩, ⟨6, 57⟩, ⟨5, 0⟩, ⟨5, a⟩, ⟨5, b⟩, ⟨4, s⟩, ⟨1, z⟩, ⟨1, 0⟩, ⟨4, 1⟩]) = .ok (.rel z s b a)
  rw [major39 _ (by simp [bits_tail, bits_head])]
  simp [decodeMajor39, bits_tail, bits_head, fld_head, fld_tail]
theorem scld (z : BitVec 1) (s : BitVec 4) (a : BitVec 5) (d : BitVec 5) : Statement (.scld z s a d) := by
  refine fun _ _ => .inr ⟨rfl, pack_lt' _ _ rfl, pack_odd _ _, ?_⟩
  show decode32 (pack [⟨1, 1⟩, ⟨6, 57⟩, ⟨5, d⟩, ⟨5, a⟩, ⟨5, 0⟩, ⟨4, s⟩, ⟨1, z⟩, ⟨1, 0⟩, ⟨4, 2⟩]) = .ok (.scld z s a d)
  rw [major39 _ (by simp [bits_tail, bits_head])]
  simp [decodeMajor39, bits_tail, bits_head, fld_head, fld_tail]
theorem scst (z : BitVec 1) (s : BitVec 4) (b : BitVec 5) (a : BitVec 5) : Statement (.scst z s b a) := by
  refine fun _ _ => .inr ⟨rfl, pack_lt' _ _ rfl, pack_odd _ _, ?_⟩
  show decode32 (pack [⟨1, 1⟩, ⟨6, 57⟩, ⟨5, 0⟩, ⟨5, a⟩, ⟨5, b⟩, ⟨4, s⟩, ⟨1, z⟩, ⟨1, 0⟩, ⟨4, 3⟩]) = .ok (.scst z s b a)
  rw [major39 _ (by simp [bits_tail, bits_head])]
  simp [decodeMajor39, bits_tail, bits_head, fld_head, fld_tail]
theorem fence (s : BitVec 4) : Statement (.fence s) := by
  refine fun _ _ => .inr ⟨rfl, pack_lt' _ _ rfl, pack_odd _ _, ?_⟩
  show decode32 (pack [⟨1, 1⟩, ⟨6, 57⟩, ⟨5, 0⟩, ⟨5, 0⟩, ⟨5, 0⟩, ⟨4, s⟩, ⟨1, 0⟩, ⟨1, 0⟩, ⟨4, 4⟩]) = .ok (.fence s)
  rw [major39 _ (by simp [bits_tail, bits_head])]
  simp [decodeMajor39, bits_tail, bits_head, fld_head, fld_tail]
theorem fenceP (s : BitVec 4) (q : BitVec 5) (p : BitVec 5) : Statement (.fenceP s q p) := by
  refine fun _ _ => .inr ⟨rfl, pack_lt' _ _ rfl, pack_odd _ _, ?_⟩
  show decode32 (pack [⟨1, 1⟩, ⟨6, 57⟩, ⟨5, 0⟩, ⟨5, p⟩, ⟨5, q⟩, ⟨4, s⟩, ⟨1, 0⟩, ⟨1, 0⟩, ⟨4, 5⟩]) = .ok (.fenceP s q p)
  rw [major39 _ (by simp [bits_tail, bits_head])]
  simp [decodeMajor39, bits_tail, bits_head, fld_head, fld_tail]
theorem cmt : Statement (.cmt) := by
  refine fun _ _ => .inr ⟨rfl, pack_lt' _ _ rfl, pack_odd _ _, ?_⟩
  show decode32 (pack [⟨1, 1⟩, ⟨6, 57⟩, ⟨5, 0⟩, ⟨5, 0⟩, ⟨5, 0⟩, ⟨4, 0⟩, ⟨1, 0⟩, ⟨1, 0⟩, ⟨4, 6⟩]) = .ok (.cmt)
  rw [major39 _ (by simp [bits_tail, bits_head])]
  simp [decodeMajor39, bits_tail, bits_head, fld_head, fld_tail]
theorem trig : Statement (.trig) := by
  refine fun _ _ => .inr ⟨rfl, pack_lt' _ _ rfl, pack_odd _ _, ?_⟩
  show decode32 (pack [⟨1, 1⟩, ⟨6, 57⟩, ⟨5, 0⟩, ⟨5, 0⟩, ⟨5, 0⟩, ⟨4, 0⟩, ⟨1, 0⟩, ⟨1, 0⟩, ⟨4, 7⟩]) = .ok (.trig)
  rw [major39 _ (by simp [bits_tail, bits_head])]
  simp [decodeMajor39, bits_tail, bits_head, fld_head, fld_tail]
theorem waitList (c : BitVec 1) (s : BitVec 4) (a : BitVec 5) (d : BitVec 5) : Statement (.waitList c s a d) := by
  refine fun _ _ => .inr ⟨rfl, pack_lt' _ _ rfl, pack_odd _ _, ?_⟩
  show decode32 (pack [⟨1, 1⟩, ⟨6, 58⟩, ⟨5, d⟩, ⟨5, a⟩, ⟨5, 0⟩, ⟨4, s⟩, ⟨1, c⟩, ⟨3, 0⟩, ⟨1, 0⟩, ⟨1, 0⟩]) = .ok (.waitList c s a d)
  rw [major3A _ (by simp [bits_tail, bits_head])]
  simp [decodeMajor3A, bits_tail, bits_head, fld_head, fld_tail]
theorem waitBar (c : BitVec 1) (s : BitVec 4) (a : BitVec 5) (d : BitVec 5) : Statement (.waitBar c s a d) := by
  refine fun _ _ => .inr ⟨rfl, pack_lt' _ _ rfl, pack_odd _ _, ?_⟩
  show decode32 (pack [⟨1, 1⟩, ⟨6, 58⟩, ⟨5, d⟩, ⟨5, a⟩, ⟨5, 0⟩, ⟨4, s⟩, ⟨1, c⟩, ⟨3, 1⟩, ⟨1, 0⟩, ⟨1, 0⟩]) = .ok (.waitBar c s a d)
  rw [major3A _ (by simp [bits_tail, bits_head])]
  simp [decodeMajor3A, bits_tail, bits_head, fld_head, fld_tail]
theorem waitPipe (c : BitVec 1) (s : BitVec 4) (b : BitVec 5) (a : BitVec 5) (d : BitVec 5) : Statement (.waitPipe c s b a d) := by
  refine fun _ _ => .inr ⟨rfl, pack_lt' _ _ rfl, pack_odd _ _, ?_⟩
  show decode32 (pack [⟨1, 1⟩, ⟨6, 58⟩, ⟨5, d⟩, ⟨5, a⟩, ⟨5, b⟩, ⟨4, s⟩, ⟨1, c⟩, ⟨3, 2⟩, ⟨1, 0⟩, ⟨1, 0⟩]) = .ok (.waitPipe c s b a d)
  rw [major3A _ (by simp [bits_tail, bits_head])]
  simp [decodeMajor3A, bits_tail, bits_head, fld_head, fld_tail]
theorem waitJoin (c : BitVec 1) (s : BitVec 4) (a : BitVec 5) (d : BitVec 5) : Statement (.waitJoin c s a d) := by
  refine fun _ _ => .inr ⟨rfl, pack_lt' _ _ rfl, pack_odd _ _, ?_⟩
  show decode32 (pack [⟨1, 1⟩, ⟨6, 58⟩, ⟨5, d⟩, ⟨5, a⟩, ⟨5, 0⟩, ⟨4, s⟩, ⟨1, c⟩, ⟨3, 3⟩, ⟨1, 0⟩, ⟨1, 0⟩]) = .ok (.waitJoin c s a d)
  rw [major3A _ (by simp [bits_tail, bits_head])]
  simp [decodeMajor3A, bits_tail, bits_head, fld_head, fld_tail]
theorem waitEvq (c : BitVec 1) (s : BitVec 4) (d : BitVec 5) : Statement (.waitEvq c s d) := by
  refine fun _ _ => .inr ⟨rfl, pack_lt' _ _ rfl, pack_odd _ _, ?_⟩
  show decode32 (pack [⟨1, 1⟩, ⟨6, 58⟩, ⟨5, d⟩, ⟨5, 0⟩, ⟨5, 0⟩, ⟨4, s⟩, ⟨1, c⟩, ⟨3, 4⟩, ⟨1, 0⟩, ⟨1, 0⟩]) = .ok (.waitEvq c s d)
  rw [major3A _ (by simp [bits_tail, bits_head])]
  simp [decodeMajor3A, bits_tail, bits_head, fld_head, fld_tail]
theorem waitNotice (c : BitVec 1) (s : BitVec 4) (d : BitVec 5) : Statement (.waitNotice c s d) := by
  refine fun _ _ => .inr ⟨rfl, pack_lt' _ _ rfl, pack_odd _ _, ?_⟩
  show decode32 (pack [⟨1, 1⟩, ⟨6, 58⟩, ⟨5, d⟩, ⟨5, 0⟩, ⟨5, 0⟩, ⟨4, s⟩, ⟨1, c⟩, ⟨3, 5⟩, ⟨1, 0⟩, ⟨1, 0⟩]) = .ok (.waitNotice c s d)
  rw [major3A _ (by simp [bits_tail, bits_head])]
  simp [decodeMajor3A, bits_tail, bits_head, fld_head, fld_tail]
theorem waitProd (c : BitVec 1) (s : BitVec 4) (d : BitVec 5) : Statement (.waitProd c s d) := by
  refine fun _ _ => .inr ⟨rfl, pack_lt' _ _ rfl, pack_odd _ _, ?_⟩
  show decode32 (pack [⟨1, 1⟩, ⟨6, 58⟩, ⟨5, d⟩, ⟨5, 0⟩, ⟨5, 0⟩, ⟨4, s⟩, ⟨1, c⟩, ⟨3, 6⟩, ⟨1, 0⟩, ⟨1, 0⟩]) = .ok (.waitProd c s d)
  rw [major3A _ (by simp [bits_tail, bits_head])]
  simp [decodeMajor3A, bits_tail, bits_head, fld_head, fld_tail]
theorem waitMem (z : BitVec 1) (o : BitVec 3) (c : BitVec 1) (s : BitVec 4) (b : BitVec 5) (a : BitVec 5) (d : BitVec 5) : Statement (.waitMem z o c s b a d) := by
  refine fun _ _ => .inr ⟨rfl, pack_lt' _ _ rfl, pack_odd _ _, ?_⟩
  show decode32 (pack [⟨1, 1⟩, ⟨6, 58⟩, ⟨5, d⟩, ⟨5, a⟩, ⟨5, b⟩, ⟨4, s⟩, ⟨1, c⟩, ⟨3, o⟩, ⟨1, 1⟩, ⟨1, z⟩]) = .ok (.waitMem z o c s b a d)
  rw [major3A _ (by simp [bits_tail, bits_head])]
  simp [decodeMajor3A, bits_tail, bits_head, fld_head, fld_tail]
theorem send (s : BitVec 4) (a : BitVec 5) (d : BitVec 5) : Statement (.send s a d) := by
  refine fun _ _ => .inr ⟨rfl, pack_lt' _ _ rfl, pack_odd _ _, ?_⟩
  show decode32 (pack [⟨1, 1⟩, ⟨6, 59⟩, ⟨5, d⟩, ⟨5, a⟩, ⟨5, 0⟩, ⟨4, s⟩, ⟨2, 0⟩, ⟨4, 0⟩]) = .ok (.send s a d)
  rw [major3B _ (by simp [bits_tail, bits_head])]
  simp [decodeMajor3B, bits_tail, bits_head, fld_head, fld_tail]
theorem htag (a : BitVec 5) (t : BitVec 4) : Statement (.htag a t) := by
  refine fun _ _ => .inr ⟨rfl, pack_lt' _ _ rfl, pack_odd _ _, ?_⟩
  show decode32 (pack [⟨1, 1⟩, ⟨6, 59⟩, ⟨4, t⟩, ⟨1, 0⟩, ⟨5, a⟩, ⟨5, 0⟩, ⟨4, 0⟩, ⟨2, 0⟩, ⟨4, 1⟩]) = .ok (.htag a t)
  rw [major3B _ (by simp [bits_tail, bits_head])]
  simp [decodeMajor3B, bits_tail, bits_head, fld_head, fld_tail]
theorem spawn (a : BitVec 5) : Statement (.spawn a) := by
  refine fun _ _ => .inr ⟨rfl, pack_lt' _ _ rfl, pack_odd _ _, ?_⟩
  show decode32 (pack [⟨1, 1⟩, ⟨6, 59⟩, ⟨4, 0⟩, ⟨1, 0⟩, ⟨5, a⟩, ⟨5, 0⟩, ⟨4, 0⟩, ⟨2, 0⟩, ⟨4, 2⟩]) = .ok (.spawn a)
  rw [major3B _ (by simp [bits_tail, bits_head])]
  simp [decodeMajor3B, bits_tail, bits_head, fld_head, fld_tail]
theorem join (s : BitVec 4) (a : BitVec 5) : Statement (.join s a) := by
  refine fun _ _ => .inr ⟨rfl, pack_lt' _ _ rfl, pack_odd _ _, ?_⟩
  show decode32 (pack [⟨1, 1⟩, ⟨6, 59⟩, ⟨4, 0⟩, ⟨1, 0⟩, ⟨5, a⟩, ⟨5, 0⟩, ⟨4, s⟩, ⟨2, 0⟩, ⟨4, 3⟩]) = .ok (.join s a)
  rw [major3B _ (by simp [bits_tail, bits_head])]
  simp [decodeMajor3B, bits_tail, bits_head, fld_head, fld_tail]
theorem launch (s : BitVec 4) (a : BitVec 5) (d : BitVec 5) : Statement (.launch s a d) := by
  refine fun _ _ => .inr ⟨rfl, pack_lt' _ _ rfl, pack_odd _ _, ?_⟩
  show decode32 (pack [⟨1, 1⟩, ⟨6, 59⟩, ⟨5, d⟩, ⟨5, a⟩, ⟨5, 0⟩, ⟨4, s⟩, ⟨2, 0⟩, ⟨4, 4⟩]) = .ok (.launch s a d)
  rw [major3B _ (by simp [bits_tail, bits_head])]
  simp [decodeMajor3B, bits_tail, bits_head, fld_head, fld_tail]
theorem wid (i : BitVec 5) (d : BitVec 5) : Statement (.wid i d) := by
  refine fun _ _ => .inr ⟨rfl, pack_lt' _ _ rfl, pack_odd _ _, ?_⟩
  show decode32 (pack [⟨1, 1⟩, ⟨6, 59⟩, ⟨5, d⟩, ⟨5, i⟩, ⟨5, 0⟩, ⟨4, 0⟩, ⟨2, 0⟩, ⟨4, 5⟩]) = .ok (.wid i d)
  rw [major3B _ (by simp [bits_tail, bits_head])]
  simp [decodeMajor3B, bits_tail, bits_head, fld_head, fld_tail]
theorem ppush (a : BitVec 5) (p : BitVec 5) : Statement (.ppush a p) := by
  refine fun _ _ => .inr ⟨rfl, pack_lt' _ _ rfl, pack_odd _ _, ?_⟩
  show decode32 (pack [⟨1, 1⟩, ⟨6, 59⟩, ⟨5, p⟩, ⟨5, a⟩, ⟨5, 0⟩, ⟨4, 0⟩, ⟨2, 0⟩, ⟨4, 6⟩]) = .ok (.ppush a p)
  rw [major3B _ (by simp [bits_tail, bits_head])]
  simp [decodeMajor3B, bits_tail, bits_head, fld_head, fld_tail]
theorem ppop (a : BitVec 5) (p : BitVec 5) : Statement (.ppop a p) := by
  refine fun _ _ => .inr ⟨rfl, pack_lt' _ _ rfl, pack_odd _ _, ?_⟩
  show decode32 (pack [⟨1, 1⟩, ⟨6, 59⟩, ⟨5, p⟩, ⟨5, a⟩, ⟨5, 0⟩, ⟨4, 0⟩, ⟨2, 0⟩, ⟨4, 7⟩]) = .ok (.ppop a p)
  rw [major3B _ (by simp [bits_tail, bits_head])]
  simp [decodeMajor3B, bits_tail, bits_head, fld_head, fld_tail]
theorem ppeek (p : BitVec 5) (d : BitVec 5) : Statement (.ppeek p d) := by
  refine fun _ _ => .inr ⟨rfl, pack_lt' _ _ rfl, pack_odd _ _, ?_⟩
  show decode32 (pack [⟨1, 1⟩, ⟨6, 59⟩, ⟨5, d⟩, ⟨5, p⟩, ⟨5, 0⟩, ⟨4, 0⟩, ⟨2, 0⟩, ⟨4, 8⟩]) = .ok (.ppeek p d)
  rw [major3B _ (by simp [bits_tail, bits_head])]
  simp [decodeMajor3B, bits_tail, bits_head, fld_head, fld_tail]
theorem migr (a : BitVec 5) (d : BitVec 5) : Statement (.migr a d) := by
  refine fun _ _ => .inr ⟨rfl, pack_lt' _ _ rfl, pack_odd _ _, ?_⟩
  show decode32 (pack [⟨1, 1⟩, ⟨6, 59⟩, ⟨5, d⟩, ⟨5, a⟩, ⟨5, 0⟩, ⟨4, 0⟩, ⟨2, 0⟩, ⟨4, 9⟩]) = .ok (.migr a d)
  rw [major3B _ (by simp [bits_tail, bits_head])]
  simp [decodeMajor3B, bits_tail, bits_head, fld_head, fld_tail]
theorem lease (b : BitVec 1) (c : BitVec 5) (a : BitVec 5) (d : BitVec 5) : Statement (.lease b c a d) := by
  refine fun _ _ => .inr ⟨rfl, pack_lt' _ _ rfl, pack_odd _ _, ?_⟩
  show decode32 (pack [⟨1, 1⟩, ⟨6, 59⟩, ⟨5, d⟩, ⟨5, a⟩, ⟨5, c⟩, ⟨4, 0⟩, ⟨1, b⟩, ⟨1, 0⟩, ⟨4, 10⟩]) = .ok (.lease b c a d)
  rw [major3B _ (by simp [bits_tail, bits_head])]
  simp [decodeMajor3B, bits_tail, bits_head, fld_head, fld_tail]
theorem unlease (b : BitVec 1) (a : BitVec 5) (d : BitVec 5) : Statement (.unlease b a d) := by
  refine fun _ _ => .inr ⟨rfl, pack_lt' _ _ rfl, pack_odd _ _, ?_⟩
  show decode32 (pack [⟨1, 1⟩, ⟨6, 59⟩, ⟨5, d⟩, ⟨5, a⟩, ⟨5, 0⟩, ⟨4, 0⟩, ⟨1, b⟩, ⟨1, 0⟩, ⟨4, 11⟩]) = .ok (.unlease b a d)
  rw [major3B _ (by simp [bits_tail, bits_head])]
  simp [decodeMajor3B, bits_tail, bits_head, fld_head, fld_tail]
theorem role (x : BitVec 2) (a : BitVec 5) (d : BitVec 5) : Statement (.role x a d) := by
  refine fun _ _ => .inr ⟨rfl, pack_lt' _ _ rfl, pack_odd _ _, ?_⟩
  show decode32 (pack [⟨1, 1⟩, ⟨6, 59⟩, ⟨5, d⟩, ⟨5, a⟩, ⟨5, 0⟩, ⟨4, 0⟩, ⟨2, x⟩, ⟨4, 12⟩]) = .ok (.role x a d)
  rw [major3B _ (by simp [bits_tail, bits_head])]
  simp [decodeMajor3B, bits_tail, bits_head, fld_head, fld_tail]
theorem nack (a : BitVec 5) (d : BitVec 5) : Statement (.nack a d) := by
  refine fun _ _ => .inr ⟨rfl, pack_lt' _ _ rfl, pack_odd _ _, ?_⟩
  show decode32 (pack [⟨1, 1⟩, ⟨6, 59⟩, ⟨5, d⟩, ⟨5, a⟩, ⟨5, 0⟩, ⟨4, 0⟩, ⟨2, 0⟩, ⟨4, 13⟩]) = .ok (.nack a d)
  rw [major3B _ (by simp [bits_tail, bits_head])]
  simp [decodeMajor3B, bits_tail, bits_head, fld_head, fld_tail]
theorem boost (a : BitVec 5) (d : BitVec 5) : Statement (.boost a d) := by
  refine fun _ _ => .inr ⟨rfl, pack_lt' _ _ rfl, pack_odd _ _, ?_⟩
  show decode32 (pack [⟨1, 1⟩, ⟨6, 59⟩, ⟨5, d⟩, ⟨5, a⟩, ⟨5, 0⟩, ⟨4, 0⟩, ⟨2, 0⟩, ⟨4, 14⟩]) = .ok (.boost a d)
  rw [major3B _ (by simp [bits_tail, bits_head])]
  simp [decodeMajor3B, bits_tail, bits_head, fld_head, fld_tail]
theorem crr (r : BitVec 12) (d : BitVec 5) : Statement (.crr r d) := by
  refine fun _ h => .inr ⟨rfl, pack_lt' _ _ rfl, pack_odd _ _, ?_⟩
  have h : r.toNat ≠ 19 := by
    intro e
    have e' : r = 19#12 := BitVec.eq_of_toNat_eq (by simpa using e)
    subst e'
    exact absurd h (by decide +revert)
  show decode32 (pack [⟨1, 1⟩, ⟨6, 60⟩, ⟨5, d⟩, ⟨5, 0⟩, ⟨12, r⟩, ⟨3, 0⟩]) = .ok (.crr r d)
  rw [major3C _ (by simp [bits_tail, bits_head])]
  simp [decodeMajor3C, bits_tail, bits_head, fld_head, fld_tail, h]
theorem crrEvq (d : BitVec 5) : Statement (.crrEvq d) := by
  refine fun _ _ => .inr ⟨rfl, pack_lt' _ _ rfl, pack_odd _ _, ?_⟩
  show decode32 (pack [⟨1, 1⟩, ⟨6, 60⟩, ⟨5, d⟩, ⟨5, 0⟩, ⟨12, 19⟩, ⟨3, 0⟩]) = .ok (.crrEvq d)
  rw [major3C _ (by simp [bits_tail, bits_head])]
  simp [decodeMajor3C, bits_tail, bits_head, fld_head, fld_tail]
theorem crw (r : BitVec 12) (a : BitVec 5) : Statement (.crw r a) := by
  refine fun _ _ => .inr ⟨rfl, pack_lt' _ _ rfl, pack_odd _ _, ?_⟩
  show decode32 (pack [⟨1, 1⟩, ⟨6, 60⟩, ⟨5, 0⟩, ⟨5, a⟩, ⟨12, r⟩, ⟨3, 1⟩]) = .ok (.crw r a)
  rw [major3C _ (by simp [bits_tail, bits_head])]
  simp [decodeMajor3C, bits_tail, bits_head, fld_head, fld_tail]
theorem trap (n : BitVec 12) : Statement (.trap n) := by
  refine fun _ _ => .inr ⟨rfl, pack_lt' _ _ rfl, pack_odd _ _, ?_⟩
  show decode32 (pack [⟨1, 1⟩, ⟨6, 61⟩, ⟨5, 0⟩, ⟨5, 0⟩, ⟨12, n⟩, ⟨3, 0⟩]) = .ok (.trap n)
  rw [major3D _ (by simp [bits_tail, bits_head])]
  simp [decodeMajor3D, bits_tail, bits_head, fld_head, fld_tail]
theorem sysc (n : BitVec 12) : Statement (.sysc n) := by
  refine fun _ _ => .inr ⟨rfl, pack_lt' _ _ rfl, pack_odd _ _, ?_⟩
  show decode32 (pack [⟨1, 1⟩, ⟨6, 61⟩, ⟨5, 0⟩, ⟨5, 0⟩, ⟨12, n⟩, ⟨3, 1⟩]) = .ok (.sysc n)
  rw [major3D _ (by simp [bits_tail, bits_head])]
  simp [decodeMajor3D, bits_tail, bits_head, fld_head, fld_tail]
theorem bkpt (n : BitVec 12) : Statement (.bkpt n) := by
  refine fun _ _ => .inr ⟨rfl, pack_lt' _ _ rfl, pack_odd _ _, ?_⟩
  show decode32 (pack [⟨1, 1⟩, ⟨6, 61⟩, ⟨5, 0⟩, ⟨5, 0⟩, ⟨12, n⟩, ⟨3, 2⟩]) = .ok (.bkpt n)
  rw [major3D _ (by simp [bits_tail, bits_head])]
  simp [decodeMajor3D, bits_tail, bits_head, fld_head, fld_tail]
theorem eret : Statement (.eret) := by
  refine fun _ _ => .inr ⟨rfl, pack_lt' _ _ rfl, pack_odd _ _, ?_⟩
  show decode32 (pack [⟨1, 1⟩, ⟨6, 61⟩, ⟨5, 0⟩, ⟨5, 0⟩, ⟨12, 0⟩, ⟨3, 3⟩]) = .ok (.eret)
  rw [major3D _ (by simp [bits_tail, bits_head])]
  simp [decodeMajor3D, bits_tail, bits_head, fld_head, fld_tail]
theorem tack : Statement (.tack) := by
  refine fun _ _ => .inr ⟨rfl, pack_lt' _ _ rfl, pack_odd _ _, ?_⟩
  show decode32 (pack [⟨1, 1⟩, ⟨6, 61⟩, ⟨5, 0⟩, ⟨5, 0⟩, ⟨12, 0⟩, ⟨3, 4⟩]) = .ok (.tack)
  rw [major3D _ (by simp [bits_tail, bits_head])]
  simp [decodeMajor3D, bits_tail, bits_head, fld_head, fld_tail]
theorem tlbw (b : BitVec 5) (a : BitVec 5) : Statement (.tlbw b a) := by
  refine fun _ _ => .inr ⟨rfl, pack_lt' _ _ rfl, pack_odd _ _, ?_⟩
  show decode32 (pack [⟨1, 1⟩, ⟨6, 62⟩, ⟨5, 0⟩, ⟨5, a⟩, ⟨5, b⟩, ⟨4, 0⟩, ⟨6, 0⟩]) = .ok (.tlbw b a)
  rw [major3E _ (by simp [bits_tail, bits_head])]
  simp [decodeMajor3E, bits_tail, bits_head, fld_head, fld_tail]
theorem tlbi (s : BitVec 4) (a : BitVec 5) : Statement (.tlbi s a) := by
  refine fun _ _ => .inr ⟨rfl, pack_lt' _ _ rfl, pack_odd _ _, ?_⟩
  show decode32 (pack [⟨1, 1⟩, ⟨6, 62⟩, ⟨5, 0⟩, ⟨5, a⟩, ⟨5, 0⟩, ⟨4, s⟩, ⟨6, 1⟩]) = .ok (.tlbi s a)
  rw [major3E _ (by simp [bits_tail, bits_head])]
  simp [decodeMajor3E, bits_tail, bits_head, fld_head, fld_tail]
theorem powerUp : Statement .powerUp := fun h => nomatch h
theorem bootGo : Statement .bootGo := fun h => nomatch h
theorem chanterBoot : Statement .chanterBoot := fun h => nomatch h
theorem droneReady : Statement .droneReady := fun h => nomatch h
theorem hostAccess : Statement .hostAccess := fun h => nomatch h
theorem registerWrite : Statement .registerWrite := fun h => nomatch h
theorem doorbell : Statement .doorbell := fun h => nomatch h
theorem completionDoorbell : Statement .completionDoorbell := fun h => nomatch h
theorem qcplWrite : Statement .qcplWrite := fun h => nomatch h
theorem launchEnqueueResume : Statement .launchEnqueueResume := fun h => nomatch h
theorem launchAdmission : Statement .launchAdmission := fun h => nomatch h
theorem rackLaunch : Statement .rackLaunch := fun h => nomatch h
theorem residencyReport : Statement .residencyReport := fun h => nomatch h
theorem dispatch : Statement .dispatch := fun h => nomatch h
theorem pipeActorFire : Statement .pipeActorFire := fun h => nomatch h
theorem priorityAge : Statement .priorityAge := fun h => nomatch h
theorem fitStarvation : Statement .fitStarvation := fun h => nomatch h
theorem migrationComplete : Statement .migrationComplete := fun h => nomatch h
theorem forwardingExpire : Statement .forwardingExpire := fun h => nomatch h
theorem pageResident : Statement .pageResident := fun h => nomatch h
theorem quotaDecline : Statement .quotaDecline := fun h => nomatch h
theorem tlbMiss : Statement .tlbMiss := fun h => nomatch h
theorem regionTimeCommit : Statement .regionTimeCommit := fun h => nomatch h
theorem intervalTimeClose : Statement .intervalTimeClose := fun h => nomatch h
theorem loadDataReturn : Statement .loadDataReturn := fun h => nomatch h
theorem postedLineAtHome : Statement .postedLineAtHome := fun h => nomatch h
theorem storeAck : Statement .storeAck := fun h => nomatch h
theorem checkedAccessAtHome : Statement .checkedAccessAtHome := fun h => nomatch h
theorem lockGrant : Statement .lockGrant := fun h => nomatch h
theorem pageMigration : Statement .pageMigration := fun h => nomatch h
theorem panpipeDelivery : Statement .panpipeDelivery := fun h => nomatch h
theorem roleMapAck : Statement .roleMapAck := fun h => nomatch h
theorem staleRequestReturn : Statement .staleRequestReturn := fun h => nomatch h
theorem injectionSend : Statement .injectionSend := fun h => nomatch h
theorem messageDelivery : Statement .messageDelivery := fun h => nomatch h
theorem handlerCreate : Statement .handlerCreate := fun h => nomatch h
theorem recordPass : Statement .recordPass := fun h => nomatch h
theorem firingRetire : Statement .firingRetire := fun h => nomatch h
theorem subtileRelease : Statement .subtileRelease := fun h => nomatch h
theorem launchComplete : Statement .launchComplete := fun h => nomatch h
theorem completionJoinResume : Statement .completionJoinResume := fun h => nomatch h
theorem launchEndWrite : Statement .launchEndWrite := fun h => nomatch h
theorem waitConditionMet : Statement .waitConditionMet := fun h => nomatch h
theorem waitTimeout : Statement .waitTimeout := fun h => nomatch h
theorem realignTimeout : Statement .realignTimeout := fun h => nomatch h
theorem censusSample : Statement .censusSample := fun h => nomatch h
theorem recastProposal : Statement .recastProposal := fun h => nomatch h
theorem recastDeadline : Statement .recastDeadline := fun h => nomatch h
theorem storageCopyDone : Statement .storageCopyDone := fun h => nomatch h
theorem computeRecastRebind : Statement .computeRecastRebind := fun h => nomatch h
theorem recastFinish : Statement .recastFinish := fun h => nomatch h
theorem leaseExpire : Statement .leaseExpire := fun h => nomatch h
theorem matrixGrant : Statement .matrixGrant := fun h => nomatch h
theorem matrixCommandDone : Statement .matrixCommandDone := fun h => nomatch h
theorem copyChainStart : Statement .copyChainStart := fun h => nomatch h
theorem scanChainStart : Statement .scanChainStart := fun h => nomatch h
theorem chainCopy : Statement .chainCopy := fun h => nomatch h
theorem chainMcast : Statement .chainMcast := fun h => nomatch h
theorem chainDeal : Statement .chainDeal := fun h => nomatch h
theorem chainLoop : Statement .chainLoop := fun h => nomatch h
theorem chainIfz : Statement .chainIfz := fun h => nomatch h
theorem chainIfnz : Statement .chainIfnz := fun h => nomatch h
theorem chainSignal : Statement .chainSignal := fun h => nomatch h
theorem chainEnd : Statement .chainEnd := fun h => nomatch h
theorem chainSel : Statement .chainSel := fun h => nomatch h
theorem mcastLineArrival : Statement .mcastLineArrival := fun h => nomatch h
theorem scanPart : Statement .scanPart := fun h => nomatch h
theorem scanMerge : Statement .scanMerge := fun h => nomatch h
theorem cabArrival : Statement .cabArrival := fun h => nomatch h
theorem budgetDivision : Statement .budgetDivision := fun h => nomatch h
theorem allocationEffect : Statement .allocationEffect := fun h => nomatch h
theorem peakCapReached : Statement .peakCapReached := fun h => nomatch h
theorem voltageStep : Statement .voltageStep := fun h => nomatch h
theorem boostExpire : Statement .boostExpire := fun h => nomatch h
theorem regulatorTimeout : Statement .regulatorTimeout := fun h => nomatch h
theorem trapDelivery : Statement .trapDelivery := fun h => nomatch h
theorem trapEscalation : Statement .trapEscalation := fun h => nomatch h
theorem journalRetry : Statement .journalRetry := fun h => nomatch h
theorem journalDiscard : Statement .journalDiscard := fun h => nomatch h
theorem freezeStart : Statement .freezeStart := fun h => nomatch h
theorem rackFreeze : Statement .rackFreeze := fun h => nomatch h
theorem freezeTargetTimeout : Statement .freezeTargetTimeout := fun h => nomatch h
theorem freezeComplete : Statement .freezeComplete := fun h => nomatch h
theorem freezeResume : Statement .freezeResume := fun h => nomatch h
theorem resumeComplete : Statement .resumeComplete := fun h => nomatch h
theorem attest : Statement .attest := fun h => nomatch h
theorem identity : Statement .identity := fun h => nomatch h
theorem release : Statement .release := fun h => nomatch h
theorem ceilings : Statement .ceilings := fun h => nomatch h
theorem powerOff : Statement .powerOff := fun h => nomatch h
theorem ualinkTargetRequest : Statement .ualinkTargetRequest := fun h => nomatch h
theorem softError : Statement .softError := fun h => nomatch h

end Sys2Proof.Laws.RoundTrip
end

