-- ==== Sys2Proof/Laws/Scalar.lean ====
section
/-! SUPPORT. What the shared scalar operations do when their issuer may issue. -/

set_option Elab.async false

namespace Sys2Proof.Laws

open Sys2Proof Sys2Proof.Machine

theorem alu3_ok {i : Instr} {z y x : BitVec 1} {b a d : BitVec 5} {f : Word → Word → Word} {s : State} {who : Issuer}
    {c : Ctx} {va vb : Word} {k k' : Cx} (hi : issues s who c) (hw : i.wellFormed = true)
    (h1 : (Cx.mk s who c).readSS y a z b = .ok (va, vb, k)) (h2 : k.writeS x d (f va vb) = .ok k') :
    alu3 i z y x b a d f s = .next (wrote k'.s who k'.c 4) := by
  unfold alu3
  rw [issueOn_ok hi hw (.inl rfl) (.inr rfl) (k := k'.next 4) (by simp [h1, bind, Except.bind, h2]), next_put,
    writeS_who h2, readSS_who h1]

theorem alu2_ok {i : Instr} {y x : BitVec 1} {a d : BitVec 5} {f : Word → Word} {s : State} {who : Issuer}
    {c : Ctx} {va : Word} {k k' : Cx} (hi : issues s who c) (hw : i.wellFormed = true)
    (h1 : (Cx.mk s who c).readS y a = .ok (va, k)) (h2 : k.writeS x d (f va) = .ok k') :
    alu2 i y x a d f s = .next (wrote k'.s who k'.c 4) := by
  unfold alu2
  rw [issueOn_ok hi hw (.inl rfl) (.inr rfl) (k := k'.next 4) (by simp [h1, bind, Except.bind, h2]), next_put,
    writeS_who h2, readS_who h1]

theorem aluI_ok {i : Instr} {a d : BitVec 5} {f : Word → Word} {s : State} {who : Issuer} {c : Ctx}
    (hi : issues s who c) (hw : i.wellFormed = true) :
    aluI i a d f s = .next (wrote s who (c.setS d (f (c.sreg a))) 4) := by
  unfold aluI
  rw [issueOn_ok (k := Cx.next ⟨s, who, c.setS d (f (c.sreg a))⟩ 4) hi hw (.inl rfl) (.inr rfl) rfl]; rfl

theorem branch_ok {i : Instr} {off : BitVec 11} {b a : BitVec 5} {p : Word → Word → Bool} {s : State} {who : Issuer}
    {c : Ctx} (hi : issues s who c) (hw : i.wellFormed = true) :
    branch i off b a p s = .next (if p (c.sreg a) (c.sreg b) then Cx.goto ⟨s, who, c⟩ (c.pc + imm off * 2)
      else Cx.next ⟨s, who, c⟩ 4).put := by
  unfold branch
  exact issueOn_ok hi hw (.inl rfl) (.inr rfl) rfl

end Sys2Proof.Laws
end

