-- ==== Sys2Proof/Tests/Slice0.lean ====
section
/-! SUPPORT. The model's own tests: ill-formed operands, a word of each instruction, single steps, and for every statement
with hypotheses a state and operands that meet them.  The expected values come from the rules of the manual. -/

set_option Elab.async false

open Sys2Proof Sys2Proof.Machine

namespace Sys2Proof.Tests

/-! ## Operands that no encoding admits -/

theorem test_illFormed_scalar : ∀ i ∈ ([.add 1 0 0 8 1 2, .sub 0 1 0 1 3 2, .seq 0 0 1 1 2 0, .csel 1 0 3 2 1, .clz 1 0 8 2,
    .sext 3 0 0 1 2, .zext 3 0 0 1 2, .ld 7 0 1 2, .ldx 7 0 0 0 1 2 3, .stx 3 1 0 0 3 1 2] : List Instr),
    i.wellFormed = false := by decide

theorem test_illFormed_vector : ∀ i ∈ ([.vadd32 7 0 1 2 3, .vsub32 0 0 20 2 3, .vmul32 0 0 1 31 3, .vmin32 3 0 1 2 20,
    .vshl32 2 0 1 2 3, .vexp2 3 0 1 2, .vcmp 3 0 6 1 2 3, .vcmp 3 0 0 1 2 0, .vcmp 3 0 0 1 2 8, .vadds 5 0 1 2 3,
    .vadds 2 0 1 2 3, .mand 1 8 1, .mand 8 1 1, .mor 1 2 0, .mnot 1 8, .mpop 7 1 2, .vtype 7, .vredAdd 0 0 1 1 8,
    .vdot 7 0 0 1 2 3] : List Instr), i.wellFormed = false := by decide

theorem test_illFormed_engines : ∀ i ∈ ([.mdrn 0 1 2 7 0, .cabpush 0 16 1 2] : List Instr), i.wellFormed = false := by decide

theorem test_illFormed_system : ∀ i ∈ ([.amoAdd 1 0 10 1 2 3, .amoAdd 0 0 1 1 2 3, .cas 1 1 15 1 2 3, .scld 1 10 1 2,
    .rel 0 10 1 2, .fence 10, .fenceP 6 6 0, .fenceP 6 0 6, .waitMem 0 6 0 4 1 2 3, .waitEvq 0 10 1, .send 10 1 2,
    .join 10 1, .launch 10 1 2, .role 3 1 2, .crr 0x13 1, .crr 0x006 1, .crw 0x015 1, .crw 0x024 1, .tlbi 3 1] :
    List Instr), i.wellFormed = false := by decide

theorem test_wellFormed : ∀ i ∈ ([.add 1 1 1 4 7 5, .csel 1 0 7 2 31, .ld 6 0 1 2, .vadd32 6 7 19 0 16, .vcmp 6 0 5 1 2 7,
    .vadds 4 0 1 2 3, .mand 0 7 1, .mdrn 127 1 2 6 3, .cabpush 7 15 1 2, .amoAdd 1 1 9 1 2 3, .amoAdd 0 1 0 1 2 3,
    .fenceP 9 5 0, .waitMem 1 5 1 9 1 2 3, .role 2 1 2, .crr 0x023 1, .crw 0x014 1, .tlbi 4 1, .tlbi 9 1] : List Instr),
    i.wellFormed = true := by decide

/-! ## A word of each instruction, from the manual's encodings: its fixed bits, and a value in each field -/

theorem test_decode_00 : ∀ p ∈ ([(0x1657e01, .add 1 0 1 18 23 28), (0x9657e01, .sub 1 0 1 18 23 28), (0x11657e01, .and 1 0 1 18 23 28),
     (0x19657e01, .or 1 0 1 18 23 28), (0x21657e01, .xor 1 0 1 18 23 28), (0x29657e01, .andn 1 0 1 18 23 28),
     (0x31657e01, .shl 1 0 1 18 23 28), (0x39657e01, .shr 1 0 1 18 23 28), (0x41657e01, .sra 1 0 1 18 23 28),
     (0x49657e01, .mul 1 0 1 18 23 28), (0x51657e01, .mulh 1 0 1 18 23 28), (0x59657e01, .mulhn 1 0 1 18 23 28),
     (0x61657e01, .div 1 0 1 18 23 28), (0x69657e01, .divn 1 0 1 18 23 28), (0x71657e01, .rem 1 0 1 18 23 28),
     (0x79657e01, .remn 1 0 1 18 23 28), (0x81657e01, .min 1 0 1 18 23 28), (0x89657e01, .max 1 0 1 18 23 28),
     (0x91657e01, .minn 1 0 1 18 23 28), (0x99657e01, .maxn 1 0 1 18 23 28), (0xa1657e01, .slt 1 0 1 18 23 28),
     (0xa9657e01, .sltn 1 0 1 18 23 28), (0xb1657e01, .seq 1 0 1 18 23 28), (0xb91b2b81, .csel 1 0 13 18 23)] : List (Nat × Instr)),
    (decode (wordBytes 4 p.1)).toOption = some (p.2, 4) := by decide +kernel

theorem test_decode_00_to_14 : ∀ p ∈ ([(0xc080d901, .clz 1 0 13 18), (0xc880d901, .ctz 1 0 13 18), (0xd080d901, .popc 1 0 13 18),
     (0xde412b81, .sext 3 0 1 18 23), (0xe6412b81, .zext 3 0 1 18 23), (0x68683, .addi 3 8 13),
     (0x20068683, .andi 3 8 13), (0x40068683, .ori 3 8 13), (0x60068683, .xori 3 8 13), (0x80068683, .shli 3 8 13),
     (0xa0068683, .shri 3 8 13), (0xc0068683, .srai 3 8 13), (0xe0068683, .slti 3 8 13), (0x3405, .lui 3 8),
     (0x3407, .addpc 3 8), (0x6010d921, .ld 3 8 13 18), (0x6010d923, .st 3 8 13 18),
     (0x18afc0a5, .ldx 3 0 1 0 23 28 1), (0x58afc0a5, .stx 3 0 1 0 23 28 1), (0x68027, .pref 3 8),
     (0x686a9, .alloc 3 8 13), (0x20003429, .free 3 8)] : List (Nat × Instr)),
    (decode (wordBytes 4 p.1)).toOption = some (p.2, 4) := by decide +kernel

theorem test_decode_18_to_1f : ∀ p ∈ ([(0x8080d931, .beq 1 8 13 18), (0x8082d931, .bne 1 8 13 18), (0x8084d931, .blt 1 8 13 18),
     (0x8086d931, .bge 1 8 13 18), (0x8088d931, .bltn 1 8 13 18), (0x808ad931, .bgen 1 8 13 18),
     (0x808c06b1, .loop 1 8 13), (0x3433, .jal 3 8), (0x686b5, .jalr 3 8 13), (0x60037, .realign 3), (0x3d, .fin),
     (0x3f, .nop)] : List (Nat × Instr)),
    (decode (wordBytes 4 p.1)).toOption = some (p.2, 4) := by decide +kernel

theorem test_decode_half : ∀ p ∈ ([(0x71a0, .vadd16 3 8 13), (0x71a2, .vsub16 3 8 13), (0x71a4, .vrsub16 3 8 13), (0x71a6, .vmul16 3 8 13),
     (0x71a8, .vmin16 3 8 13), (0x71aa, .vmax16 3 8 13), (0x71ac, .vand16 3 8 13), (0x71ae, .vor16 3 8 13),
     (0x71b0, .vxor16 3 8 13), (0x71b2, .vmov16 3 8 13), (0x71b4, .vabs16 3 8 13), (0x71b6, .vneg16 3 8 13),
     (0x71b8, .vshl16 3 8 13), (0x71ba, .vshr16 3 8 13), (0x71bc, .vsra16 3 8 13), (0x71be, .vfmak16 3 8 13)] : List (Nat × Instr)),
    (decode (wordBytes 2 p.1)).toOption = some (p.2, 2) := by decide +kernel

theorem test_decode_20_to_24 : ∀ p ∈ ([(0x601b2bc1, .vadd32 3 0 13 18 23), (0x605b2bc1, .vsub32 3 0 13 18 23), (0x609b2bc1, .vrsub32 3 0 13 18 23),
     (0x60db2bc1, .vmul32 3 0 13 18 23), (0x611b2bc1, .vmin32 3 0 13 18 23), (0x615b2bc1, .vmax32 3 0 13 18 23),
     (0x619b2bc1, .vand32 3 0 13 18 23), (0x61db2bc1, .vor32 3 0 13 18 23), (0x621b2bc1, .vxor32 3 0 13 18 23),
     (0x6240d941, .vmov32 3 0 13 18), (0x6280d941, .vabs32 3 0 13 18), (0x62c0d941, .vneg32 3 0 13 18),
     (0x631b2bc1, .vshl32 3 0 13 18 23), (0x635b2bc1, .vshr32 3 0 13 18 23), (0x639b2bc1, .vsra32 3 0 13 18 23),
     (0x63db2bc1, .vfmak32 3 0 13 18 23), (0x63657e43, .vfma 3 0 13 18 23 28), (0x63657e45, .vfms 3 0 13 18 23 28),
     (0x63657e47, .vfnma 3 0 13 18 23 28), (0x63657e49, .vcmp 3 0 13 18 23 28)] : List (Nat × Instr)),
    (decode (wordBytes 4 p.1)).toOption = some (p.2, 4) := by decide +kernel

theorem test_decode_25_to_27 : ∀ p ∈ ([(0x6000d94b, .vnot 3 0 13 18), (0x6040d94b, .vexp2 3 0 13 18), (0x6080d94b, .vlog2 3 0 13 18),
     (0x60c0d94b, .vrcp 3 0 13 18), (0x6100d94b, .vrsq 3 0 13 18), (0x614006cb, .viota 3 0 13),
     (0x618b2bcb, .vcvt 3 0 5 18 23), (0x601b2bcd, .vsel 3 0 13 18 23), (0x605b2bcd, .vperm 3 0 13 18 23),
     (0x609b2bcd, .vslideUp 3 0 13 18 23), (0x60db2bcd, .vslideDn 3 0 13 18 23),
     (0x6100d94d, .vcompress 3 0 13 18), (0x615b2bcd, .vadds 3 0 13 18 23), (0x6180d94d, .vscanpAdd 3 0 13 18),
     (0x61c0d94d, .vscanpMin 3 0 13 18), (0x6200d94d, .vscanpMax 3 0 13 18), (0x62012bcf, .vredAdd 3 0 1 18 23),
     (0x62412bcf, .vredMin 3 0 1 18 23), (0x62812bcf, .vredMax 3 0 1 18 23), (0x62c12bcf, .vredAnd 3 0 1 18 23),
     (0x63012bcf, .vredOr 3 0 1 18 23), (0x63412bcf, .vredXor 3 0 1 18 23), (0x63a57e4f, .vdot 3 0 1 18 23 28)] : List (Nat × Instr)),
    (decode (wordBytes 4 p.1)).toOption = some (p.2, 4) := by decide +kernel

theorem test_decode_28_to_17 : ∀ p ∈ ([(0x600086d1, .vbcast 3 8 13), (0x6050d951, .vins 3 8 13 18), (0x6090d951, .vext 3 8 13 18),
     (0x686d3, .unpkT5 3 8 13), (0x4686d3, .unpkI8 3 8 13), (0x8686d3, .unpkN8 3 8 13), (0xc686d3, .unpkI4 3 8 13),
     (0x10686d3, .unpkN4 3 8 13), (0x686d5, .mand 3 8 13), (0x4686d5, .mor 3 8 13), (0x8686d5, .mxor 3 8 13),
     (0xc03455, .mnot 3 8), (0x610086d5, .mpop 3 8 13), (0x60000057, .vtype 3), (0x601b2bab, .vld 3 0 13 18 23),
     (0x601b2bad, .vst 3 0 13 18 23), (0x601b2baf, .vlds 3 0 13 18 23), (0x605b2baf, .vsts 3 0 13 18 23),
     (0x609b2baf, .vgath 3 0 13 18 23), (0x60db2baf, .vscat 3 0 13 18 23), (0x611b2baf, .vldIndexed 3 0 13 18 23),
     (0x615b2baf, .vstIndexed 3 0 13 18 23)] : List (Nat × Instr)),
    (decode (wordBytes 4 p.1)).toOption = some (p.2, 4) := by decide +kernel

theorem test_decode_30_to_33 : ∀ p ∈ ([(0x610d161, .mma 3 8 13 2), (0x650d161, .mmag 3 8 13 2), (0x8001e1, .mzero 3), (0xc03461, .mldb 3 8),
     (0x710d5e1, .mdrn 3 8 13 2 3), (0x1403061, .mcfg 3 0), (0x1957f, .pfx 3 0 5 2), (0x6008063, .ecopy 3 8),
     (0x468063, .barinit 3 8), (0x868063, .baradd 3 8), (0x610d065, .cabcfg 3 8 13),
     (0x650d965, .cabpush 3 8 13 18), (0x803465, .cabmrg 3 8), (0xc686e5, .cabrd 3 8 13),
     (0x710d065, .cabdrn 3 8 13), (0x1403065, .cabclr 3), (0x6008067, .scan 3 8)] : List (Nat × Instr)),
    (decode (wordBytes 4 p.1)).toOption = some (p.2, 4) := by decide +kernel

theorem test_decode_38_to_39 : ∀ p ∈ ([(0xb657e71, .amoAdd 1 0 13 18 23 28), (0x1b657e71, .amoAnd 1 0 13 18 23 28),
     (0x2b657e71, .amoOr 1 0 13 18 23 28), (0x3b657e71, .amoXor 1 0 13 18 23 28),
     (0x4b657e71, .amoMin 1 0 13 18 23 28), (0x5b657e71, .amoMax 1 0 13 18 23 28),
     (0x6b657e71, .amoMinn 1 0 13 18 23 28), (0x7b657e71, .amoMaxn 1 0 13 18 23 28),
     (0x8b657e71, .amoSwap 1 0 13 18 23 28), (0x9b657e71, .cas 1 0 13 18 23 28), (0xa40086f1, .ldlk 1 8 13),
     (0xb410d071, .stul 1 8 13), (0x600d973, .acq 1 8 13 18), (0x161b2073, .rel 1 8 13 18),
     (0x2600d973, .scld 1 8 13 18), (0x361b2073, .scst 1 8 13 18), (0x40c00073, .fence 3),
     (0x50d0d073, .fenceP 3 8 13), (0x60000073, .cmt), (0x70000073, .trig)] : List (Nat × Instr)),
    (decode (wordBytes 4 p.1)).toOption = some (p.2, 4) := by decide +kernel

theorem test_decode_3a_to_3b : ∀ p ∈ ([(0x600d975, .waitList 1 8 13 18), (0xe00d975, .waitBar 1 8 13 18), (0x161b2bf5, .waitPipe 1 8 13 18 23),
     (0x1e00d975, .waitJoin 1 8 13 18), (0x260006f5, .waitEvq 1 8 13), (0x2e0006f5, .waitNotice 1 8 13),
     (0x360006f5, .waitProd 1 8 13), (0xc4afc0f5, .waitMem 1 0 1 2 23 28 1), (0xc086f7, .send 3 8 13),
     (0x10003477, .htag 3 8), (0x20003077, .spawn 3), (0x30c08077, .join 3 8), (0x40c086f7, .launch 3 8 13),
     (0x50003477, .wid 3 8), (0x60003477, .ppush 3 8), (0x70003477, .ppop 3 8), (0x80003477, .ppeek 3 8),
     (0x90003477, .migr 3 8), (0xa410d977, .lease 1 8 13 18), (0xb40086f7, .unlease 1 8 13),
     (0xcc0086f7, .role 3 8 13), (0xd0003477, .nack 3 8), (0xe0003477, .boost 3 8)] : List (Nat × Instr)),
    (decode (wordBytes 4 p.1)).toOption = some (p.2, 4) := by decide +kernel

theorem test_decode_3c_to_3e : ∀ p ∈ ([(0x60479, .crr 3 8), (0x2601f9, .crrEvq 3), (0x20068079, .crw 3 8), (0x6007b, .trap 3), (0x2006007b, .sysc 3),
     (0x4006007b, .bkpt 3), (0x6000007b, .eret), (0x8000007b, .tack), (0x6807d, .tlbw 3 8), (0x4c0807d, .tlbi 3 8)] : List (Nat × Instr)),
    (decode (wordBytes 4 p.1)).toOption = some (p.2, 4) := by decide +kernel

/-! ## Small states -/

/-- The firing of launch 0 that `withFiring` begins, with some scalar registers. -/
def lone (l : List (Nat × Word)) : Ctx := { uid := 1, launch := 0, gen := 1, regs := { s := l } }

/-- A state in which it is that firing's turn, in slot 0, its page 0 in its core's TLB. -/
def fire (c : Ctx) : State := State.reset.withFiring.putCtx (.slot 0) c

/-- A released package in which it is system core 0's turn. -/
def sysFire (l : List (Nat × Word)) : State :=
  { State.reset with cur := .sys 0, host := { stage := 5, ready := true }, sys := [(0, { ctx := { kind := 4, regs := { s := l } } })] }

/-- `issues`, as a test. -/
def onTurn (s : State) (who : Issuer) : Bool :=
  (s.cur == who) && s.mayIssue who && !s.vecTurn && !s.late && match s.ctxOf who with
    | some c => (c.st == .running) && c.vstream.isEmpty && c.asyncs.isEmpty && c.regs.due.isEmpty && c.regs.vdue.isEmpty && !bit c.regs.status 5
    | none => false

theorem issues_of_onTurn {s : State} {who : Issuer} (h : onTurn s who = true) : ∃ c, s.ctxOf who = some c ∧ issues s who c := by
  unfold onTurn at h
  split at h
  · rename_i c hc
    simp only [Bool.and_eq_true, beq_iff_eq, Bool.not_eq_true', List.isEmpty_iff] at h
    exact ⟨c, hc, ⟨h.1.1.1.1, hc, h.2.1.1.1.1.1, h.1.1.1.2, h.2.1.1.1.1.2, h.2.1.1.1.2, h.1.1.2, h.2.1.1.2, h.2.1.2, h.1.2⟩, h.2.2⟩
  · simp at h

/-- What a computation answers is checked, and it must answer. -/
def gives {ε α : Type} (e : Except ε α) (p : α → Bool) : Bool :=
  match e with
  | .ok a => p a
  | .error _ => false

def stalls {α : Type} : Except Stop α → Bool
  | .error .stall => true
  | _ => false

def homeIs (pa : Nat) : Place × Cx → Bool
  | (.home q _, _) => q == pa
  | _ => false

/-- The state of an outcome, if it is a next one. -/
def next? (o : Host.Outcome State Fault Refusal) : Option State :=
  match o with
  | .next t => some t
  | _ => none

/-- What the firing in slot 0 shows after an instruction. -/
def after (i : Instr) (s : State) {α : Type} (f : Ctx → α) : Option α := (next? (exec i s)).bind fun t => (t.slotAt 0).ctx.map f

/-- The hand of slot 0. -/
def hand0 (c : Ctx) : Cx := Cx.mk (fire c) (.slot 0) c

/-! ## Single steps -/

theorem test_add_wraps : after (.add 0 0 0 2 1 3) (fire (lone [(1, 0xFFFFFFFFFFFFFFFF), (2, 2)])) (·.sreg 3) = some 1 := by decide

theorem test_add_queue_source_and_destination : after (.add 0 1 1 2 4 4)
    (fire { lone [(2, 5)] with regs := { s := [(2, 5)], sq := [(4, [.val 7])] } }) (·.regs.sq.get 4 []) =
    some [.val 12] := by decide

theorem test_sub_order : after (.sub 0 0 0 2 1 1) (fire (lone [(1, 3), (2, 5)])) (·.sreg 1) = some 0xFFFFFFFFFFFFFFFE := by decide

theorem test_andn : after (.andn 0 0 0 2 1 3) (fire (lone [(1, 0xF), (2, 5)])) (·.sreg 3) = some 10 := by decide

theorem test_shl_low_six_bits : after (.shl 0 0 0 2 1 3) (fire (lone [(1, 1), (2, 65)])) (·.sreg 3) = some 2 := by decide

theorem test_sra_sign : after (.sra 0 0 0 2 1 3) (fire (lone [(1, 0x8000000000000000), (2, 63)])) (·.sreg 3) =
    some 0xFFFFFFFFFFFFFFFF := by decide

theorem test_mulh_signed : after (.mulh 0 0 0 2 1 3) (fire (lone [(1, 0xFFFFFFFFFFFFFFFF), (2, 1)])) (·.sreg 3) =
    some 0xFFFFFFFFFFFFFFFF := by decide

theorem test_mulhn_unsigned : after (.mulhn 0 0 0 2 1 3) (fire (lone [(1, 0xFFFFFFFFFFFFFFFF), (2, 2)])) (·.sreg 3) =
    some 1 := by decide

theorem test_div_by_zero : after (.div 0 0 0 2 1 3) (fire (lone [(1, 5)])) (·.sreg 3) = some 0xFFFFFFFFFFFFFFFF := by decide

theorem test_div_least : after (.div 0 0 0 2 1 3) (fire (lone [(1, 0x8000000000000000), (2, 0xFFFFFFFFFFFFFFFF)])) (·.sreg 3) =
    some 0x8000000000000000 := by decide

theorem test_rem_sign_of_dividend : after (.rem 0 0 0 2 1 3) (fire (lone [(1, 0xFFFFFFFFFFFFFFF9), (2, 2)])) (·.sreg 3) =
    some 0xFFFFFFFFFFFFFFFF := by decide

theorem test_minn_unsigned : after (.minn 0 0 0 2 1 3) (fire (lone [(1, 0xFFFFFFFFFFFFFFFF), (2, 1)])) (·.sreg 3) = some 1 := by decide

theorem test_slt_signed : after (.slt 0 0 0 2 1 3) (fire (lone [(1, 0xFFFFFFFFFFFFFFFF), (2, 1)])) (·.sreg 3) = some 1 := by decide

theorem test_clz_of_zero : after (.clz 0 0 1 3) (fire (lone [])) (·.sreg 3) = some 64 := by decide

theorem test_sext_byte : after (.sext 0 0 0 1 3) (fire (lone [(1, 0x180)])) (·.sreg 3) = some 0xFFFFFFFFFFFFFF80 := by decide

theorem test_addi_sign_extends : after (.addi 0xFFF 1 3) (fire (lone [(1, 0)])) (·.sreg 3) = some 0xFFFFFFFFFFFFFFFF := by decide

theorem test_s0_discards : after (.addi 5 0 0) (fire (lone [])) (fun c => (c.sreg 0, c.pc)) = some (0, 4) := by decide

theorem test_lui_sign : after (.lui 0x80000 3) (fire (lone [])) (·.sreg 3) = some 0xFFFFFFFF80000000 := by decide

theorem test_beq_backwards : after (.beq 0 0x7FE 1 1) (fire { lone [] with pc := 0x20 }) (·.pc) = some 0x1C := by decide

theorem test_blt_not_taken : after (.blt 0 8 2 1) (fire (lone [(1, 1), (2, 1)])) (·.pc) = some 4 := by decide

theorem test_loop_last_pass : after (.loop 0 0x7FE 5) (fire { lone [(5, 1)] with pc := 8 }) (fun c => (c.sreg 5, c.pc)) =
    some (0, 12) := by decide

theorem test_jalr_same_register : after (.jalr 1 5 5) (fire (lone [(5, 0x40)])) (fun c => (c.sreg 5, c.pc)) =
    some (4, 0x40) := by decide

theorem test_ld_sign_byte : after (.ld 0 1 1 3) { fire (lone [(1, 0x100)]) with mem := [(0x101, 0x80)] } (·.sreg 3) =
    some 0xFFFFFFFFFFFFFF80 := by decide

theorem test_ld_little_endian : after (.ld 6 0 1 3) { fire (lone [(1, 0x100)]) with mem := [(0x100, 1), (0x103, 0x80)] }
    (·.sreg 3) = some 0x80000001 := by decide

theorem test_st_buffers_low_bytes : after (.st 1 0 1 2) (fire (lone [(1, 0x13E), (2, 0xABCDEF)]))
    (fun c => (c.region.buffered 0x13E, c.region.buffered 0x13F, c.region.buffered 0x140)) =
    some (some 0xEF, some 0xCD, none) := by decide +kernel

theorem test_st_misaligned_traps : after (.st 3 4 1 2) (fire (lone [(1, 0x100)])) (·.st) =
    some (.trapped (Tables.trap 3 1 0 0x104 8) none) := by decide

theorem test_free_of_no_block : after (.free 1 3) (fire (lone [(1, 0x100)])) (·.sreg 3) = some 1 := by decide

theorem test_alloc_too_large : after (.alloc 4 1 3) (fire (lone [(1, 0x200001)])) (·.sreg 3) = some 3 := by decide

/-! ## Hypotheses that can be met: the scalar and memory instructions -/

theorem witness_three_register : onTurn (fire (lone [(1, 3), (2, 5)])) (.slot 0) = true ∧
    (Instr.add 0 0 0 2 1 3).wellFormed = true ∧ gives ((hand0 (lone [(1, 3), (2, 5)])).readSS 0 1 0 2)
      (fun r => gives (r.2.2.writeS 0 3 8) fun _ => true) = true := by decide

theorem witness_three_register_queues :
    let c : Ctx := { uid := 1, gen := 1, regs := { sq := [(4, [.val 7]), (7, [.val 1])] } }
    onTurn (fire c) (.slot 0) = true ∧ (Instr.seq 1 1 1 7 4 4).wellFormed = true ∧ gives ((hand0 c).readSS 1 4 1 7)
      (fun r => gives (r.2.2.writeS 1 4 8) fun _ => true) = true := by decide

theorem witness_three_register_system_core : onTurn (sysFire [(1, 3)]) (.sys 0) = true ∧
    (((sysFire [(1, 3)]).ctxOf (.sys 0)).any fun c => gives ((Cx.mk (sysFire [(1, 3)]) (.sys 0) c).readSS 0 1 0 2)
      fun r => gives (r.2.2.writeS 0 3 8) fun _ => true) = true := by decide

theorem witness_conditional_select : onTurn (fire (lone [(1, 3)])) (.slot 0) = true ∧
    (Instr.csel 0 0 2 1 3).wellFormed = true ∧ gives ((hand0 (lone [(1, 3)])).readSS 0 1 0 2) (fun _ => true) = true := by decide

theorem witness_unary : onTurn (fire (lone [(1, 3)])) (.slot 0) = true ∧ (Instr.sext 2 0 0 1 3).wellFormed = true ∧
    gives ((hand0 (lone [(1, 3)])).readS 0 1) (fun r => gives (r.2.writeS 0 3 8) fun _ => true) = true := by decide

theorem witness_turn_of_each_issuer : onTurn (fire (lone [])) (.slot 0) = true ∧ onTurn (sysFire []) (.sys 0) = true := by decide

theorem witness_operand_reads :
    let c : Ctx := { uid := 1, gen := 1, regs := { sq := [(5, [.val 1, .due 4]), (6, [.due 4]),
      (7, (List.range 8).map fun i => .val (BitVec.ofNat 64 i))] } }
    (c.regs.sq.get 5 []).head? = some (.val 1) ∧ c.region.pops.get 5 0 < 32 ∧ (c.regs.sq.get 4 []).length < 8 ∧
      onTurn (fire c) (.slot 0) = true ∧ stalls ((hand0 c).readSS 1 4 0 1) = true ∧ stalls ((hand0 c).readSS 1 6 0 1) = true ∧
      gives ((hand0 c).readSS 0 1 0 2) (fun r => decide (8 ≤ (r.2.2.c.regs.sq.get 7 []).length)) = true := by decide

theorem witness_scalar_frame : onTurn (fire (lone [(1, 3)])) (.slot 0) = true ∧
    (next? (exec (.loop 0 4 1) (fire (lone [(1, 3)])))).isSome = true ∧
    (next? (exec (.jalr 4 1 1) (fire (lone [(1, 3)])))).isSome = true := by decide

theorem witness_fin_with_lock :
    let c : Ctx := { lone [] with lock := some (64, 64) }
    onTurn (fire c) (.slot 0) = true ∧ c.pend = [] ∧ c.checkedSince = none ∧ c.lock = some (64, 64) := by decide

/-- Slot 1 holds a peer in a realign wait at address 0, slot 2 one that runs. -/
def peers : State := ((fire (lone [])).putCtx (.slot 1) { lone [] with uid := 2, st := .realign 9 0 }).putCtx (.slot 65)
  { lone [] with uid := 3 }

theorem witness_realign_peers : onTurn peers (.slot 0) = true ∧
    ((peers.slotAt 1).ctx.map fun d => (d.realigns 0 1, d.realignAt 0)) = some (true, true) ∧
    onTurn (peers.putCtx (.slot 1) { lone [] with uid := 2 }) (.slot 0) = true ∧
    (((peers.putCtx (.slot 1) { lone [] with uid := 2 }).slotAt 1).ctx.map fun d => (d.realigns 0 1, d.realignAt 0)) =
      some (true, false) := by decide

theorem witness_loads : onTurn (fire (lone [(1, 0x100)])) (.slot 0) = true ∧ (Instr.ld 6 4 1 3).wellFormed = true ∧
    gives ((hand0 (lone [(1, 0x100)])).reach .load true 0x104 4) (fun r =>
      homeIs 0x104 r && gives (r.2.loadAt r.1 0x104 4) fun _ => true) = true ∧
    (Instr.ldx 3 0 1 1 2 4 5).wellFormed = true ∧
    (let c : Ctx := { lone [(2, 8)] with regs := { s := [(2, 8)], sq := [(4, [.val 0x100])] } }
     onTurn (fire c) (.slot 0) = true ∧ gives ((hand0 c).readSS 1 4 0 2) (fun _ => true) = true ∧
     gives ((hand0 c).prepare false 0x108 8) (fun x1 => gives (x1.readSS 1 4 0 2) fun r =>
       gives (r.2.2.scalarLoad 3 0x108) (fun q => gives (q.2.writeS 0 5 q.1) fun _ => true) &&
       gives (r.2.2.queueLoadS 3 0x108 5) fun _ => true) = true) := by decide

/-- A package in which it is the hub core of district 0's turn, with tier-4 addresses from 0x1000 to 0x13FF reserved. -/
def hubFire (l : List (Nat × Word) := []) : State :=
  { State.reset with
    cur := .sys 16, host := { stage := 5, ready := true }, kreserved := [(0x1000, 0x13FF)],
    sys := [(16, { ctx := { kind := 4, regs := { s := l } } })] }

theorem witness_system_load : onTurn (sysFire [(1, 0x9502F8FFF8)]) (.sys 0) = true ∧ (Instr.ld 3 0 1 2).wellFormed = true ∧
    (0x9502F8FFF8 : Nat) % 8 = 0 ∧ 0x9502F8FFF8 < 0x9502F90000 ∧ (sysFire []).badLines.contains (lineOf 0x9502F8FFF8) = false ∧
    onTurn (hubFire [(1, 0x1400)]) (.sys 16) = true ∧ hubFire.kernelFrame 0x1400 = false ∧ hubFire.kernelFrame 0x13F8 = true ∧
    hubFire.badLines.contains (lineOf 0x1400) = false := by decide

theorem witness_load_bytes :
    let own : Unseen := { pa := shareKey 1 0, writer := 0, uid := 1, old := 0, blind := 0 }
    0x1FFF + 1 ≤ 0x2000 ∧ 0x100 + 8 ≤ shareBase ∧ bit codeLeaf 8 = false ∧ (fire (lone [])).inFlight 1 0x100 = false ∧
    (lone []).awaits 0x100 8 = false ∧ (hand0 (lone [])).behind 0x100 = false ∧ (lone []).uid ≠ 0 ∧
    ∀ u ∈ ({ fire (lone []) with unseen := [own] } : State).unseen, u.pa = shareKey 1 0 → u.uid = 1 := by decide

/-- Page 1 of the firing is checked. -/
def checkedPage (c : Ctx) : State :=
  (fire c).setCore 0 { tlb := [{ asn := 0, page := 0, leaf := codeLeaf ||| 0x100 }] }

theorem witness_stores : onTurn (fire (lone [(1, 0x100)])) (.slot 0) = true ∧ (Instr.st 3 8 1 2).wellFormed = true ∧
    gives ((hand0 (lone [(1, 0x100)])).reach .store true 0x108 8) (fun r => homeIs 0x108 r && r.1.checkedLine.isNone) = true ∧
    (let c : Ctx := { lone [(1, 0x100)] with checkedSince := some 0, touched := [{ line := 0x100, read := false, claimed := true }] }
     onTurn (checkedPage c) (.slot 0) = true ∧ gives ((Cx.mk (checkedPage c) (.slot 0) c).reach .store true 0x108 8) (fun r =>
       r.1.checkedLine == some 0x100 && gives (r.2.checkLines [(0x100, 0x100)] true) fun x =>
         decide (x.c = r.2.c) && decide (x.s = r.2.s)) = true) := by decide

theorem witness_indexed_store :
    let c : Ctx := { lone [(2, 8)] with regs := { s := [(2, 8)], sq := [(4, [.val 0x100, .val 9])] } }
    let k0 := (hand0 c).popRoom [0]
    onTurn (fire c) (.slot 0) = true ∧ (Instr.stx 3 0 1 0 2 4 5).wellFormed = true ∧
      gives (k0.readSS 1 4 0 2) (fun r => r.1 + r.2.1 == 0x108) = true ∧
      gives (k0.prepare true 0x108 8) (fun x1 => gives (x1.readSS 1 4 0 2) fun r => gives (r.2.2.readS 0 5) fun q =>
        gives (q.2.scalarStore 3 0x108 q.1) fun _ => true) = true := by decide

theorem witness_store_then_load : onTurn (fire (lone [(1, 0xFFFFFFFFFFE000)])) (.slot 0) = true ∧
    (fire (lone [])).badLines = [] ∧ (lone []).loads = [] ∧ (lone []).pend = [] ∧ (fire (lone [])).flights = [] ∧
    (next? (exec (.st 3 0 1 2) (fire (lone [(1, 0xFFFFFFFFFFE000)])))).isSome = true ∧
    (next? (exec (.st 3 0 1 2) (fire (lone [(1, 0xFFFFFFFFFFFFF8)])))).isSome = true := by decide

theorem witness_misaligned : onTurn (fire (lone [(1, 0x101)])) (.slot 0) = true ∧ (Instr.ld 1 0 1 2).wellFormed = true ∧
    (Instr.stx 3 0 0 0 2 1 3).wellFormed = true ∧ (0x101 : Nat) % 2 ^ 1 ≠ 0 := by decide

theorem witness_translation_miss :
    let c : Ctx := lone [(1, 0x200000)]
    onTurn (fire c) (.slot 0) = true ∧ (Instr.ld 3 0 1 2).wellFormed = true ∧ 0x200000 % 8 = 0 ∧ 0x200000 < 0xFFFFFFFFFFC000 ∧
      (tlbFind ((fire c).coreAt 0).tlb 0 0x200000 (((fire c).coreAt 0).pageBit 0x200000)).isNone = true ∧
      (tlbFind ((fire c).tileAt 0).tlb 0 0x200000 (((fire c).coreAt 0).pageBit 0x200000)).isNone = true ∧ c.verdictAt 0x200000 = none ∧
      onTurn (fire { c with verdicts := [(0x200000, none)] }) (.slot 0) = true ∧
      onTurn (fire { c with verdicts := [(0x200000, some 1)] }) (.slot 0) = true := by decide

theorem witness_commit :
    let l : Line := { home := 0x100, va := 0x100, mask := 1, data := 7 }
    let m : Line := { home := shareBase, va := 0xFFFFFFFFFFE000, mask := 1, data := 7 }
    let c : Ctx := { lone [] with region := { wbuf := [l, m] } }
    let q : QLoad := { id := 3, vec := false, q := 4, cells := [(some shareBase, 1)], signed := false }
    (hand0 c).shareWaits (c.loads.map (·.id)) = false ∧ (hand0 { c with loads := [q] }).shareWaits [3] = true ∧
    onTurn (fire { c with loads := [q] }) (.slot 0) = true ∧
    onTurn (fire c) (.slot 0) = true ∧ c.region.wbuf.Pairwise (fun l m => l.home ≠ m.home) ∧
      ∀ l ∈ c.region.wbuf, l.home % 64 = 0 := by decide

/-- A pool of tier 4 that address space 0 sees at address 0. -/
def pool4 : Pool :=
  { tier := 4, unit := 0, views := [(0, 0)], free := [(0, 21)], live := [{ off := 0x200000, lg := 10, launch := some (0, 1) }],
    holder := [] }

theorem witness_allocation :
    let s : State := { fire (lone [(1, 0x200000)]) with pools := [pool4] }
    onTurn s (.slot 0) = true ∧ (s.launchOf 0 1).isSome = true ∧
      (s.launchOf 0 1).any (fun l => gives (s.allocate l 0 0 4 64) fun _ => true) = true ∧
      (s.launchOf 0 1).any (fun l => !gives (s.allocate l 0 0 0 64) fun _ => true) = true ∧
      (s.launchOf 0 1).any (fun l => !gives (s.allocate l 0 0 5 (2 ^ 21 + 1)) fun _ => true) = true ∧
      ({ plainLaunch with quota := [0, 0, 0, 0, 0] }.quota.getD 3 0 * 65536 < plainLaunch.charge.get 4 0 + 2 ^ classLg 1) ∧
      (Instr.free 1 2).wellFormed = true ∧ (s.liveAt 0 0x100) = none ∧ (s.liveAt 0 0x200000).isSome = true ∧
      takeBlock [] 6 = none ∧ (takeBlock [(0, 21)] 6).isSome = true := by decide

/-! ## Vector instructions -/

/-- A firing with vector registers and masks, and cr.status. -/
def vec (v : List (Nat × Vec)) (m : List (Nat × Word) := []) (status : Word := 0) : Ctx :=
  { uid := 1, gen := 1, regs := { v := v, m := m, status := status } }

/-- A firing with scalar registers, vector registers and masks. -/
def vecS (l : List (Nat × Word)) (v : List (Nat × Vec)) (m : List (Nat × Word) := []) : Ctx :=
  { uid := 1, gen := 1, regs := { s := l, v := v, m := m } }

/-- Lane 0 and lane 1 of `.i32`. -/
def two (a b : Nat) : Vec := BitVec.ofNat 1024 (a + b * 2 ^ 32)

theorem test_vadd_i32_wraps : after (.vadd32 3 0 2 1 4) (fire (vec [(1, two 0xFFFFFFFF 3), (2, two 2 4)]))
    (fun c => (lane (c.vreg 4) 32 0, lane (c.vreg 4) 32 1)) = some (1, 7) := by decide +kernel

theorem test_vadd_f32_exact : after (.vadd32 0 0 2 1 4) (fire (vec [(1, two 0x3F800000 0x40000000), (2, two 0x3F800000 0xC0000000)]))
    (fun c => (lane (c.vreg 4) 32 0, lane (c.vreg 4) 32 1)) = some (0x40000000, 0) := by decide +kernel

theorem test_vadd_masked_lane_stays : after (.vadd32 3 1 2 1 4) (fire (vec [(1, two 1 1), (2, two 2 2), (4, two 9 9)] [(1, 2)]))
    (fun c => (lane (c.vreg 4) 32 0, lane (c.vreg 4) 32 1)) = some (9, 3) := by decide +kernel

theorem test_vmul_f32_overflow : after (.vmul32 0 1 2 1 4) (fire (vec [(1, two 0x7F000000 0), (2, two 0x7F000000 0)] [(1, 1)]))
    (fun c => (lane (c.vreg 4) 32 0, bit c.regs.status 10)) = some (0x7F800000, true) := by decide +kernel

theorem test_vsub16_destination_first : after (.vsub16 0 2 1) (fire (vec [(1, two 5 0), (2, two 3 0)] [] 0xC))
    (fun c => (lane (c.vreg 1) 32 0, c.pc)) = some (2, 2) := by decide +kernel

theorem test_vfma_f32 : after (.vfma 0 0 3 2 1 4)
    (fire (vec [(1, two 0x40000000 0), (2, two 0x40400000 0), (3, two 0x3F800000 0)])) (fun c => lane (c.vreg 4) 32 0) =
    some 0x40E00000 := by decide +kernel

theorem test_vcmp_signed : after (.vcmp 3 0 2 2 1 1) (fire (vec [(1, two 0xFFFFFFFF 0), (2, two 1 0)])) (fun c => c.mask 1) =
    some 1 := by decide +kernel

theorem test_vred_add_signed : after (.vredAdd 3 1 0 1 4) (fire (vec [(1, two 0xFFFFFFFF 0xFFFFFFFF)] [(1, 3)])) (·.sreg 4) =
    some 0xFFFFFFFFFFFFFFFE := by decide +kernel

theorem test_vslide_up : after (.vslideUp 3 0 5 1 4) (fire (vecS [(5, 1)] [(1, two 7 8)]))
    (fun c => (lane (c.vreg 4) 32 0, lane (c.vreg 4) 32 1, lane (c.vreg 4) 32 2)) = some (0, 7, 8) := by decide +kernel

theorem test_vadds_i32_pairs : after (.vadds 3 0 2 1 4) (fire (vec [(1, two 0x00020003 0), (2, two 0xFFFF0001 0), (4, two 10 0)]))
    (fun c => lane (c.vreg 4) 32 0) = some 11 := by decide +kernel

theorem test_unpk_t5_all_ones : after (.unpkT5 0 1 4) (fire (lone [(1, 121)])) (fun c => (lane (c.vreg 4) 16 0, lane (c.vreg 4) 16 4,
    lane (c.vreg 4) 16 5, bit c.regs.status 14)) = some (1, 1, 0, false) := by decide +kernel

theorem test_unpk_t5_bad_byte : after (.unpkT5 0 1 4) (fire (lone [(1, 0xF300)])) (fun c => (bit c.regs.status 14,
    field c.regs.status 15 3)) = some (true, 1) := by decide +kernel

theorem test_vtype_sets_ltype : after (.vtype 4) (fire (lone [])) (fun c => statusLtype c.regs.status) = some 4 := by decide +kernel

theorem test_mpop_lanes_of_type : after (.mpop 3 1 4) (fire (vec [] [(1, 0xFFFFFFFFFFFFFFFF)])) (·.sreg 4) = some 32 := by decide +kernel

theorem test_vld_masked : after (.vld 3 1 0 1 4) { fire (vecS [(1, 0x100)] [(4, two 9 9)] [(1, 2)]) with mem := [(0x104, 6)] }
    (fun c => (lane (c.vreg 4) 32 0, lane (c.vreg 4) 32 1)) =
    some (9, 6) := by decide +kernel

theorem test_vst_buffers : after (.vst 3 1 0 1 4) (fire (vecS [(1, 0x100)] [(4, two 9 8)] [(1, 2)]))
    (fun c => (c.region.buffered 0x100, c.region.buffered 0x104)) = some (none, some 8) := by decide +kernel

/-! ## Hypotheses that can be met: the vector instructions -/

/-- A firing with a value in vector queue 0, an outstanding entry in queue 1 and a full queue 2. -/
def vqs : Ctx :=
  let q : Map (List (QEnt Vec)) := [(0, [.val 5]), (1, [.due 3]), (2, [.val 1, .val 2, .val 3, .val 4])]
  { uid := 1, gen := 1, regs := { s := [(1, 0x100)], vq := q } }

theorem witness_compact : onTurn (fire vqs) (.slot 0) = true ∧ laneFloat (statusLtype 0xC) = false ∧
    (Instr.vadd32 3 0 1 16 19).wellFormed = true ∧ (Instr.vfma 0 0 15 1 2 3).wellFormed = true ∧
    (Instr.vlog2 2 0 1 3).wellFormed = true ∧ gives ((hand0 vqs).readVV 16 1) (fun _ => true) = true ∧
    gives ((hand0 vqs).readV 1) (fun _ => true) = true := by decide +kernel

theorem witness_room : Tables.roomV vqs 15 ∧ Tables.roomV vqs 19 ∧ ¬Tables.roomV vqs 18 := by
  refine ⟨.inl (by decide), .inr (by decide), ?_⟩
  rintro (h | h) <;> revert h <;> decide

theorem witness_lane_structure : (Instr.vsel 3 1 1 2 3).wellFormed = true ∧ (Instr.vperm 6 1 1 2 3).wellFormed = true ∧
    (Instr.vadds 4 1 1 2 3).wellFormed = true ∧ (Instr.vslideUp 0 1 1 2 3).wellFormed = true ∧
    (Instr.vslideDn 0 1 1 2 3).wellFormed = true ∧ (Instr.vcompress 0 1 2 3).wellFormed = true ∧
    (Instr.vext 3 1 2 3).wellFormed = true ∧ (Instr.viota 2 1 3).wellFormed = true ∧ (Instr.vbcast 3 2 3).wellFormed = true ∧
    (Instr.vins 3 1 2 3).wellFormed = true ∧ onTurn (fire vqs) (.slot 0) = true := by decide

theorem witness_conversions : (Instr.vcvt 0 1 3 2 3).wellFormed = true ∧ (Instr.unpkI4 6 2 3).wellFormed = true ∧
    (Instr.unpkN8 7 2 3).wellFormed = true ∧ (Instr.unpkT5 3 2 3).wellFormed = true ∧ onTurn (fire vqs) (.slot 0) = true ∧
    bit (0x4000 : Word) 14 = true ∧ 243 ≤ (0xF300 : Nat) / 256 % 256 ∧ (0xF300 : Nat) % 256 < 243 := by decide

theorem witness_masks : (Instr.vcmp 0 1 5 1 2 7).wellFormed = true ∧ (Instr.mand 0 7 1).wellFormed = true ∧
    (Instr.mnot 0 7).wellFormed = true ∧ (Instr.mpop 6 7 1).wellFormed = true ∧ (Instr.vtype 6).wellFormed = true ∧
    onTurn (fire vqs) (.slot 0) = true ∧ gives ((hand0 vqs).readVV 16 2) (fun _ => true) = true := by decide

theorem witness_reductions : (Instr.vredMax 0 1 0 16 3).wellFormed = true ∧ (Instr.vdot 4 1 1 16 2 4).wellFormed = true ∧
    onTurn (fire vqs) (.slot 0) = true ∧ gives ((hand0 vqs).readV 16) (fun r => gives (r.2.writeS 0 3 1) fun _ => true) = true ∧
    gives ((hand0 vqs).readVV 2 16) (fun r => gives (r.2.2.writeS 1 4 1) fun _ => true) = true ∧
    3 ≤ (3 : BitVec 3).toNat ∧ (6 : BitVec 3).toNat ≤ 6 := by decide

theorem witness_prefix : (Instr.vscanpMin 1 1 16 19).wellFormed = true ∧ onTurn (fire vqs) (.slot 0) = true ∧
    gives ((hand0 vqs).readV 16) (fun r => decide ((r.2.c.regs.vq.get 3 []).length < 4)) = true := by decide +kernel

theorem witness_forwarding :
    let e : Deferred := { instr := .vadd32 3 0 17 1 4, pc := 0, x := 0, y := 0, status := 0, fills := none }
    let g : Deferred := { e with instr := .vslideUp 3 0 5 17 4, x := 2 }
    let h : Deferred := { e with instr := .vredAdd 3 0 0 17 5, writes := some 5 }
    let c (l : List Deferred) : Ctx := { vqs with vstream := l }
    (Instr.vadd32 3 0 17 1 4).wellFormed = true ∧ (Instr.vslideUp 3 0 5 17 4).wellFormed = true ∧
      stalls ((hand0 vqs).readVV 17 1) = true ∧ stalls ((hand0 vqs).readV 17) = true ∧
      (∀ l ∈ [[e], [g], [h]], (fire (c l)).cur = .slot 0 ∧ ((fire (c l)).slotAt 0).ctx = some (c l) ∧ (c l).st = .running ∧
        (fire (c l)).halted = false ∧ (fire (c l)).vecTurn = false ∧ (c l).asyncs = [] ∧ (c l).regs.due = [] ∧
        bit (c l).regs.status 5 = false) ∧
      e.writes ≠ some 5 ∧ h.writes = some 5 ∧ (c [e]).vwaits e.instr = false ∧ (c [g]).vwaits g.instr = false ∧
      ({ c [e] with regs := { (c [e]).regs with vdue := [(1, 3)] } } : Ctx).vwaits e.instr = true ∧
      stalls ((hand0 (c [e])).readVV 17 1) = true ∧ stalls ((hand0 (c [g])).readV 17) = true ∧
      gives ((hand0 (c [e])).readVV 16 1) (fun _ => true) = true ∧ gives ((hand0 (c [g])).readV 16) (fun _ => true) = true := by
  decide +kernel

/-- The elements of `.i32` at 0x100 upward that mask 2 enables. -/
def element1 : List (Nat × Nat) := Tables.elements 3 2 fun j => 0x100 + BitVec.ofNat 64 (j * 4)

/-- A firing whose mask 1 enables lane 1. -/
def lane1 : Ctx := { uid := 1, gen := 1, regs := { s := [(1, 0x100)], m := [(1, 2)], v := [(2, two 0 8)], vq := [(0, [.val 0])] } }

theorem witness_vector_loads : onTurn (fire lane1) (.slot 0) = true ∧ (Instr.vld 3 1 0 1 4).wellFormed = true ∧
    (Instr.vlds 3 1 2 1 19).wellFormed = true ∧ (Instr.vgath 3 1 2 1 4).wellFormed = true ∧ element1 = [(1, 0x104)] ∧
    gives ((hand0 lane1).reachLanes .load 4 element1) (fun r => r.1.length == 1 && r.2.1.isEmpty &&
      gives (r.2.2.checkLines r.2.1 false) fun z =>
        let how : VIn := { pc := 0, x := 0, y := 0, status := 0, cells := r.1, got := z.servedLanes 32 r.1, id := z.s.nextId }
        !z.lanesWait 32 r.1 && !z.lanesWait 32 (z.recordedLanes 32 r.1) && gives (z.vecLoad 32 19 how) (fun _ => true) &&
          gives (z.readV 2) (fun q => gives (q.2.vecLoad 32 4 how) fun _ => true)) = true := by decide +kernel

theorem witness_vector_load_form : Tables.vectorLoad lane1 3 1 4 (.vld 3 1 0 1 4) (fun j => lane1.sreg 1 +
    (0 : BitVec 9).signExtend 64 * BitVec.ofNat 64 4 + BitVec.ofNat 64 (j * 4)) := .inl ⟨0, 1, rfl, fun _ => rfl⟩

theorem witness_vector_stores : onTurn (fire lane1) (.slot 0) = true ∧ (Instr.vst 3 1 0 1 2).wellFormed = true ∧
    (Instr.vscat 3 1 2 1 2).wellFormed = true ∧ (Instr.vscat 3 1 16 1 16).wellFormed = true ∧
    gives ((hand0 lane1).reachLanes .store 4 element1) (fun r => r.1.length == 1 && gives (r.2.2.checkLines r.2.1 true)
      (fun _ => true) && r.2.1.isEmpty && gives (((r.2.2.makeRoom (r.1.map (·.2.2))).popRoom []).readV 2) (fun _ => true) &&
      gives ((((r.2.2.makeRoom (r.1.map (·.2.2))).popRoom [0]).makeRoom (r.1.map (·.2.2))).readV 16) (fun _ => true) &&
      gives ((r.2.2.makeRoom (r.1.map (·.2.2))).readV 16) (fun _ => true)) = true := by decide +kernel

theorem witness_vector_store_form : Tables.vectorStore lane1 3 1 2 (.vst 3 1 0 1 2) (fun j => lane1.sreg 1 +
    (0 : BitVec 9).signExtend 64 * BitVec.ofNat 64 4 + BitVec.ofNat 64 (j * 4)) := .inl ⟨0, 1, rfl, fun _ => rfl⟩

theorem witness_vector_store_then_load :
    let c : Ctx := { lane1 with regs := { lane1.regs with s := [(1, 0xFFFFFFFFFFFF80)] } }
    onTurn (fire c) (.slot 0) = true ∧ 0xFFFFFFFFFFFF80 + 128 ≤ 2 ^ 56 ∧ 0xFFFFFFFFFFFF80 % 4 = 0 ∧ c.touched.length ≤ 64 ∧
      c.region.wbuf.length ≤ 61 ∧ c.loads = [] ∧ c.pend = [] ∧ (fire c).flights = [] ∧
      (next? (exec (.vst 3 1 0 1 2) (fire c))).isSome = true := by decide +kernel

/-! ## Matrix and engine instructions -/

/-- A format prefix of a firing: its text in `cr.pfx`, pending. -/
def prefixed (p : Word) (l : List (Nat × Word)) : Ctx := { uid := 1, gen := 1, regs := { s := l, status := 0x20, pfx := p } }

theorem test_pfx_fields : after (.pfx 9 1 2 3) (fire (lone [])) (fun c => (c.regs.pfx, c.regs.status)) =
    some (BitVec.ofNat 64 (3 + 2 * 8 + 1 * 64 + 9 * 256), 0x20) := by decide +kernel

theorem test_mcfg_commits : after (.mcfg 1 2) (fire { lone [(1, 77)] with region := { wbuf := [⟨0x100, 0x100, 1, 7⟩] } })
    (fun c => (c.items.get 2 0, c.region.wbuf)) = some (77, []) := by decide +kernel

theorem test_mma_queues : ((next? (exec (.mma 1 2 1 3) (fire (prefixed 0 [(1, 0x1000), (2, 64)])))).map fun t =>
    (t.coreAt 0).mq.map fun m => (m.kind, m.k, m.a, m.b, m.n)) = some [(1, 3, 0x1000, 64, 128)] := by decide +kernel

theorem test_mzero_foreign_subtile_waits : after (.mzero 1) ((fire (lone [])).setSub 0 1 { owner := some 9 }) (fun c => (c.pc, c.st)) =
    some (0, .running) := by decide +kernel

theorem test_ecopy_message : ((next? (exec (.ecopy 5 1) (fire (lone [(1, 0x400)])))).map fun t => ((t.releaseHeld 0).tileAt 0).inj.map fun e =>
    match e with
    | .packet p _ => (p.opcode, p.agent, p.op0, p.aux)
    | .fence => (0, 0, 0, 0)) = some [(0x10, 8, 0x400, 5)] := by decide +kernel

theorem test_prefix_then_nop_traps : after .nop (fire (prefixed 0 [])) (·.st) =
    some (.trapped (Tables.trap 4 3 0 0 0x3F) none) := by decide +kernel

/-! ## Hypotheses that can be met: the matrix and engine instructions -/

theorem witness_prefix_and_items : onTurn (fire (lone [])) (.slot 0) = true ∧ (Instr.pfx 31 0 0 0).wellFormed = true ∧
    bit (prefixed 0 []).regs.status 5 = true ∧ (prefixed 0 []).st = .running ∧ (fire (prefixed 0 [])).vecTurn = false := by decide

theorem witness_own_matrix : Tables.ownMatrix (prefixed 0 [(1, 64)]) (.mma 0 2 1 3) 1 3 64 0 64 0 true ∧
    Tables.ownMatrix (lone []) (.mzero 2) 3 2 0 0 0 0 false ∧ Tables.ownMatrix (lone [(1, 64)]) (.mldb 1 2) 4 0 64 0 0 0 false ∧
    Tables.ownMatrix (prefixed 0x900 [(1, 64)]) (.mdrn 5 2 1 5 3) 5 3 64 0 5 5 true ∧
    (fire (lone [])).queueFull 0 = false ∧ (fire (lone [])).foreign 1 0 3 = false ∧ (lone []).region.wbuf = [] ∧
    (fire (lone [])).flights = [] ∧ ((fire (lone [])).tileAt 0).mfly = [] ∧ ((fire (lone [])).tileAt 0).mwait = [] := by
  refine ⟨.inl ⟨0, 2, 1, 3, rfl, rfl, rfl, by decide, by decide, by decide, rfl, rfl, by decide⟩,
    .inr (.inl ⟨2, rfl, rfl, rfl, rfl, rfl, rfl, rfl, rfl, by decide⟩),
    .inr (.inr (.inl ⟨1, 2, rfl, rfl, rfl, by decide, by decide, rfl, rfl, rfl⟩)),
    .inr (.inr (.inr ⟨5, 2, 1, 5, 3, rfl, rfl, rfl, by decide, by decide, rfl, rfl, rfl, by decide, by decide⟩)), by decide, by decide, rfl, rfl, by decide,
    by decide⟩

theorem witness_gang_matrix :
    let c : Ctx := prefixed 0 [(2, 64)]
    let x := (Cx.mk (fire c) (.slot 0) c).commit
    mmaLegal c.prefixWord 64 = true ∧ (Instr.mmag 0 2 3 1).wellFormed = true ∧ field (c.sreg 3) 24 20 % 64 = 0 ∧
      (List.range (field (c.sreg 3) 19 3 + 1)).map (fun i => x.s.logicalTile x.origin (field (c.sreg 3) 0 16 + i)) = [some 0] ∧
      x.s.foreign 1 (coreBase 0) 1 = false ∧ (fire c).leaving 0 = false := by decide

theorem witness_engine_commands : onTurn (fire (lone [(1, 0x10000)])) (.slot 0) = true ∧ (fire (lone [])).injRoom 0 = true ∧
    (fire (lone [])).launchOf 0 1 = some plainLaunch ∧ plainLaunch.binds.get? 0 = some 0 ∧ 0 < plainLaunch.tiles ∧
    ((fire (lone [])).ctxOfUid 1).any (·.loads.isEmpty) = true ∧
    (let o : Origin := { uid := 1, mark := 4 }
     let q : QLoad := { id := 3, vec := false, q := 4, cells := [(some 0x100, 1)], signed := false }
     let p : Packet :=
       { opcode := 0x10, flags := 0, len := 0, node := 0, agent := 8, tslot := 0, tinc := 0, sslot := 0, sinc := 0, stamp := 0,
         reply := 0, op0 := 0, op1 := 0, aux := 0, payload := [], origin := o, scope := 0 }
     (fire (lone [])).mayGo p = true ∧ ((fire (lone [])).tileAt 0).inj.length < 16 ∧
      (fire { lone [] with loads := [q] }).mayGo p = false) := by decide

theorem witness_send_forms : Tables.sendsTo (fire (lone [])) 0 (lone [(1, 0x400)]) (.ecopy 5 1) 0 8 0x10 0x400 0 5 [] false ∧
    Tables.sendsTo (fire (lone [])) 0 (lone [(1, 0x10000)]) (.cabclr 1) 0 11 0x25 0 0 0 [] false ∧
    Tables.sendsTo (fire (lone [])) 0 (lone []) (.cabmrg 1 3) 0 10 0x22 0 (3 * 2 ^ 32) 0 [] true := by
  refine ⟨.inl ⟨5, 1, rfl, rfl, rfl, rfl, by decide, rfl, rfl, rfl, rfl⟩, ?_, ?_⟩
  · exact .inr (.inr (.inr (.inr (.inr (.inr (.inr ⟨1, 1, rfl, ⟨by decide, by decide, by decide⟩, rfl, rfl, rfl, rfl, rfl, rfl,
      rfl⟩))))))
  · exact .inr (.inr (.inr (.inr (.inl ⟨1, 3, 0, rfl, ⟨by decide, by decide, by decide⟩, rfl, rfl, rfl, rfl, rfl, rfl, rfl⟩))))

theorem witness_barriers : onTurn (fire (lone [(1, 0x140)])) (.slot 0) = true ∧ (Instr.barinit 2 1).wellFormed = true ∧
    gives ((hand0 (lone [])).operand .objects .store 0x140 16 16) (fun r => homeIs 0x140 r && !r.2.s.unbacked r.1.key) = true ∧
    (fire (lone [])).injRoom 0 = true ∧ 0x148 % 16 ≠ 0 := by decide

/-- Page 0 of the firing lies in the first page of tier 5. -/
def tier5Page (c : Ctx) : State :=
  (fire c).setCore 0 { tlb := [{ asn := 0, page := 0, leaf := BitVec.ofNat 64 (2 ^ 49 / 1024 * 8192 + 0x10BF) }] }

theorem witness_barrier_in_another_tier : onTurn (tier5Page (lone [(1, 0x140)])) (.slot 0) = true ∧
    gives ((Cx.mk (tier5Page (lone [])) (.slot 0) (lone [])).reach .store false 0x140 16) (fun r =>
      homeIs (2 ^ 49 + 0x140) r && decide (r.2.c.pc = 0)) = true ∧ tierOf (2 ^ 49 + 0x140) ≠ some 1 ∧
    tierOf (2 ^ 49 + 0x140) ≠ some 3 ∧ tierOf (2 ^ 49 + 0x140) ≠ some 4 := by decide

/-! ## Synchronization, messages and tasks -/

/-- The firing with memory bytes. -/
def fireMem (c : Ctx) (m : Map Byte) : State := { fire c with mem := m }

theorem test_amo_add_returns_old : after (.amoAdd 0 0 0 2 1 3) (fireMem (lone [(1, 0x100), (2, 1)]) [(0x100, 0xFF), (0x101, 0xFF),
    (0x102, 0xFF), (0x103, 0xFF)]) (·.sreg 3) = some 0xFFFFFFFFFFFFFFFF := by decide +kernel

theorem test_amo_max_signed : ((next? (exec (.amoMax 0 0 0 2 1 3) (fireMem (lone [(1, 0x100), (2, 1)]) [(0x103, 0x80)]))).map
    fun t => t.bankRead 0x100 4) = some 1 := by decide +kernel

theorem test_cas_swaps_on_equal : ((next? (exec (.cas 0 1 0 2 1 3) (fireMem (lone [(1, 0x100), (2, 9), (3, 7)]) [(0x100, 7)]))).map
    fun t => t.bankRead 0x100 8) = some 9 := by decide +kernel

/-- The leaf of the page with which tile 0 begins. -/
def quadLeaf : Word := BitVec.ofNat 64 (0x4000000000000 / 1024 * 8192 + 0x103F)

/-- The firing's page 0 begins at tile 0: its quad stores lie at 0x100000. -/
def tier1Page (c : Ctx) (s : State := fire c) : State :=
  s.setCore 0 { tlb := [{ asn := 0, page := 0, leaf := quadLeaf }] }

theorem test_ldlk_takes_bit : after (.ldlk 0 1 3) (tier1Page (lone []) (fireMem (lone [(1, 0x100100)])
    [(0x4000000100100, 5)])) (fun c => (c.sreg 3, c.lock.isSome)) =
    some (5, true) := by decide +kernel

theorem test_stul_without_lock_traps : (after (.stul 0 2 1) (tier1Page (lone [(1, 0x100100)])) (·.st)).map (fun st => match st with
    | .trapped t _ => (t.cls, t.access, t.addr)
    | _ => (0, 0, 0)) = some (2, 1, 0x100100) := by decide +kernel

theorem test_rel_narrow_writes : ((next? (exec (.rel 0 0 2 1) (fire (lone [(1, 0x100), (2, 0x1FFFFFFFF)])))).map fun t =>
    (t.bankRead 0x100 4, t.bankRead 0x104 4)) = some (0xFFFFFFFF, 0) := by decide +kernel

/-- R154: a release waits for a line that an earlier firing of its slot has left on its way. -/
theorem test_rel_waits_for_its_slot :
    let f : Flight := { id := 4, line := ⟨0x100, 0, 1, 7⟩, origin := { uid := 9, slot := 0 }, num := 0, core := 0, posted := false,
                        journal := none, phase := 0, reason := 0, loads := [], tile := 0, epoch := 0 }
    let s (l : List Flight) : State := { fire (lone [(1, 0x200), (2, 5)]) with flights := l }
    after (.rel 0 0 2 1) (s [f]) (·.pend.length) = some 1 ∧ after (.rel 0 0 2 1) (s []) (·.pend.length) = some 0 := by
  decide +kernel

theorem test_wait_mem_holds : after (.waitMem 0 1 0 0 2 1 3) (fireMem (lone [(1, 0x100), (2, 0)]) [(0x100, 1)])
    (fun c => (c.sreg 3, c.pc)) = some (1, 4) := by decide +kernel

theorem test_join_last : ((next? (exec (.join 0 1) (fireMem (lone [(1, 0x100)]) [(0x110, 1)]))).map fun t =>
    t.bankRead 0x110 4) = some 0 := by decide +kernel

theorem test_wid_field : after (.wid 1 3) { fire { lone [] with wid := 0x305 } with launches :=
    [(0, { plainLaunch with widths := [4, 8, 0, 0, 0, 0], extents := [16, 256, 0, 0, 0, 0] })] } (·.sreg 3) = some 0x30 := by decide +kernel

theorem test_trap_resumes_after : after (.trap 7) (fire (lone [])) (fun c => match c.st with
    | .trapped t _ => (t.cls, t.subcode, t.detail, t.resume)
    | _ => (0, 9, 0, 0)) = some (13, 0, 7, 4) := by decide +kernel

theorem test_boost_length : after (.boost 1 3) (fire (lone [(1, 100001)])) (·.sreg 3) = some 2 := by decide +kernel

theorem test_lease_bad_index : after (.lease 0 2 1 3) (fire (lone [(1, 5), (2, 1)])) (·.sreg 3) = some 3 := by decide +kernel

theorem test_crw_status_clears : after (.crw 0 1) (fire { vec [] [] 0x70C with regs := { s := [(1, 0x11D)], status := 0x70C } })
    (·.regs.status) = some 0x60D := by decide +kernel

theorem test_crr_slot : after (.crr 3 4) (fire (lone [])) (·.sreg 4) = some 0 := by decide +kernel

/-! ## Hypotheses that can be met: synchronization, messages and tasks -/

/-- A synchronizing access at 0x100 waits for nothing there. -/
theorem witness_home_open : Tables.homeOpen (fire (lone [])) 0 0x100 := by
  refine ⟨by decide, by decide, by decide, ?_⟩
  have h : (fire (lone [])).slots.all (fun e => e.2.ctx.all fun d => d.pend.all fun q => !q.sc || !q.delivered) = true := by decide
  intro e he d hd q hq hs
  have g := List.all_eq_true.mp h e he
  rw [hd] at g
  simpa [hs] using List.all_eq_true.mp g q hq

theorem witness_atomics : onTurn (fire (lone [(1, 0x100)])) (.slot 0) = true ∧
    gives ((hand0 (lone [])).operand .atomic .syncBoth 0x100 8 8) (fun r => homeIs 0x100 r && !r.2.commit.s.inFlight 1 0x100 &&
      !r.2.commit.behind 0x100) = true ∧
    gives ((hand0 (lone [])).raceCheck (.home 0x100 codeLeaf) 1 0x100) (fun _ => true) = true ∧ 0x100 + 8 ≤ shareBase ∧
    ((fire (lone [])).lockAt (lockOf 0x100)).owner = none ∧ (Instr.amoAdd 0 1 0 2 1 3).wellFormed = true ∧
    (Instr.cas 1 1 3 2 1 3).wellFormed = true ∧ (Instr.cas 1 0 4 2 1 3).wellFormed = true ∧
    (fire (lone [])).stranded 0x100 = false ∧ bit codeLeaf 8 = false ∧ (lone []).loads = [] ∧
    ∀ i < 8, (lone []).owedByte (0x100 + i) = none := by decide

theorem witness_nothing_outstanding : Tables.nothingOutstanding (fire (lone [])) 0 (lone []) :=
  ⟨rfl, rfl, rfl, rfl, fun _ h => absurd h List.not_mem_nil⟩

/-- The lock bit of a line of tile 0 is another slot's, and a firing waits for it. -/
def lockTaken (c : Ctx) : State :=
  { tier1Page c with locks := [(lockOf 0x4000000100100, { owner := some (3, 0), queue := [2] })] }

theorem witness_locks :
    let held : Ctx := { lone [(1, 0x100100)] with lock := some (lockOf 0x4000000100100, 0x100100) }
    onTurn (lockTaken (lone [(1, 0x100100)])) (.slot 0) = true ∧ onTurn (tier1Page held) (.slot 0) = true ∧
      (lone []).pend = [] ∧ (lone []).locking = false ∧ (lone []).lock = none ∧ (lone []).awaits 0x4000000100100 4 = false ∧
      held.loads = [] ∧ held.lock ≠ none ∧ held.lock.map (·.1) ≠ some (lockOf 0x4000000100200) ∧
      gives ((Cx.mk (lockTaken (lone [])) (.slot 0) (lone [])).operand .atomic .syncBoth 0x100100 4 4)
        (fun r => homeIs 0x4000000100100 r && !r.2.commit.s.inFlight 1 0x4000000100100 && !r.2.commit.behind 0x4000000100100) =
        true ∧ held.pend = [] ∧ held.locking = false ∧
      ((lockTaken (lone [])).lockAt (lockOf 0x4000000100100)).owner ≠ none ∧
      ((tier1Page (lone [])).lockAt (lockOf 0x4000000100100)).queue = [] ∧
      gives ((Cx.mk (tier1Page (lone [])) (.slot 0) (lone [])).operand .locks .syncRead 0x100100 4 4)
        (homeIs 0x4000000100100) = true ∧
      gives ((Cx.mk (tier1Page (lone [])) (.slot 0) (lone [])).raceCheck (.home 0x4000000100100 quadLeaf) 0 0x100100)
        (fun _ => true) = true ∧
      gives ((Cx.mk (tier1Page held) (.slot 0) held).operand .locks .syncWrite 0x100100 8 8) (fun r =>
        homeIs 0x4000000100100 r && r.2.commit.s.flights.isEmpty && !r.2.commit.behind 0x4000000100100) = true := by decide +kernel

theorem witness_ordered_accesses :
    gives ((hand0 (lone [])).operand .words .syncRead 0x100 8 8) (fun r => homeIs 0x100 r && !r.2.behind 0x100) = true ∧
    gives ((hand0 (lone [])).operand .words .syncWrite 0x104 4 4) (homeIs 0x104) = true ∧
    gives ((hand0 (lone [])).raceCheck (.home 0x104 codeLeaf) 1 0x104) (fun _ => true) = true ∧
    (Instr.acq 1 9 1 3).wellFormed = true ∧ (Instr.scld 0 3 1 3).wellFormed = true ∧ (Instr.scst 0 4 2 1).wellFormed = true ∧
    (Instr.fence 3).wellFormed = true ∧ (Instr.fenceP 4 5 0).wellFormed = true ∧ (Instr.fenceP 0 2 2).wellFormed = true ∧
    (fire (lone [])).stranded 0x100 = false ∧ bit codeLeaf 8 = false ∧ (fire (lone [])).injRoom 0 = true ∧
    onTurn (fire (lone [(1, 0x100)])) (.slot 0) = true := by decide

theorem witness_waits : onTurn (fire (lone [(1, 0x100)])) (.slot 0) = true ∧ (Instr.waitEvq 0 0 3).wellFormed = true ∧
    (Instr.waitMem 1 5 1 9 2 1 3).wellFormed = true ∧ (Instr.waitBar 0 0 1 3).wellFormed = true ∧
    gives ((hand0 (lone [])).operand .objects .syncRead 0x100 16 16) (homeIs 0x100) = true ∧
    gives ((hand0 (lone [])).operand .objects .syncRead 0x100 32 32) (homeIs 0x100) = true ∧
    gives ((hand0 (lone [])).raceCheck (.home 0x100 codeLeaf) 0 0x100) (fun _ => true) = true := by decide

/-- A condition block at 0x100 of one condition: the 4-byte word at 0x200 equals 0. -/
def waitBlock : Map Byte := [(0x108, 1), (0x120, 1), (0x129, 2)]

theorem witness_wait_list : (Instr.waitList 1 0 1 3).wellFormed = true ∧
    gives ((Cx.mk (fireMem (lone []) waitBlock) (.slot 0) (lone [])).places .syncRead 32 0x100 1) (fun r =>
      let h := r.2.placeBytes 32 r.1
      !r.2.blockWaits r.1 && listNat h 8 1 == 1 && listNat h 9 1 == 0 && listNat h 0x0A 22 == 0 &&
        gives (r.2.places .syncRead 32 0x120 1) fun q => !q.2.blockWaits q.1 && gives (q.2.readPlaces (r.1 ++ q.1)) fun z =>
          gives (z.blockConds 0 (z.placeBytes 32 q.1) 1) fun w =>
            match w.1 with
            | some ws => ws.all fun w => !w.parked && !w.checked
            | none => false) = true ∧
    gives ((hand0 (lone [])).places .syncRead 32 0x100 1) (fun r => listNat (r.2.placeBytes 32 r.1) 8 1 == 0 &&
      !r.2.blockWaits r.1 && gives (r.2.places .syncRead 32 0x120 0) fun q => gives (q.2.readPlaces (r.1 ++ q.1)) fun _ => true) = true ∧
    gives ((Cx.mk (fireMem (lone []) [(0x108, 1)]) (.slot 0) (lone [])).places .syncRead 32 0x100 1) (fun r =>
      gives (r.2.places .syncRead 32 0x120 1) fun q => gives (q.2.readPlaces (r.1 ++ q.1)) fun z =>
        gives (z.blockConds 0 (z.placeBytes 32 q.1) 1) fun w => w.1.isNone) = true := by decide +kernel

theorem witness_wait_pipe :
    let l : Launch := { plainLaunch with pipes := [{ recSize := 16, depth := 2, home := 0, offset := 0 }] }
    onTurn { fire (lone []) with launches := [(0, l)] } (.slot 0) = true ∧ (Instr.waitPipe 0 0 2 1 3).wellFormed = true ∧
      0 < l.pipes.length := by decide

/-- A header of 4 bytes of payload for core 0 of tile 0, at 0x100. -/
def sendBlock : Map Byte := [(0x100, 0x80), (0x102, 4)]

theorem witness_send : (Instr.send 0 1 3).wellFormed = true ∧ (Instr.send 9 1 3).wellFormed = true ∧
    gives ((Cx.mk (fireMem (lone []) sendBlock) (.slot 0) (lone [])).places .syncRead 16 0x100 3) (fun r =>
      let h := r.2.placeBytes 16 r.1
      !r.2.blockWaits r.1 && sendStatus h == 0 && listNat h 2 2 == 4 && gives (r.2.places .syncRead 16 0x130 1) fun q =>
        !q.2.blockWaits q.1 && gives (q.2.readPlaces (r.1 ++ q.1)) fun z => decide (z.c.checkedSince = none)) = true ∧
    gives ((Cx.mk (fireMem (lone []) [(0x103, 2)]) (.slot 0) (lone [])).places .syncRead 16 0x100 3) (fun r =>
      sendStatus (r.2.placeBytes 16 r.1) == 2 && gives (r.2.places .syncRead 16 0x130 0) fun q =>
        gives (q.2.readPlaces (r.1 ++ q.1)) fun _ => true) = true ∧
    (fire (lone [])).injRoom 0 = true := by decide +kernel

theorem witness_htag_and_wid :
    let l : Launch := { plainLaunch with actors := [{ plainActor with kind := 2 }] }
    let s : State := { fire (lone [(1, 0x80)]) with launches := [(0, l)] }
    onTurn s (.slot 0) = true ∧ bit (0x80 : Word) 7 = true ∧ field (0x80 : Word) 8 56 = 0 ∧
      ((s.launchOf 0 1).bind (·.actors[field (0x80 : Word) 0 4]?)).map (·.kind) = some 2 ∧ (s.launchOf 0 1).isSome = true := by decide

theorem witness_continuations :
    gives ((hand0 (lone [])).operand .objects .syncRead 0x100 32 32) (fun r => homeIs 0x100 r && !r.2.behind 0x100) = true ∧
    (fire (lone [])).cutOff 0x100 = false ∧
    gives ((hand0 (lone [])).operand .objects .syncBoth 0x100 32 32) (homeIs 0x100) = true ∧ bit codeLeaf 8 = false ∧
    (fire (lone [])).stranded 0x100 = false ∧ (fire (lone [])).sentBefore (tileOf (coreOf 0)) ((fire (lone [])).homeNode 0x100) = false ∧
    (Instr.join 3 1).wellFormed = true ∧
    (Instr.join 4 1).wellFormed = true ∧ (fireMem (lone []) [(0x110, 1)]).bankRead 0x110 4 = 1 ∧
    (BitVec.ofNat 32 ((fire (lone [])).bankRead 0x110 4)).toInt ≤ 0 ∧
    (let r : Cont := { id := 1, district := 0, home := 0x100, va := 0x100, launch := 0, gen := 1 }
     let s : State := { fireMem (lone [(1, 0x100)]) [(0x110, 1)] with conts := [r] }
     onTurn s (.slot 0) = true ∧ r.home = 0x100 ∧ r.fixed = none ∧ (s.bankRead 0x110 4 + (2 ^ 32 - 1)) % 2 ^ 32 = 0) := by decide

theorem witness_launch :
    let s : State := { fire (lone [(1, 0x100)]) with enqTlb := [{ asn := 0, page := 0, leaf := codeLeaf }] }
    onTurn s (.slot 0) = true ∧ (Instr.launch 3 1 31).wellFormed = true ∧
      gives ((Cx.mk s (.slot 0) (lone [])).operand .blocks .syncRead 0x100 8 8) (fun r => homeIs 0x100 r &&
        gives (r.2.operand .blocks .syncRead 0x140 8 8) fun q => homeIs 0x140 q &&
          gives (q.2.operand .blocks .syncRead 0x178 8 8) (homeIs 0x178)) = true ∧ bit codeLeaf 8 = false ∧
      gives (s.enqueue 0 (s.enqRead 0 0x100 128) (some { origin := { uid := 1, slot := 0, gen := 1 }, depth := 1, scope := 3 })
        (some (0, 1)) 16) (fun r => r.1 != 0) = true := by decide +kernel

/-- A launch with one pipe of 16-byte records, two deep, with some records. -/
def piped (r : List Rec) : Launch :=
  { plainLaunch with pipes := [{ recSize := 16, depth := 2, home := 0, offset := 0 }], records := [(0, r)] }

theorem witness_pipes :
    let s (r : List Rec) (c : Ctx) : State := { fire c with launches := [(0, piped r)] }
    let rec' : Rec := (List.range 16).map (BitVec.ofNat 8)
    let share : Ctx := lone [(1, 0xFFFFFFFFFFFFF0)]
    onTurn (s [] share) (.slot 0) = true ∧ (s [] share).launchOf 0 1 = some (piped []) ∧ (piped []).pipes[0]? ≠ none ∧
      (piped []).pipes[1]? = none ∧ (piped [rec']).level 0 < 2 ∧ 2 ≤ (piped [rec', rec']).level 0 ∧
      gives ((Cx.mk (s [] share) (.slot 0) share).readRecord 0xFFFFFFFFFFFFF0 1) (fun _ => true) = true ∧
      (s [] share).pipeHeld (piped []) share 0 { recSize := 16, depth := 2, home := 0, offset := 0 } = false ∧
      gives ((Cx.mk (s [] share) (.slot 0) share).operand .blocks .syncWrite 0xFFFFFFFFFFFFF0 16 16) (fun _ => true) = true ∧
      gives ((Cx.mk (s [rec'] share) (.slot 0) share).places .syncWrite 16 0xFFFFFFFFFFFFF0 1) (fun r =>
        gives (r.2.checkLines (r.1.filterMap fun q => q.1.checkedLine.map (·, lineOf q.2)) true) fun _ => true) = true := by
  decide +kernel

/-- R483, R484: a struck record stays in its pipe, and the firing that reads it goes to its trap. -/
theorem test_struck_record :
    let rec' : Rec := (List.range 16).map (BitVec.ofNat 8)
    let c : Ctx := lone [(1, 0xFFFFFFFFFFFFF0)]
    let s : State := { fire c with launches := [(0, piped [rec'])], args := { a := 1, c := 2 } }
    let t := (next? (exec .softError s)).getD s
    let u := (next? (exec (.ppop 1 0) t)).getD s
    rec'[0]? ≠ none ∧ t.launches = [(0, piped [[]])] ∧ u.launches = t.launches ∧
      (u.slotAt 0).ctx.map (·.st) ≠ some .running := by
  decide +kernel

theorem witness_migr : onTurn (fire (lone [(1, 0x100)])) (.slot 0) = true ∧
    gives ((hand0 (lone [])).translate .syncRead false 0x100 1) (homeIs 0x100) = true ∧
    ((fire (lone [])).owningTile 0x100).bind ((fire (lone [])).slotOn []) = some (coreBase 480 * 8) ∧
    (({ fire (lone []) with roles := [(480, 3)] } : State).owningTile 0x100).bind
      (({ fire (lone []) with roles := [(480, 3)] } : State).slotOn []) = none := by decide

/-- A recast of tile 0 to role 1, between two of its steps. -/
def recast0 : Recast :=
  { tile := 0, role := 1, step := 1, deadline := 100, serial := 5, affected := [(0, 1)], acked := [], dest := 1024, moves := [],
    acks := [], ackAt := none, frontier := 0 }

theorem witness_leases_and_roles :
    let s (n : Nat) : State := { fire (lone [(1, 0), (2, 10000000)]) with launches := [(0, { plainLaunch with leaseAllow := n })] }
    let held : Lease := { launch := 0, gen := 1, blk := false, index := 0, expiry := 9 }
    onTurn (s 1) (.slot 0) = true ∧ (s 1).indexTile (lone []) false 0 = some 0 ∧ (s 1).indexTile (lone []) false 1 = none ∧
      (let b (e : Nat) : Ctx := { lone [] with boost := some { expiry := e, left := 5, suspended := false, charge := 33 } }
       ((b 1).boost.any fun m => !m.suspended && decide ((s 1).time < m.expiry)) = true ∧
       ((b 0).boost.any fun m => !m.suspended && decide (m.expiry ≤ (s 1).time)) = true ∧
       onTurn (fire (b 1)) (.slot 0) = true) ∧
      (s 1).indexTile (lone []) true 0 = none ∧ field ((s 1).roleOf 0) 2 3 = 0 ∧ (s 1).recasts = [] ∧
      (s 0).leased 0 1 false 0 = false ∧ ({ s 0 with leases := [held] } : State).leased 0 1 false 0 = true ∧
      recast0 ∈ ({ s 1 with recasts := [recast0] } : State).recasts ∧ recast0.serial = 5 ∧ (0, 1) ∈ recast0.affected ∧
      (Instr.role 2 1 3).wellFormed = true ∧ (s 1).covers 0 33 = false ∧
      ({ s 1 with power := { surplus := [(0, 33)] } } : State).covers 0 33 = true := by decide

/-! ## Hypotheses that can be met: system instructions, decoding and the step -/

theorem witness_event_queue :
    let other : EvEntry := { uid := 9, word := 1, addr := 0 }
    let mine : EvEntry := { uid := 1, word := 2, addr := 0 }
    let s (l : List EvEntry) : State := (fire (lone [])).setCore 0 { (fire (lone [])).coreAt 0 with evq := l }
    onTurn (s [other, mine]) (.slot 0) = true ∧ ((s [other, mine]).coreAt 0).evq = [other] ++ mine :: [] ∧
      (∀ f ∈ [other], f.uid ≠ 1) ∧ (∀ e ∈ ((s [other]).coreAt 0).evq, e.uid ≠ 1) ∧
      ∀ j < 8, (((s [other, mine]).slotAt j).ctx.map (·.evHeld)).getD [] = [] := by decide

theorem witness_control_registers : onTurn (fire (lone [])) (.slot 0) = true ∧ onTurn (sysFire []) (.sys 0) = true ∧
    (0x014 : BitVec 12) ∈ ([0x001, 0x002, 0x003, 0x004, 0x013, 0x014] : List (BitVec 12)) ∧
    (0x023 : BitVec 12) ∈ ([0x011, 0x012, 0x020, 0x021, 0x022, 0x023] : List (BitVec 12)) := by decide

theorem witness_requested_traps :
    let s : State := { fire (lone []) with host := { stage := 5 } }
    onTurn s (.slot 0) = true ∧ s.trapq = [] ∧ s.eligible 13 0 = true := by decide

/-- The trap of the firing in slot 0 waits for a system core; core 0 takes none of its class. -/
def trapWaits : State :=
  { State.reset with
    trapq := [0]
    host := { stage := 5 }
    sys := [(0, { retired := 8 })]
    slots := [(0, { ctx := some { lone [] with st := .trapped (Tables.trap 3 0 8 0x101 8) none } })] }

theorem witness_trap_delivery : trapWaits.trapq = 0 :: [] ∧ trapWaits.escalates 0 = false ∧ trapWaits.halted = false ∧
    trapWaits.trapOf 0 = some (Tables.trap 3 0 8 0x101 8) ∧ trapWaits.eligible 3 1 = true ∧
    ∀ j < 1, trapWaits.eligible 3 j = false := by decide

/-- System core 0 serves the trap of the firing in slot 0. -/
def served (disposition : Nat) (inside : Option WaitState) (asyncs : List Trap) : State :=
  let t : Trap := { Tables.trap 3 0 8 0x101 8 with disposition := disposition }
  { sysFire [] with
    launches := [(0, plainLaunch)]
    sys := [(0, { latch := some { cause := 3, addr := 0x101, detail := 8 }, serving := [0] })]
    slots := [(0, { ctx := some { lone [] with st := .trapped t inside, asyncs := asyncs, pc := 8 } })] }

theorem witness_trap_return :
    let w : WaitState := { conds := [], any := false, scope := 0, deadline := none, trap := false, rd := 3 }
    let a : Trap := { Tables.trap 7 1 0 0 0 with async := true }
    (∀ s ∈ [served 0 none [], served 0 (some w) [], served 0 none [a], served 1 none [], served 2 none []],
      onTurn s (.sys 0) = true ∧ (s.sysAt 0).serving = [0]) ∧ onTurn (sysFire []) (.sys 0) = true ∧
      ((sysFire []).sysAt 0).serving = [] ∧
      (((served 0 none []).launchOf 0 1).map (·.killed)).getD false = false ∧ ((served 2 none []).launchOf 0 1).isSome = true ∧
      (((served 0 (some w) []).slotAt 0).ctx.map fun c => c.st == .trapped (Tables.trap 3 0 8 0x101 8) (some w)) = some true := by
  decide

theorem witness_tlb_write :
    let s : State := { hubFire [(1, codeLeaf), (2, 0x100)] with slots := [(0, { ctx := some { lone [] with st := .missing 0x40 0 } })] }
    let bad : State := { s with mem := [(0x101, 1)] }
    onTurn s (.sys 16) = true ∧ 0x100 % 16 = 0 ∧ s.badLines.contains (lineOf 0x100) = false ∧
      (∀ o ∈ [0, 8, 0x0D], s.kernelFrame (0x100 + o) = false) ∧ s.tlbwStatus codeLeaf (s.readMem 0 0x100 8) 0 0 0 = 0 ∧
      s.readMem 0 0x108 8 = 0 ∧ onTurn bad (.sys 16) = true ∧ bad.tlbwStatus codeLeaf (bad.readMem 0 0x100 8) 0 0 0 ≠ 0 := by
  decide +kernel

theorem witness_tlb_invalidate : onTurn (hubFire []) (.sys 16) = true ∧ onTurn (sysFire []) (.sys 0) = true ∧
    (Instr.tlbi 4 1).wellFormed = true ∧ (Instr.tlbi 5 1).wellFormed = true ∧ (Instr.tlbi 6 1).wellFormed = true ∧
    (Instr.tlbi 9 1).wellFormed = true := by decide

theorem witness_illegal_and_privileged : onTurn (fire (lone [])) (.slot 0) = true ∧ (Instr.vtype 7).wellFormed = false ∧
    (Instr.vtype 7).isEvent = false ∧ (Instr.tlbi 4 1).wellFormed = true ∧ Instr.eret.wellFormed = true := by decide

theorem witness_words : (0x00 : Byte).toNat % 2 = 0 ∧ 0x09 < 2 ^ 32 ∧ 0x09 % 2 = 1 ∧ 0x09 / 2 % 64 = 0x04 ∧ 0x6F / 2 % 64 = 0x37 ∧
    (decode (wordBytes 4 0x00801501)).toOption.any (fun r => !r.1.wellFormed) = true := by decide

theorem witness_round_trip : (Instr.vadd16 7 15 15).isEvent = false ∧ (Instr.vadd16 7 15 15).wellFormed = true ∧
    (Instr.waitMem 1 5 1 9 31 31 31).isEvent = false ∧ (Instr.waitMem 1 5 1 9 31 31 31).wellFormed = true := by decide

theorem witness_memory_kept : Memory.wf (State.reset.withFetchWord 32 0x3F).mem = true ∧
    (State.reset.withFetchWord 32 0x3F).images = [] ∧ (next? (step (State.reset.withFetchWord 32 0x3F))).isSome = true := by
  decide +kernel

theorem test_step_runs_first_instruction : ((next? (step (State.reset.withFetchWord 32 0x00400503))).bind fun t =>
    (t.slotAt 0).ctx.map (·.pc)) = some 4 := by decide +kernel

theorem test_step_half_instruction : ((next? (step (State.reset.withFetchWord 16 0x0000))).bind fun t =>
    (t.slotAt 0).ctx.map (·.pc)) = some 2 := by decide +kernel

theorem witness_step : (∀ w ∈ [0x0000, 0x00400503, 0x00000009],
    let s := (State.reset.withFetchWord 32 w).tick
    s.inputs = [] ∧ s.poised false = s ∧ onTurn s (.slot 0) = true ∧ ((s.ctxOf (.slot 0)).any fun c =>
      gives ((Cx.mk s (.slot 0) c).reach .fetch true 0 2) fun r => homeIs 0 r && gives (r.2.reach .fetch true 2 2) (homeIs 2)) = true) ∧
    (decode (wordBytes 4 0x00400503)).toOption.isSome = true ∧ (decode (wordBytes 4 0x00000009)).toOption = none := by
  decide +kernel

theorem witness_schedule : Instr.powerUp.isEvent = true ∧ Instr.add 0 0 0 1 2 3 ≠ .nop := by decide

/-! ## Hypotheses that can be met: the events -/

/-- A package that is ready, with the operands of an event. -/
def ready (a : EventArgs) : State := { State.reset with host := { stage := 5, ready := true, bar2 := false }, args := a }

/-- A package in a boot stage. -/
def booting (n : Nat) (a : EventArgs := {}) : State := { State.reset with host := { stage := n }, args := a }

/-- A package in boot stage 4 with a queue whose registers stand, and one without. -/
def queue3 (size : Nat) : State :=
  { booting 4 { a := 3, b := 7 } with host := { stage := 4, queues := [(3, { base := 0, size := size, cpl := 0x1000 })] } }

theorem test_doorbell_before_ready_is_latched : ((next? (exec .doorbell (queue3 16))).map fun t =>
    ((t.host.queue 3).latched, (t.host.queue 3).tail)) = some (some 7, 0) := by decide +kernel

theorem test_doorbell_of_bad_registers_is_ignored : next? (exec .doorbell (queue3 17)) = some (queue3 17) := by decide +kernel

theorem test_drone_ready : ((next? (exec .droneReady (booting 4))).map fun t => (t.host.stage, t.host.ready)) = some (5, true) := by
  decide +kernel

theorem witness_boot : (booting 0).host.stage = 0 ∧ (booting 1).host.stage = 1 ∧ (booting 2).host.stage = 2 ∧
    (booting 3).host.bootError = false ∧ bankState 0x100 = false ∧ (booting 3).args.a = 0 ∧ rangesOk [(0, 1023), (4096, 5119)] = true ∧
    (booting 3 { a := 5 }).args.a = 5 ∧ (∀ q < 16, ((booting 4).host.queue q).latched = none ∧
      ((booting 4).host.queue q).head = ((booting 4).host.queue q).tail) := by decide

theorem witness_host_access : ((List.range 8).map (0x2000000000000 + ·)).all (ready {}).hostReach = true ∧
    ((List.range 2).map (0x40000001E0000 + ·)).all (ready {}).hostReach = true ∧ bankState 0x40000001E0000 = true ∧
    ((List.range 2).map (0x40000001E0000 + ·)).all (!systemTileMemory ·) = true ∧ (booting 1).host.bar2 = true ∧
    0x3FFFF8 + 8 ≤ 0x400000 ∧ 0xFFF8 + 8 ≤ 0x10000 := by decide

theorem witness_register_writes : 0x108 + 32 * 15 = 0x2E8 ∧ 2200001 < 2 ^ 64 ∧ 4 ≤ (booting 4).host.stage ∧
    63 ∉ (booting 4).host.etherPorts ∧ (booting 4).peerIdle = true ∧
    ({ ready {} with host := { stage := 5, mbPending := true, mbCommand := 1 } } : State).asked 1 = true ∧
    ({ ready {} with host := { stage := 4, mbPending := true, mbCommand := 4 } } : State).asked 4 = true ∧
    ({ ready {} with host := { stage := 3, bootError := true, mbPending := true, mbCommand := 2 } } : State).asked 2 = true ∧
    ({ ready {} with host := { stage := 4, mbPending := true, mbCommand := 3 } } : State).asked 3 = true := by decide

/-- A launch queue of 16 entries with one entry to read, and the header unit's page 0. -/
def queued (a : EventArgs) : State :=
  { ready a with
    host := { stage := 5, ready := true, queues := [(2, { base := 0, size := 16, cpl := 0x1000 })] }
    enqTlb := [{ asn := 0, page := 0, leaf := codeLeaf }] }

theorem witness_queues :
    let v := (queued { a := 2, b := 1 }).host.queue 2
    v.ok = true ∧ ({ v with size := 17 } : HostQueue).ok = false ∧ (queue3 16).host.ready = false ∧ 1 % v.size = (v.head + 1) % v.size ∧ 16 % v.size = v.head ∧ v.head < v.size ∧ v.stuck = false ∧
      v.written - v.reported < v.size ∧ v.reported + (0 + 2 ^ 32 - v.reported % 2 ^ 32) % 2 ^ 32 ≤ v.written ∧
      ({ v with stuck := true } : HostQueue).stuck = true := by decide

theorem witness_submission :
    let s := queued { a := 2, b := 1 }
    gives (s.enqueue 0 (s.headerAt 0 0) none none 2) (fun r => r.1 == 2) = true ∧
      gives (s.enqueue 0 (.ok ((List.range 128).map fun _ => 0)) none none rackQueue) (fun _ => true) = true := by decide +kernel

theorem test_submission_of_a_bad_header : ((next? (exec .doorbell (queued { a := 2, b := 1 }))).map fun t =>
    ((t.host.queue 2).head, t.bankRead (hostPa 0x100C) 4)) = some (1, 0x102) := by decide +kernel

theorem witness_launch_ends :
    let done : Launch := { plainLaunch with parent := some (3, 1) }
    let s (l : Launch) : State := { ready { a := 0 } with launches := [(0, l)], pool := 1 }
    (s done).launchDone 0 done = true ∧ (s plainLaunch).launchDone 0 plainLaunch = true ∧
      (s plainLaunch).launchOf (2 ^ 13 % 2 ^ 13) (2 ^ 13 / 2 ^ 13) = some plainLaunch ∧
      (s plainLaunch).launchOf 0 2 = none := by decide

theorem witness_admission :
    let s : State := { ready { a := 2 } with launches := [(0, { plainLaunch with admitted := false })], admission := [(2, 0)] }
    s.halted = false ∧ s.bindable ≠ [] ∧ s.admission = (s.args.a, 0) :: [] ∧ (s.launches.get? 0).isSome = true := by
  decide +kernel

theorem witness_reports_and_joins :
    let s : State := { queued { a := 0 } with rackDue := [(0, 0, 1)], joins := [(0, 0x40)], launches := [(0, plainLaunch)] }
    s.rackDue = (s.args.a, 0, 1) :: [] ∧ s.launchOf (2 ^ 13 % 2 ^ 13) (2 ^ 13 / 2 ^ 13) = some plainLaunch ∧
      plainLaunch.admitted = true ∧ s.passing 0 plainLaunch = false ∧
      7 ∈ ({ s with host := { s.host with etherPorts := [7] } } : State).host.etherPorts ∧ s.joins[s.args.a]? = some (0, 0x40) ∧ tiers134 0x40 = true ∧ s.unbacked 0x40 = false ∧
      (match s.enqAddr 0 0x40 .store with
        | .ok pa => pa == 0x40
        | .error _ => false) = true := by decide

/-- Ready work of launch 0. -/
def work0 : Ready :=
  { launch := 0, gen := 1, actor := 0, kind := 0, wid := 0, place := 0, prio := 6, cls := 0, raised := 0, age := 0, since := 0,
    ctx := none, handler := none, code := 0, frame := 0, scope := 0, recs := [], starved := none, blocking := false }

theorem witness_dispatch :
    let s : State := { ready { a := 0 } with launches := [(0, plainLaunch)], ready := [work0] }
    s.tileOpen (tileOf (coreOf 0)) = true ∧ s.ready.filter (s.mayTake 0) = [work0] ∧ s.gangWork work0 = false ∧
      s.fits [coreOf 0] 0 = true ∧ s.halted = false ∧ s.launchOf 0 1 = some plainLaunch ∧ work0.ctx = none ∧ work0.alone = false ∧
      s.ready = [work0] := by decide

theorem witness_pipe_actor :
    let x : Actor := { plainActor with kind := 1, inPipe := [0, 255, 255, 255], inRate := [1, 0, 0, 0] }
    let l : Launch := { piped [[1]] with actors := [x] }
    l.actors[0]? = some x ∧ x.kind = 1 ∧ l.admitted = true ∧ l.killed = false ∧
      takeInputs (usedPipes x.inPipe x.inRate) l.records [] = some ([], [(0, [[1]])]) := by decide

theorem witness_ageing :
    let s (r : Ready) : State := { ready { a := 0 } with time := 100000, ready := [r], launches := [(0, plainLaunch)] }
    (s work0).ready[(s work0).args.a]? = some work0 ∧ work0.blocking = false ∧ work0.prio + work0.raised < 7 ∧
      work0.since + 100000 * (work0.raised + 1) ≤ (s work0).time ∧
      ({ work0 with prio := 7, starved := some 0 } : Ready).effective (s work0).time = 7 ∧ work0.alone = false ∧ 0 + 100000 ≤ (s work0).time ∧
      (s { work0 with kind := 3, place := 1 }).launchOf 0 1 = some plainLaunch ∧ plainLaunch.binds = (0, 0) :: [] ∧
      ∀ b ∈ plainLaunch.binds, districtOfTile b.2 ≠ 1 := by decide

theorem witness_migration :
    let m : Move := { src := 0, dst := 64, rd := some 3 }
    let c : Ctx := { lone [] with st := .moving }
    let s : State := { fire c with args := { a := 0 }, moves := [m] }
    s.moves = [m] ∧ m.src = s.args.a ∧ m.dst ≠ m.src ∧ (s.slotAt m.src).ctx = some c ∧ c.pend = [] ∧ c.vstream = [] ∧
      s.leaving (tileOf (coreOf m.dst)) = false ∧ s.matrixBusy c.uid = false ∧ s.ownSubs c.uid (coreOf m.src) = [] ∧
      (s.setSub 0 2 { owner := some 1 }).ownSubs c.uid (coreOf m.src) = [2] ∧
      ((s.setSub 0 2 { owner := some 1 }).subAt (coreOf m.dst) 2).owner = none := by decide

theorem witness_retirement :
    let c : Ctx := { lone [] with st := .ended false }
    let s : State := { fire c with args := { a := 0 } }
    (s.slotAt 0).ctx = some c ∧ c.pend = [] ∧ c.loads = [] ∧ (∀ f ∈ s.flights, f.origin.uid ≠ c.uid) ∧ s.shareNamed c.uid = false ∧
      ({ inc := 0, uid := 1, dst := some (64, 1), expiry := 5 } : Fwd).live 5 = false := by decide

/-- A message with route tag 3 for core 0 of tile 0. -/
def packet0 : Packet :=
  { opcode := 0x83, flags := 3, len := 0, node := 0, agent := 0, tslot := 0, tinc := 0, sslot := 0, sinc := 0, stamp := 0, reply := 0,
    op0 := 0, op1 := 0, aux := 0, payload := [], origin := {}, scope := 0 }

theorem witness_handler :
    let k : Core := { enable := 0xFFFF, routes := [(3, { launch := 0, gen := 1, actor := 0, hprio := 0 })],
                      inbox := [{ entry := 0, begun := false, packet := packet0 }] }
    let s : State := { ready { a := 0, b := 3 } with launches := [(0, plainLaunch)], cores := [(0, k)] }
    let m : InMsg := { entry := 0, begun := false, packet := packet0 }
    (s.coreAt 0).inbox.find? (·.packet.tag == 3) = some m ∧ s.resolveTag 0 m = some (0, 1, 0, 0) ∧
      s.launchOf 0 1 = some plainLaunch ∧ (s.coreAt 0).enable.getLsbD 3 = true ∧ s.handling 0 3 = false := by decide

theorem witness_time_commits :
    let c : Ctx := { lone [] with region := { since := some 0 }, checkedSince := some 0 }
    let s : State := { fire c with args := { a := 0 }, time := 10000 }
    (s.slotAt 0).ctx = some c ∧ 0 + 10000 ≤ s.time ∧ c.atBoundary = true ∧ c.unclaimed = true ∧ c.inCheck = false ∧ c.pend = [] := by decide

theorem witness_load_data :
    let l : QLoad := { id := 7, vec := false, q := 4, cells := [(none, 1)], signed := false }
    let v : QLoad := { id := 7, vec := true, q := 0, cells := [(some 0x100, 0), (none, 1)], signed := false, width := 1 }
    let c (l : QLoad) : Ctx := { lone [] with loads := [l], regs := { sq := [(4, [.due 7])] } }
    let a : QLoad := { id := 8, vec := false, q := 0, cells := [], signed := true, reg := some 3, kind := .atomic 0x100 8 0 1 0 }
    let d : Ctx := { lone [] with loads := [a], regs := { due := [(3, 8)] } }
    (c l).loads.find? (·.id == 7) = some l ∧ (fire (c l)).mayServe 0 (c l) (l.part []) = true ∧ l.kind = .plain ∧
      (fire (c v)).mayServe 0 (c v) (v.part [1]) = true ∧
      ((fire (c v)).served 1 v [1]).cells.any (·.1.isSome) = true ∧ v.kind = .plain ∧
      d.loads.find? (·.id == 8) = some a ∧ (fire d).mayServe 0 d (a.part []) = true ∧
      ((fire d).lockAt (lockOf 0x100)).owner = none := by decide +kernel

/-- R367: one element of a vector load is read before the other. -/
theorem test_load_in_parts :
    let l : QLoad := { id := 7, vec := true, q := 0, cells := [(some 0x100, 0), (some 0x101, 1)], signed := false, width := 1 }
    let s : State := { fire { lone [] with loads := [l] } with mem := [(0x100, 5), (0x101, 6)], args := { b := 7, data := [1] } }
    ((next? (exec .loadDataReturn s)).bind fun t => (t.slotAt 0).ctx.map fun c => c.loads.map (·.cells)) =
      some [[(some 0x100, 0), (none, 6)]] := by decide +kernel

/-- Slot 0 claims a checked line of tile 0, or reads it. -/
def checking (claim : Bool) (tags : Map RaceTag) : State :=
  { fire { lone [] with st := .checking 0x4000000100000 0x100000 claim } with args := { a := 0 }, tags := tags }

theorem witness_race_checks : (checking true []).conflict 0 0x4000000100000 true = none ∧
    (checking false []).conflict 0 0x4000000100000 false = none ∧ (checking true []).stranded 0x4000000100000 = false ∧
    ((checking false []).recordReader 0 0 0x4000000100000).isSome = true ∧
    (let other : Ctx := { lone [] with uid := 9, touched := [{ line := 0x4000000100000, read := false, claimed := true }] }
     let s := (checking false [(0x4000000100000, tagOf (some (9, 0)) [])]).putCtx (.slot 9) other
     (s.conflict 0 0x4000000100000 false).isSome = true) := by decide

theorem witness_wait_events :
    let w (trap : Bool) : WaitState := { conds := [{ kind := 5, op := 0, size := 0, va := 0, home := 0, value := 0 }], any := true, scope := 0,
                                         deadline := some 5, trap := trap, rd := 3 }
    let s (evq : List EvEntry) (trap : Bool) : State := ({ fire { lone [] with st := .waiting (w trap) } with time := 5 }).setCore 0
      { (fire (lone [])).coreAt 0 with evq := evq }
    let bits (s : State) : Option Nat := match s.waitBits 0 (lone []) (w false) with
      | .ok n => some n
      | .error _ => none
    bits (s [] false) = some 0 ∧ (w false).met 0 = false ∧ bits (s [{ uid := 1, word := 1, addr := 0 }] false) = some 1 ∧
      (w false).met 1 = true ∧ 5 ≤ (s [] true).time ∧ (s [] true).halted = false := by decide

theorem witness_realign_limit :
    let c : Ctx := { lone [] with st := .realign 409500 0 }
    let s : State := { fire c with time := 436 }
    (s.slotAt 0).ctx = some c ∧ s.halted = false ∧ 409500 ≤ (s.time - 0) * pointMHz (s.quadAt (quadOf (coreOf 0))).point := by decide

/-- A committed line of 64 bytes on its way to a home. -/
def flight0 (home phase : Nat) : Flight :=
  { id := 4, line := ⟨home, 0, 1, 7⟩, origin := { uid := 1 }, num := 0, core := 0, posted := true, journal := some 0, phase := phase,
    reason := 0, loads := [], tile := 5, epoch := 0 }

theorem witness_lines :
    let s (f : Flight) (bad : List Nat) : State := { fire (lone []) with flights := [f], badLines := bad, args := { a := 4 } }
    (s (flight0 0x100 0) []).flights.find? (·.id == 4) = some (flight0 0x100 0) ∧
      (s (flight0 0x100 0) []).mayLand (flight0 0x100 0) = true ∧ (s (flight0 0x100 0) []).staleAt (flight0 0x100 0) = false ∧
      (s (flight0 0x100 0) []).refusal (flight0 0x100 0).line false = 0 ∧
      (s (flight0 0x100 0) [0x100]).mayLand (flight0 0x100 0) = true ∧
      (s (flight0 0x100 0) [0x100]).refusal (flight0 0x100 0).line false = 3 ∧
      (s (flight0 shareBase 0) []).mayLand (flight0 shareBase 0) = true ∧ (s (flight0 shareBase 0) []).slotOfUid 1 = some 0 ∧
      (s (flight0 shareBase 0) []).refusal (flight0 shareBase 0).line false = 0 ∧
      (s (flight0 0x100 2) []).journal 0 0 = some (flight0 0x100 2) ∧ (flight0 0x100 1).phase = 1 ∧ (flight0 0x100 3).phase = 3 := by
  decide +kernel

/-- Tile 6 is storage and holds block 0 of the first storage window. -/
def storing : State := { fire (lone []) with roles := [(6, 0x21)], windows := [{ asn := 0, base := 0, id := 0 }] }

theorem witness_stale_line :
    let f := flight0 0x6000000000000 0
    let s : State := { storing with flights := [f], epoch := 1 }
    s.mayLand f = true ∧ s.staleAt f = true := by decide

theorem witness_lock_grant :
    let lock := lockOf 0x4000000100100
    let q : QLoad := { id := 5, vec := false, q := 0, cells := [], signed := true, reg := some 3,
                       kind := .lock lock 0x4000000100100 0x100100 4 }
    let c : Ctx := { lone [] with loads := [q], regs := { due := [(3, 5)] } }
    let s : State := { tier1Page c with locks := [(lock, { queue := [1, 9] })], args := { a := lock } }
    (s.lockAt s.args.a).owner = none ∧ (s.lockAt s.args.a).queue = 1 :: [9] ∧ s.slotOfUid 1 = some 0 ∧
      (s.slotAt 0).ctx = some c ∧ c.loads.find? (·.seeks s.args.a) = some q ∧ q.reg = some (3 : BitVec 5).toNat ∧
      s.mayServe 0 c q = true ∧ s.halted = false ∧ c.pend = [] ∧ lineOf 0x4000000100100 ∉ s.badLines ∧
      (∀ a ∈ q.homes, lineOf a ∉ s.badLines) ∧ lockOf 0x4000000100100 = s.args.a := by decide +kernel

theorem witness_soft_error_and_peer : populated (lineOf 0x12345) = true ∧ (tierOf (lineOf 0x12345)).isSome = true ∧
    lineOf 0x12345 ∉ (ready {}).badLines ∧ 63 ∉ (ready {}).host.etherPorts ∧ (∀ i < 8, (ready {}).peerReach (0x12340 + i) = true) ∧
    ((ready {}).lockAt (lockOf 0x12340)).owner = none := by decide

theorem witness_escalation :
    let t := Tables.trap 3 0 0 0 0
    let s : State := { served 0 none [] with
      args := { a := 0 }
      trapq := [65536]
      sys := [(0, { latch := some { cause := 0, addr := 0, detail := 0 }, serving := [0], ctx := { kind := 4, st := .trapped t none } })] }
    (s.sysAt 0).latch.isSome = true ∧ (s.sysAt 0).serving = 0 :: [] ∧ s.trapOf (65536 + 0) = some t ∧
      (s.trapOf 0).isSome = true := by decide

/-- An announcement in window 0. -/
def announce0 (kind : Nat) (entries : List (Nat × Word)) : Announce :=
  { id := 1, window := 0, kind := kind, scope := 6, slot := 0, inc := 0, serial := 0, x := 6, y := 1, entries := entries }

theorem witness_panpipe :
    let s : State := { ready { a := 0 } with time := 1000, pan := [announce0 3 [(6, 0x5)]] }
    s.args.a + 7 ≤ windowAt s.time ∧ (∀ a ∈ s.pan, s.args.a ≤ a.window) ∧ (∃ a ∈ s.pan, a.window = s.args.a) ∧
      s.pan = [announce0 3 [(6, 0x5)]] ∧ (announce0 3 [(6, 0x5)]).entries = [(6, 0x5)] := by decide +kernel

/-- A recast of tile 6 to role 1. -/
def recast6 (step : Nat) : Recast := { recast0 with tile := 6, step := step, affected := [], dest := 9 }

/-- The package while that recast is under way. -/
def recasting (r : Recast) (w : Word) (a : EventArgs := { a := 6 }) : State :=
  { ready a with time := 1000, recasts := [r], roles := [(6, w)] }

theorem witness_recast_acknowledged : (recasting (recast6 1) 0x4 { a := 6, b := 63 }).recastOf 6 = some (recast6 1) ∧
    63 ∉ (recasting (recast6 1) 0x4).absentHubs ∧ 63 ∉ (recast6 1).acks ∧ (recast6 1).step ≠ 0 := by decide

theorem witness_recast_deadline : (recast6 1).noticed = true ∧ (recasting (recast6 0) 0x4).moveAnnounced 6 = false ∧
    (recast6 1).deadline ≤ (recasting (recast6 1) 0x4).time ∧ (recasting (recast6 1) 0x25).recastOf 6 = some (recast6 1) ∧
    field (0x25 : Word) 0 2 ≠ 0 ∧ field (0x4 : Word) 0 2 = 0 ∧
    ({ recasting (recast6 1) 0x25 with roles := [(6, 0x25), (9, 1)] } : State).blockDest (recast6 1) = some 9 ∧
    ((recasting (recast6 1) 0x4).lastMoves (recast6 1)).isSome = true := by decide +kernel

theorem witness_storage_copy : (recasting (recast6 2) 0x29).updating 6 = false ∧ field (0x29 : Word) 0 2 = 1 ∧
    field (0x29 : Word) 2 3 = 2 ∧ (recasting (recast6 2) 0x29).unlockedTo (blockPa 0 0) 2 0 = 128 ∧
    ({ recasting (recast6 2) 0x29 with locks := [(lockOf (blockPa 0 0 + 64), { owner := some (1, 0) })] } : State).unlockedTo
      (blockPa 0 0) 2 0 = 64 ∧
    (let s (l : List (Nat × Word)) : State := { recasting (recast6 2) 0x29 with roles := (6, 0x29) :: l }
     (s [(9, 1)]).takesBlock 9 = true ∧ (s [(10, 1)]).takesBlock 9 = false ∧ (s [(10, 1)]).blockDest (recast6 2) = some 10) := by
  decide +kernel

theorem witness_compute_rebind :
    let s := recasting (recast6 2) 0x8
    s.updating 6 = false ∧ field (0x8 : Word) 0 2 = 0 ∧ field (0x8 : Word) 2 3 = 2 ∧ s.residents 6 = [] ∧
      s.lastMoves (recast6 2) = some (9, []) ∧ (recast6 2).left = false ∧
      (s.moveInboxes { recast6 2 with left := true }).isSome = true ∧
      (let r : Recast := { recast6 2 with left := true }
       let u := recasting r 0x8
       u.residents 6 = [] ∧ u.inboxesEmpty 6 = true ∧ u.tileQuiet 6 = true ∧ u.pagesGone r = true ∧ u.straysFit r = true) := by
  decide +kernel

theorem witness_recast_finish : (recasting (recast6 6) 0x8).updating 6 = false ∧ lastMove 0x8 = 6 ∧ lastMove 0x29 = 4 ∧ lastMove 0x1 = 1 ∧
    (recasting (recast6 6) 0x8).mcasts = [] ∧ windowAt 0 + 2 ≤ windowAt (recasting { recast6 6 with ackAt := some 0 } 0x8).time := by decide +kernel

theorem witness_injection :
    takeFrom [] 0 [.packet packet0 0] = some (packet0, []) ∧
    takeFrom [(5, 2)] 1 [.packet { packet0 with node := 5 } 31, .packet packet0 0] =
      some (packet0, [.packet { packet0 with node := 5 } 32]) := by decide

theorem witness_message :
    let s : State := { ready { a := 0 } with flying := [packet0] }
    s.flying[0]? = some packet0 ∧ s.inOrder 0 packet0 = true ∧ packet0.node < 1024 ∧
      s.inboxCore (coreBase 0) packet0 none = 0 ∧ s.compute 0 = true ∧
      packet0.agent < 8 ∧ packet0.tslot = 0 ∧ s.noticeGone packet0 = false ∧ (s.coreAt (coreBase 0)).inbox.length < 16 := by decide

/-- R237: of the commands of one slot for a bank that moves, the one that names the new tile does not overtake the one that names the
old tile. -/
theorem test_bank_order :
    let p (node mark : Nat) : Packet :=
      { packet0 with opcode := 0x21, agent := 10, node := node, home := some 0, origin := { uid := 1, mark := mark } }
    let s (l : List Packet) : State := { recasting (recast6 6) 0xC with flying := l }
    (s [p 6 1, p 9 2]).inOrder 1 (p 9 2) = false ∧ (s [p 6 1, p 9 2]).inOrder 0 (p 6 1) = true ∧
      (s [p 8 1, p 9 2]).inOrder 1 (p 9 2) = true := by decide

theorem witness_tlb_walks :
    let leaf : Word := BitVec.ofNat 64 (0x109F % 2 ^ 55)
    let c : Ctx := { lone [] with st := .missing 0x200040 0 }
    0x200040 < 2 ^ 56 ∧ 0x200040 - 0x200040 % pageBytes (bit leaf 12) = 0x200000 ∧
      (fire c).tlbwStatus leaf 0x200000 (tileOf 0) 0 0 = 0 ∧ (fire c).tlbwStatus leaf 0x200000 1023 0xFF 0 = 0 ∧
      ((fire c).slotAt 0).ctx = some c ∧ c.asn = 0 := by decide

theorem witness_pages :
    let leaf : Word := BitVec.ofNat 64 (0x109F % 2 ^ 55)
    let c : Ctx := { lone [] with st := .pageWait 0x200040 0 }
    let s : State := { fire c with ready := [{ work0 with ctx := some c, blocking := true }] }
    bit leaf 0 = true ∧ s.tlbwStatus leaf (0x200040 - 0x200040 % pageBytes (bit leaf 12)) 0 0xFF 0 = 0 ∧ (s.slotAt 0).ctx = some c ∧
      c.pend = [] ∧ c.vstream = [] ∧ 0x200040 / pageBytes (bit leaf 12) = 0x2FFFFF / pageBytes (bit leaf 12) := by decide

theorem witness_census_and_leases :
    let s : State := { ready { a := 63 } with time := 5000, leases := [{ launch := 0, gen := 1, blk := false, index := 0, expiry := 5000 }] }
    63 ∉ s.absentHubs ∧ (s.census.get 63 {}).sampled < s.time / 5000 ∧ s.leases[0]? ≠ none ∧ 5000 ≤ s.time := by decide

theorem witness_proposals : (ready {}).proposalCode 5 0 0 false 0 0 = 6 ∧ (ready {}).proposalCode 5 1 0 false 0 0 = 0 ∧
    ({ ready {} with roles := [(5, 1)] } : State).proposalCode 5 0 0 true 0 0 = 0 := by decide +kernel

theorem witness_page_migration :
    let old : Word := codeLeaf
    let new : Word := BitVec.ofNat 64 (0x200000 / 1024 * 8192 + 0x109F)
    let m : PageMove := { asn := 0, va := 0, size := 0x200000, old := old, new := new, phase := 0 }
    leafWithin 4 old = true ∧ leafWithin 5 new = true ∧ (ready {}).moveFits (leafFrame old) (leafFrame new) 0x200000 = true ∧
      (ready {}).frameFree (leafFrame new) 0x200000 = true ∧ m.promotes = false ∧ (ready {}).lockTaken m = false ∧ bit old 12 = bit new 12 ∧ leafFrame old ≠ leafFrame new ∧
      (ready {}).tlbwStatus new 0 0 0xFF 0 = 0 ∧ m.size = pageBytes (bit m.old 12) ∧ Memory.wf (ready {}).mem = true ∧
      leafFrame m.old % m.size = 0 ∧ leafFrame m.new % m.size = 0 := by decide

theorem witness_promotion :
    let old : Word := BitVec.ofNat 64 (2 ^ 49 / 1024 * 8192 + 0x10BF)
    let new : Word := codeLeaf
    let m : PageMove := { asn := 0, va := 0, size := 0x200000, old := old, new := new, phase := 0 }
    let s (bad : List Nat) : State := { ready {} with badLines := bad, pageMoves := [m] }
    bit old 0 = true ∧ tierOf (leafFrame old) = some 5 ∧ tierOf (leafFrame new) = some 4 ∧ leafWithin 5 new = true ∧
      (s []).moveFits (leafFrame old) (leafFrame new) 0x200000 = true ∧ (s []).frameFree (leafFrame new) 0x200000 = true ∧
      (s []).tlbwStatus new 0 0 0xFF 0 = 0 ∧ m.promotes = true ∧
      (∃ l ∈ (s [2 ^ 49 + 64]).badLines, l / m.size = leafFrame m.old / m.size) ∧ (s []).badLines = [] := by decide +kernel

/-- R485: a page whose promotion finds an uncorrectable line is gone, and an access to it meets class 9. -/
theorem test_lost_page :
    let m : PageMove := { asn := 0, va := 0, size := 0x200000, old := BitVec.ofNat 64 (2 ^ 49 / 1024 * 8192 + 0x10BF), new := codeLeaf,
                          phase := 0 }
    let s : State := { fire { lone [] with st := .pageWait 0x40 0 } with
      pageMoves := [m], badLines := [2 ^ 49 + 64], args := { d := m.old.toNat, c := m.new.toNat } }
    let t := (next? (exec .pageMigration s)).getD s
    let u := (next? (exec .quotaDecline { t with args := { b := 0x40 } })).getD t
    t.pageMoves = [] ∧ t.lostPages = [m] ∧ ((u.slotAt 0).ctx.map fun c => match c.st with
      | .trapped t _ => t.cls
      | _ => 0) = some 9 := by decide +kernel

/-- A chain of the firing of launch 0 at an entry in quad store 0 of tile 0, at 0x300000. -/
def chain0 : Chain :=
  { id := 7, engine := 1, node := 0, origin := { uid := 1, slot := 0, launch := 0, gen := 1 }, tag := 0, entry := 0x300000, stack := [],
    walked := 0, reports := 0 }

/-- A package with that chain, its engine's pages and some bytes at offsets of that quad store. -/
def chained (m : Map Byte) (c : Chain := chain0) : State :=
  { ready { a := 7 } with
    launches := [(0, plainLaunch)]
    mem := m.map fun e => (0x4000000100000 + e.1, e.2)
    tiles := [(0, { tlb := [{ asn := 0, page := 0, leaf := codeLeaf },
      { asn := 0, page := 0x200000, leaf := quadLeaf }] })]
    chains := [c] }

/-- The entry that the chain has reached meets a test. -/
def entry (m : Map Byte) (p : List Byte → Bool) (c : Chain := chain0) : Bool := gives ((chained m c).chainEntry c) p

theorem test_chain_loop_steps_back : ((next? (exec .chainLoop (chained [(0, 4), (4, 2), (8, 1)]))).map fun t =>
    t.chains.map fun c => (c.entry, c.stack)) = some [(0x2FFFE0, [(0x300000, 1)])] := by decide +kernel

theorem test_chain_copy_begins : ((next? (exec .chainCopy (chained [(0, 1), (4, 2), (9, 8), (10, 0x30), (0x11, 9), (0x800, 5)]))).map
    fun t => (t.copies.map (·.cells), t.chains.map (·.entry))) =
    some ([[(0x300800, 0x900), (0x300801, 0x901)]], [0x300020]) := by decide +kernel

/-- A line of a copy of that chain's engine. -/
def line0 (dst : CopyDst) (cells : List (Nat × Nat)) : CopyLine :=
  { id := 1, chain := 7, node := 0, origin := chain0.origin, tag := 0, entry := 0x300000, num := 0, dst := dst, cells := cells,
    overlap := false }

/-- A package in which that line is to be written. -/
def copying (dst : CopyDst) (cells : List (Nat × Nat)) : State :=
  { chained [(0x800, 5), (0x801, 6)] with
    args := { a := 7, b := 1 }, copies := [line0 dst cells], slots := [(0, { ctx := some (lone []) })] }

theorem test_copy_line : ((next? (exec .chainCopy (copying .virt [(0x300800, 0x901), (0x300801, 0x900)]))).map fun t =>
    (t.byteAt 0x900, t.byteAt 0x901, t.byteAt 0x902, t.copies)) = some (6, 5, 0, []) := by decide +kernel

/-- No frame of that package is reserved for the kernel. -/
theorem witness_no_kernel_frame (m : Map Byte) (pa n : Nat) : (chained m).kernelFrame pa = false ∧
    (chained m).kernelPart pa n = false := ⟨rfl, rfl⟩

theorem witness_chain_starts :
    let s (p : Packet) : State := { ready { a := 0 } with arrived := [p] }
    (s { packet0 with opcode := 0x10, agent := 8 }).arrived = { packet0 with opcode := 0x10, agent := 8 } :: [] ∧
      ({ packet0 with opcode := 0x30, agent := 12, node := 1024 } : Packet).node = 1024 + (s packet0).args.a := by decide

theorem witness_chain_control :
    entry [(0, 4), (4, 2), (8, 1)] (fun b => listNat b 0 1 == 4 && listNat b 1 3 == 0 && listNat b 8 2 == 1) = true ∧
    (chained []).chainOf 7 = some chain0 ∧ (chained []).scans = [] ∧ (chained []).halted = false ∧ (chained []).badLines = [] ∧ (chained []).drained chain0 = true ∧
    entry [(0, 4), (4, 2), (8, 1)] (fun _ => true) { chain0 with stack := [(0x300000, 1)] } = true ∧
    entry [(0, 5), (1, 1), (9, 8)] (fun b => listNat b 0 1 == 5 && listNat b 1 1 == 1 && listNat b 8 8 % 8 == 0) = true ∧
    gives ((chained []).engBytes chain0.eng tiers134 0x800 8) (fun _ => true) = true ∧
    entry [(0, 6), (1, 255), (9, 8)] (fun b => listNat b 1 1 == 255) = true ∧
    entry [(0, 7), (1, 1), (0x10, 9)] (fun b => listNat b 2 6 == 0 && listNat b 0x18 8 == 0) = true ∧
    entry [(0, 7), (9, 8), (0x10, 9)] (fun b => listNat b 1 1 == 0 && listNat b 8 8 == 0x800) = true ∧
    gives ((chained []).engKey chain0.eng .store 0x800) tiers134 = true ∧
    entry [] (fun b => listNat b 0 1 == 0 && listNat b 1 31 == 0) = true := by decide +kernel

theorem witness_chain_copy :
    let m : Map Byte := [(0, 1), (4, 2), (9, 8), (0x11, 9)]
    entry m (fun b => listNat b 1 1 == 0 && listNat b 4 4 == 2 && listNat b 8 8 == 0x800 && listNat b 0x10 8 == 0x900) = true ∧
    (chained m).badLines = [] ∧ (chained m).args.b = 0 ∧ (chained m).cellsFault chain0.eng .load [0x800, 0x801] = none ∧
    (chained m).cellsFault chain0.eng .store [0x900, 0x901] = none := by decide +kernel

theorem witness_copy_lines :
    let cells := [(0x300800, 0x901), (0x300801, 0x900)]
    (copying .virt cells).copies.find? (fun q => q.id == 1 && q.chain == 7) = some (line0 .virt cells) ∧
    (copying .virt cells).badLines = [] ∧ cells.Pairwise (fun p q => p.2 ≠ q.2) ∧
    (∀ p ∈ cells, gives ((copying .virt cells).engKey chain0.eng .load p.1) (fun k => k == 0x3FFFFFFE00000 + p.1 && anyTier k) =
      true ∧ gives ((copying .virt cells).engKey chain0.eng .store p.2) (fun k => k == p.2 && anyTier k) = true ∧ p.2 < shareBase ∧
      (copying .phys cells).migrating p.2 = false ∧ (copying .phys cells).kernelFrame p.2 = false) ∧
    (copying (.share 1) cells).ctxOfUid 1 = some (lone []) := by decide +kernel

/-- Two tile records, of one row of two bytes, at 0x300800 and 0x300820, and the entry that copies one tile to the other. -/
def tileCopy : Map Byte :=
  [(0, 1), (1, 1), (9, 8), (10, 0x30), (0x10, 0x20), (0x11, 8), (0x12, 0x30), (0x801, 0xA), (0x808, 1), (0x80A, 2), (0x810, 2), (0x821, 0xB),
    (0x828, 1), (0x82A, 2), (0x830, 2)]

theorem witness_chain_tile_copy :
    entry tileCopy (fun b => listNat b 1 1 == 1 && listNat b 4 4 == 0 && listNat b 8 8 == 0x300800 && listNat b 0x10 8 == 0x300820) = true ∧
    gives ((chained tileCopy).tileRecord chain0.eng 0x300800) (fun r => gives ((chained tileCopy).tileRecord chain0.eng 0x300820) fun q =>
      r.desc.rows == q.desc.rows && r.desc.cols == q.desc.cols && r.desc.e == q.desc.e &&
        r.base == 0xA00 && q.base == 0xB00 && r.desc.extent == 2) = true ∧
    (chained tileCopy).cellsFault chain0.eng .load [0xA00, 0xA01] = none ∧
    (chained tileCopy).cellsFault chain0.eng .store [0xB00, 0xB01] = none := by decide +kernel

theorem witness_chain_mcast :
    let m : Map Byte := [(0, 2), (9, 8), (10, 0x30), (0x10, 3), (0x18, 0x40), (0x801, 0xA), (0x808, 1), (0x80A, 2), (0x810, 2)]
    entry m (fun b => listNat b 1 1 == 0 && listNat b 0x10 8 == 3 && listNat b 0x18 4 == 0x40) = true ∧
    entry [(0, 2)] (fun b => listNat b 0x10 8 == 0) = true ∧
    gives ((chained m).tileRecord chain0.eng 0x300800) (fun r => 0 % r.desc.e == 0 && decide (0 + r.desc.extent ≤ 0xDC000) &&
      gives ((chained m).elemBytes chain0.eng anyTier r r.desc.elems) fun _ => true) = true ∧
    (receivers 0 3).map (fun q => (chained m).logicalTile chain0.origin q.1) = [0, 0].map some ∧ 0x40 + 16 ≤ 0xDC000 ∧ chain0.failing = 0 := by
  decide +kernel

theorem witness_chain_deal :
    let m (kind n : Byte) : Map Byte :=
      [(0, 3), (1, kind), (4, 64), (9, 8), (0x18, 64), (0x1A, n), (0x1C, 64)]
    let gang : Launch := { plainLaunch with gang := true }
    let s : State := { chained (m 1 1) with launches := [(0, gang)], slots := [(0, { ctx := some (lone []) })] }
    entry (m 0 1) (fun b => listNat b 1 1 == 0 && listNat b 0x1A 1 == 1 && listNat b 0x18 2 == 64 && listNat b 0x1C 4 == 64) = true ∧
    entry (m 0 64) (fun b => listNat b 0x1A 1 == 64) = true ∧
    (chained (m 0 1)).cellsFault chain0.eng .load ((List.range 64).map (0x800 + ·)) = none ∧
    (chained (m 0 1)).logicalTile chain0.origin 0 = some 0 ∧ entry (m 1 1) (fun b => listNat b 1 1 == 1) = true ∧
    s.launchOf 0 1 = some gang ∧ gang.gang = true ∧ 1 ≤ gang.actors.length ∧ chain0.origin.kind = 0 ∧ s.gangMember chain0.origin 0 = some 1 := by
  decide +kernel

/-- The chain as a scan sequencer's. -/
def chain4 : Chain := { chain0 with engine := 4 }

/-- A SEL entry over one 1-byte value at 0x800, its parameters at 0x300900, its output at 0xA00. -/
def selValues : Map Byte :=
  [(0, 8), (2, 5), (4, 1), (9, 8), (0x10, 1), (0x19, 9), (0x1A, 0x30), (0x908, 0xFF), (0x909, 0xFF), (0x939, 0xA)]

/-- A SEL entry over one row of one f32 value at 0x800, its query at 0xB00. -/
def selRows : Map Byte :=
  [(0, 8), (1, 2), (4, 1), (9, 8), (0x10, 1), (0x19, 9), (0x1A, 0x30), (0x908, 0xFF), (0x909, 0xFF), (0x931, 0xB), (0x939, 0xA)]

theorem witness_chain_sel : (∀ m ∈ [selValues, selRows],
    let s := chained m chain4
    gives (s.chainEntry chain4) (fun b => listNat b 0x18 8 == 0x300900 && gives (s.engBytes chain4.eng blockPlace 0x300900 80) fun q =>
      let p := selOf b q
      p.ok b q && p.aligned && gives (s.outputOk chain4.eng p) (fun _ => true) && gives (s.engKey chain4.eng .load p.query) tiers134 &&
        p.pageNumbers == [2] && gives (s.engKey chain4.eng .load 0x800) tiers345) = true) := by decide +kernel

/-- A scan of that value, before its part has run or after. -/
def scan0 (owners : List Nat) (failed : Nat) : Scan :=
  { id := 7, chain := 7, origin := chain0.origin, entry := 0x300000, sel := selOf ((List.range 32).map fun i => selValues.get i 0)
      ((List.range 80).map fun i => selValues.get (0x900 + i) 0), owners := owners, pairs := [], count := 0, failed := failed, sorted := false,
    pages := [(2, (0x800, 0x800))], mapped := true }

theorem witness_scans :
    let s (sc : Scan) : State := { chained selValues chain4 with scans := [sc], args := { a := 7, b := 1096 } }
    let toPipe : Scan := { scan0 [] 0 with sel := { (scan0 [] 0).sel with outkind := 1, out := 0 } }
    (s (scan0 [1096] 0)).scans.find? (·.id == 7) = some (scan0 [1096] 0) ∧ (s (scan0 [1096] 0)).partHeld 1096 = false ∧
      gives ((s (scan0 [1096] 0)).scanQuery (scan0 [1096] 0)) (fun q => ((s (scan0 [1096] 0)).partValues (scan0 [1096] 0) 1096 q
        (scan0 [1096] 0).sel.items).length == 1) = true ∧ (s (scan0 [1096] 0)).scanMoving (scan0 [1096] 0) = false ∧
      1096 ∈ (scan0 [1096] 0).owners ∧ ({ scan0 [] 0 with mapped := false } : Scan).mapped = false ∧ (scan0 [] 0).sel.outkind = 0 ∧
      gives ((s (scan0 [] 0)).engStore (scan0 [] 0).eng tiers1to5 (bytesAt (scan0 [] 0).sel.out ((scan0 [] 0).order.pairs.flatMap pairBytes) ++
        (scan0 [] 0).order.countBytes)) (fun r => r.2 == 0) = true ∧ (scan0 [] 11).failed ≠ 0 ∧
      (({ s toPipe with launches := [(0, piped [])] } : State).scanPipe toPipe.order).2.pairs = [] := by decide +kernel

/-- R394: the last element of a row of three may be another channel's. -/
theorem test_row_tail :
    ((({ (scan0 [] 0).sel with fmt := 0, base := 0x9FC, rowlen := 3 } : Sel).granules 0).map (· / 256)).eraseDups = [9, 10] := by
  decide +kernel

/-- A line of a multicast at tile 0, quad 1. -/
def mcast0 : McastLine :=
  { id := 7, chain := 7, announced := none, ordered := false, tile := 0, launch := 0, gen := 1, logical := 0, quad := 1, offset := 0x40,
    mask := 3, data := 0x605, barrier := 0, origin := {} }

theorem witness_multicast_line :
    let s : State := { chained [] with mcasts := [mcast0] }
    s.mcasts.find? (·.id == s.args.a) = some mcast0 ∧ s.mcastReady mcast0 = true ∧
      s.kernelFrame (s.mcastHome mcast0) = false ∧ s.kernelFrame (s.mcastBarrier mcast0) = false ∧
      s.mcastBarrier mcast0 + 16 ≤ s.mcastHome mcast0 ∧
      ({ s with mcasts := [{ mcast0 with moved := some 0x4000 }] } : State).mcastHome { mcast0 with moved := some 0x4000 } = 0x4000 := by
  decide +kernel

/-- A line is staged only at a routing tile in no recast on its way (R127, R138). -/
theorem test_mcast_stage :
    let s (w : Word) : State := { State.reset with roles := [(2, w)], args := { pairs := [(0, 2)] } }
    onWay 0 34 2 = true ∧ onWay 0 34 32 = false ∧ onWay 33 514 2 = true ∧ onWay 33 514 1 = false ∧
      (s 2).stageAt 0 34 0 = some 2 ∧ (s 6).stageAt 0 34 0 = none ∧ (s 2).stageAt 0 34 1 = none ∧
      (s 2).stageAt 0 33 0 = none := by decide

/-- Of the last staged line the recast of its tile keeps the time (R92, R503). -/
theorem test_unstage :
    let s : State := { recasting { recast6 1 with ackAt := some 5 } 0x4 with time := 99 }
    let l : McastLine := { mcast0 with staged := some 6 }
    (s.unstage l).recasts.map (·.ackAt) = [some 99] ∧
      (({ s with mcasts := [l] } : State).unstage l).recasts.map (·.ackAt) = [some 5] ∧
      (s.unstage mcast0).recasts.map (·.ackAt) = [some 5] := by decide

theorem witness_cab_arrival :
    let m : BankCmd := { kind := 5, origin := chain0.origin, addr := 0, tag := 0, arg := 0, payload := [], rd := 0 }
    let s : State := { ready { a := 1 } with banks := [(1, { arrivals := [m] })] }
    let u := s.setBank 1 { s.bankAt 1 with arrivals := [] }
    (s.bankAt 1).arrivals = m :: [] ∧ ((u.engCross m.origin 3).cabRun 1 m).isSome = true ∧ m.kind ≠ 0 ∧ u.badLines = [] ∧
      u.configHeld 1 = false ∧
      (((u.engCross m.origin 3).cabRun 1 { m with kind := 0, addr := 1 }).all fun t => u.keepsServed t) = true ∧
      ((u.engCross m.origin 3).cabRun 1 { m with kind := 0, addr := 1 }).isSome = true := by decide +kernel

/-- A matrix command of the firing. -/
def mcmd (kind : Nat) : MCmd :=
  { kind := kind, origin := chain0.origin, core := 0, k := 1, a := 0x300000, b := 0, n := 64, tag := 0, apitch := 0, dpitch := 0, dpitch2 := 0,
    pfx := 0, qaddr := 0, panel := 0 }

theorem witness_matrix_events :
    let waiting : State := { ready { a := 0 } with cores := [(0, { mq := [mcmd 3] })] }
    let granted (k : Nat) : State := { chained [] with
      args := { a := 0 }, tiles := [(0, { (chained []).tileAt 0 with granted := [mcmd k] })] }
    waiting.turn 0 = some (0, 0, mcmd 3) ∧ ((waiting.coreAt 0).mq.drop 1) = [] ∧ (waiting.tileAt 0).mwait = [] ∧
      (({ waiting with cores := [(0, { mq := [mcmd 3, mcmd 4] })] } : State).turn 0 = some (0, 0, mcmd 3)) ∧ ((granted 3).tileAt 0).granted = mcmd 3 :: [] ∧
      (((granted 3).engCross (mcmd 3).origin 2).runMatrix (mcmd 3)).isSome = true ∧ pfxA (mcmd 1).pfx ≤ 1 ∧
      (mcmd 1).b.toNat + fmtBytes (pfxB (mcmd 1).pfx) 64 ≤ 0x10000 ∧
      (granted 1).sliceBarred (mcmd 1) 0 (fmtBytes (pfxB (mcmd 1).pfx) 64) = false := by decide +kernel

/-- The state of a granted `MMA` whose panel stands at 0x300000. -/
def panelState : State := { chained [] with tiles := [(0, { (chained []).tileAt 0 with granted := [mcmd 1] })] }

theorem panel_key (va : Nat) (h : 0x300000 ≤ va) (h' : va < 0x302000) :
    (panelState.engCross (mcmd 1).origin 2).engKey (mcmd 1).eng .load va = .ok (va + 0x3FFFFFFE00000) := by
  have hs : ∃ s, s = panelState.engCross (mcmd 1).origin 2 := ⟨_, rfl⟩
  obtain ⟨s, hs⟩ := hs
  have ht : (s.tileAt 0).tlb = [{ asn := 0, page := 0, leaf := codeLeaf },
      { asn := 0, page := 0x200000, leaf := quadLeaf }] := by
    subst hs; decide +kernel
  have hk : s.kreserved = [] := by subst hs; decide +kernel
  have hm : s.pageMoves = [] := by subst hs; decide +kernel
  have hc : s.roles = [] := by subst hs; decide +kernel
  have hq : va - va % 2097152 = 0x200000 := by omega
  rw [← hs]
  have e1 : pageBytes (bit codeLeaf 12) = 2097152 := by decide
  have e2 : pageBytes (bit (quadLeaf) 12) = 2097152 := by decide
  have e3 : s.usable { asn := 0, page := 0x200000, leaf := quadLeaf } .load va = true := by
    have f : decide (regionOf (leafFrame quadLeaf) < 6) = true := by decide +kernel
    have b : bit quadLeaf 1 = true ∧ bit quadLeaf 4 = true ∧ bit quadLeaf 11 = false := by decide
    unfold State.usable State.leafAllows State.kernelFrame
    rw [hk, f]
    simp [b]
  have e4 : leafAddr (quadLeaf) va = va + 0x3FFFFFFE00000 := by
    have : leafFrame (quadLeaf) = 0x4000000000000 := by decide +kernel
    unfold leafAddr; rw [this, e2]; omega
  have e5 : s.migrating (va + 0x3FFFFFFE00000) = false := by unfold State.migrating; rw [hm]; rfl
  unfold State.engKey
  have he : (mcmd 1).eng.tile = 0 := by decide
  have ha : (mcmd 1).eng.origin.asn = 0 := by decide
  have n1 : ¬ 2 ^ 56 ≤ va := by omega
  have n2 : ¬ 0xFFFFFFFFFFE000 ≤ va := by omega
  have n3 : ¬ 0xFFFFFFFFFFC000 ≤ va := by omega
  have r1 : regionOf (va + 0x3FFFFFFE00000) = 2 := by unfold regionOf; omega
  have r2 : (va + 0x3FFFFFFE00000) % 0x800000 = va - 0x200000 := by omega
  have t1 : tierOf (va + 0x3FFFFFFE00000) = some 1 := by
    unfold tierOf; rw [r1]; simp only [r2]; rw [if_neg (by omega), if_pos (by omega)]
  have t2 : tileOfPa (va + 0x3FFFFFFE00000) = 0 := by unfold tileOfPa; omega
  have p1 : populated (va + 0x3FFFFFFE00000) = true := by unfold populated; rw [r1]; simp; omega
  have c1 : s.compute 0 = true := by subst hs; decide +kernel
  have u1 : s.unbacked (va + 0x3FFFFFFE00000) = false := by unfold State.unbacked; rw [r1]; rfl
  have b1 : bit (quadLeaf) 0 = true := by decide
  have d1 : s.cutOff (va + 0x3FFFFFFE00000) = false := by unfold State.cutOff; rw [r1]; rfl
  simp only [he, ha, ht, List.find?, e1, e2, e3, hq, if_neg n1, if_neg n2, if_neg n3]
  simp [e4, e5, t1, t2, p1, c1, u1, r1, b1, d1]

/-- Bytes whose addresses lie in the panel can be read. -/
theorem panel_bytes (n va : Nat) (h : 0x300000 ≤ va) (h' : va + n ≤ 0x302000) :
    gives ((panelState.engCross (mcmd 1).origin 2).engBytes (mcmd 1).eng (fun k => keyTier k == some 1 && tileOfPa k == 0 &&
      quadStoreOf k == quadStoreOf (0x300000 + 0x3FFFFFFE00000)) va n) (fun _ => true) = true := by
  induction n generalizing va with
  | zero => rfl
  | succ n ih =>
    have hk := panel_key va h (by omega)
    have := ih (va + 1) (by omega) (by omega)
    unfold gives at this ⊢
    split at this
    · rename_i l hl
      have ok : (keyTier (va + 0x3FFFFFFE00000) == some 1 && tileOfPa (va + 0x3FFFFFFE00000) == 0 &&
          quadStoreOf (va + 0x3FFFFFFE00000) == quadStoreOf (0x300000 + 0x3FFFFFFE00000)) = true := by
        have t1 : keyTier (va + 0x3FFFFFFE00000) = some 1 := by
          have r1 : regionOf (va + 0x3FFFFFFE00000) = 2 := by unfold regionOf; omega
          have r2 : (va + 0x3FFFFFFE00000) % 0x800000 = va - 0x200000 := by omega
          unfold keyTier shareBase tierOf
          rw [if_neg (by omega), r1]; simp only [r2]; rw [if_neg (by omega), if_pos (by omega)]
        have t2 : tileOfPa (va + 0x3FFFFFFE00000) = 0 := by unfold tileOfPa; omega
        have t3 : quadStoreOf (va + 0x3FFFFFFE00000) = quadStoreOf (0x300000 + 0x3FFFFFFE00000) := by unfold quadStoreOf; omega
        rw [t1, t2, t3]; decide
      simp [State.engBytes, hk, ok, hl, bind, Except.bind]
    · simp at this

/-- A list of computations that all answer answers. -/
theorem gives_mapM {ε α β : Type} (f : α → Except ε β) (l : List α) (h : ∀ a ∈ l, gives (f a) (fun _ => true) = true) :
    gives (l.mapM f) (fun _ => true) = true := by
  induction l with
  | nil => rfl
  | cons a l ih =>
    have ha := h a (by simp)
    have hl := ih fun b hb => h b (by simp [hb])
    unfold gives at ha hl ⊢
    split at ha
    · rename_i b hb
      split at hl
      · rename_i bs hbs
        simp [List.mapM_cons, hb, hbs, bind, Except.bind, pure, Except.pure]
      · simp at hl
    · simp at ha

theorem ok_bind {ε α β : Type} (a : α) (f : α → Except ε β) : (Except.ok a >>= f) = f a := rfl

theorem witness_matrix_panel :
    gives ((panelState.engCross (mcmd 1).origin 2).aRows (mcmd 1)) (fun _ => true) = true := by
  have h := gives_mapM (fun i => (panelState.engCross (mcmd 1).origin 2).engBytes (mcmd 1).eng (fun k => keyTier k == some 1 &&
      tileOfPa k == 0 && quadStoreOf k == quadStoreOf (0x300000 + 0x3FFFFFFE00000)) (0x300000 + i * (64 * 2)) (64 * 2)) (List.range 64) fun i hi =>
    panel_bytes (64 * 2) (0x300000 + i * (64 * 2)) (by omega) (by have := List.mem_range.mp hi; omega)
  have key := panel_key 0x300000 (by omega) (by omega)
  have ha : (mcmd 1).a.toNat = 0x300000 := by decide
  have hn : fmtBytes (pfxA (mcmd 1).pfx) (mcmd 1).n = 64 * 2 := by decide
  have hk : (mcmd 1).kind ≠ 2 ∧ (mcmd 1).apitch = 0 ∧ (mcmd 1).eng.tile = 0 := by decide
  generalize hs : panelState.engCross (mcmd 1).origin 2 = s at h key ⊢
  generalize hm : mcmd 1 = m at h key ha hn hk ⊢
  unfold State.aRows
  simp only [ha, hn, hk.1, hk.2.1, hk.2.2, if_true, if_false]
  rewrite [key, ok_bind]
  exact h

theorem witness_subtile_release :
    let s : State := { ready { a := 0, b := 3 } with subs := [(3, { owner := some 9 })] }
    (s.subAt 0 3).owner = some 9 ∧ s.args.b < 4 ∧ s.matrixBusy 9 = false ∧ s.ctxOfUid 9 = none ∧
      (let t : State := { s with cores := [(0, { mq := [{ mcmd 3 with k := 3 }] })] }
       t.matrixBusy 9 = false ∧ (t.released 0 3).owner = some chain0.origin.uid) := by decide

/-- A package with operands, at a time. -/
def later (t : Nat) (a : EventArgs := {}) : State := { ready a with time := t }

theorem test_peak_cap : ([8999, 9000].map fun b => (next? (exec .peakCapReached
    { later 0 { a := 2, b := b } with power := { peakCap := [2200, 2000, 900] } })).map (·.power.throttled)) =
    [some [], some [2]] := by decide +kernel

theorem test_freeze_start : ((next? (exec .freezeStart (later 7 { data := [3] }))).map fun t => (t.host.frzState, t.host.frzIssuer)) =
    some (1, 1) := by decide +kernel

theorem witness_budget : (later 1000).power.divided < (later 1000).time / 1000 ∧ (later 1000).time % 1000 = 0 ∧
    ({ later 200 with power := { next := some (200, []) } } : State).power.next = some (200, []) := by
  decide

theorem witness_voltage :
    let q : Quad := { target := 3 }
    ({ later 20000 { a := 2047 } with quads := [(2047, q)] } : State).quadAt 2047 = q ∧ 20000 % 100 = 0 ∧
      q.mv ≠ pointMv q.target ∧
      q.stepAt + 20000 ≤ 20000 ∧ q.stepped < 20000 / 100 := by decide

theorem witness_boost_expiry :
    let b : Boost := { expiry := 5, left := 5, suspended := false, charge := 33 }
    let s : State := { fire { lone [] with boost := some b } with time := 5, args := { a := 0 } }
    ((s.slotAt 0).ctx.bind (·.boost)) = some b ∧ b.suspended = false ∧ b.expiry ≤ s.time := by decide

/-- A freeze that the rack scheduler node has begun at tick 5. -/
def freezing (t : Nat) : State :=
  let f : Freeze := { issued := 5, plan := 0x4000, retained := [], leases := [], lost := 0, failed := false, from_ := 0 }
  { later t with host := { stage := 5, ready := true, frzState := 1, frzIssuer := 2 }, freeze := some f }

theorem witness_freeze : 7 ∈ ({ (later 5).host with etherPorts := [7] } : HostSide).etherPorts ∧ (freezing 9).badLines = [] ∧ (later 5).host.ready = true ∧
    (later 5).recasts = [] ∧ (later 5).host.frzState = 0 ∧ (freezing 5).host.frzState = 1 ∧
    (freezing 5).host.frzIssuer = 2 ∧ (freezing 5).freeze.map (·.issued) = some (freezing 5).time ∧ (0 : Nat) / 2 ^ 31 % 2 = 0 ∧
    (freezing 9).openIntervals = [] ∧ (freezing 9).still = true ∧
    ((freezing 100005).freeze.any fun f => decide (f.issued + 100000 ≤ (freezing 100005).time)) = true := by decide +kernel

/-- R481: with code 3 the launches stay on the package. -/
theorem test_failed_freeze :
    let s : State := { freezing 9 with
      freeze := (freezing 9).freeze.map fun f => { f with failed := true }, launches := [(0, plainLaunch)] }
    ((next? (exec .freezeComplete s)).map fun t => (t.launches.length, t.byteAt (hostPa 0x4000))) = some (1, 3) ∧
    ((next? (exec .freezeComplete { s with freeze := (freezing 9).freeze })).map fun t => t.launches.length) = some 0 := by
  decide +kernel

/-- The package frozen, with its image. -/
def frozen : State := ((next? (exec .freezeComplete (freezing 9))).getD (freezing 9))

theorem witness_resume :
    let s : State := { frozen with args := { flag := true }, host := { frozen.host with frzPlan := 0x4000 } }
    frozen.host.frzState = 2 ∧ s.resumeCode s.host.frzPlan s.args.flag s.args.flag2 = 0 ∧
      s.resumeCode 0x4000 false false ≠ 0 ∧ frozen.resumeCode frozen.host.frzPlan true false ≠ 0 := by decide +kernel

theorem witness_resume_complete :
    let s : State := (next? (exec .freezeResume { frozen with args := { flag := true }, host := { frozen.host with frzPlan := 0x4000 } })).getD frozen
    s.host.frzState = 3 ∧ (s.freeze.any fun f => (s.images.get? f.plan).any fun kept =>
        let i := s.resumeImage f.plan kept
        (placeTiles s.presentTiles i.used i.used).isSome) = true ∧
      ∀ q < 16, (s.host.queue q).latched = none ∧ (s.host.queue q).head = (s.host.queue q).tail := by decide +kernel

theorem witness_resume_after_power_off : (later 0).host.frzState = 0 ∧ (later 0).host.ready = true ∧ (later 0).launches = [] := by decide

end Sys2Proof.Tests
end

section
set_option Elab.async false
/-! # The memory stays in canonical form (O51, O52)

A step is a chain of the model's operations.  For each operation `f` there is one lemma that it keeps the canonical form:
`State.memoryWf.f` where it maps states, `Cx.memoryWf.f` where it acts on the instruction in hand, `execX_wf` for the effect of an
instruction or event.  The lemma of an operation that calls others is assembled from theirs. -/

namespace Sys2Proof.Machine

/-- A stop that carries a state (`.stay`) carries one in canonical form. -/
def Stop.memoryWf : Stop → Prop
  | .stay s => s.memoryWf
  | _ => True

/-- The state of an instruction in hand is in canonical form. -/
def Cx.memoryWf (x : Cx) : Prop := x.s.memoryWf

/-- A computation that may stop: `P` holds of what it answers, `E` of what it stops with. -/
def Answers {ε α : Type} (E : ε → Prop) (P : α → Prop) : Except ε α → Prop
  | .ok a => P a
  | .error e => E e

/-- The state, if any, is in canonical form. -/
def maybeWf : Option State → Prop
  | some s => s.memoryWf
  | none => True

/-- The next state, if the outcome is one, is in canonical form. -/
def outcomeWf (o : Host.Outcome State Fault Refusal) : Prop := ∀ s, o = .next s → s.memoryWf

section Rules

variable {ε α β : Type} {E : ε → Prop} {P : α → Prop} {Q : β → Prop}

theorem Answers.ok {a : α} (ha : P a) : Answers E P (.ok a) := ha

theorem Answers.bind {m : Except ε α} {f : α → Except ε β} (hm : Answers E P m) (hf : ∀ a, P a → Answers E Q (f a)) :
    Answers E Q (m >>= f) := by
  cases m with
  | ok a => exact hf a hm
  | error e => exact hm

theorem Answers.map {m : Except ε α} {f : α → β} (hm : Answers E P m) (hf : ∀ a, P a → Q (f a)) :
    Answers E Q (m.map f) := by
  cases m with
  | ok a => exact hf a hm
  | error e => exact hm

theorem Answers.ite {m n : Except ε α} {c : Prop} {_ : Decidable c} (hm : Answers E P m) (hn : Answers E P n) :
    Answers E P (if c then m else n) := by
  split
  · exact hm
  · exact hn

theorem Answers.of_eq {m : Except ε α} {a : α} (hm : Answers E P m) (ha : m = .ok a) : P a := by
  subst ha
  exact hm

theorem Answers.of_error {m : Except ε α} {e : ε} (hm : Answers E P m) (he : m = .error e) : E e := by
  subst he
  exact hm

theorem Answers.any {m : Except ε α} : Answers (fun _ => True) (fun _ => True) m := by
  cases m <;> trivial

theorem maybeWf.ite {a b : Option State} {c : Prop} {_ : Decidable c} (ha : maybeWf a) (hb : maybeWf b) :
    maybeWf (if c then a else b) := by
  split
  · exact ha
  · exact hb

theorem maybeWf.map {a : Option State} (ha : maybeWf a) {f : State → State} (hf : ∀ s, s.memoryWf → (f s).memoryWf) :
    maybeWf (a.map f) := by
  cases a with
  | some s => exact hf s ha
  | none => trivial

theorem maybeWf.of_map {o : Option α} {f : α → State} (hf : ∀ a, (f a).memoryWf) : maybeWf (o.map f) := by
  cases o with
  | some a => exact hf a
  | none => trivial

theorem maybeWf.bind {o : Option α} {f : α → Option State} (hf : ∀ a, maybeWf (f a)) : maybeWf (o.bind f) := by
  cases o with
  | some a => exact hf a
  | none => trivial

theorem maybeWf.andThen {a : Option State} {f : State → Option State} (ha : maybeWf a)
    (hf : ∀ s, s.memoryWf → maybeWf (f s)) : maybeWf (a.bind f) := by
  cases a with
  | some s => exact hf s ha
  | none => trivial

theorem maybeWf.foldlM {f : State → β → Option State} (hf : ∀ s b, s.memoryWf → maybeWf (f s b)) {l : List β}
    {s : State} (hs : s.memoryWf) : maybeWf (l.foldlM f s) := by
  induction l generalizing s with
  | nil => exact hs
  | cons b l ih => exact (hf s b hs).andThen fun _ h => ih h

theorem maybeWf.of_eq {a : Option State} {s : State} (ha : maybeWf a) (hs : a = some s) : s.memoryWf := by
  subst hs
  exact ha

theorem maybeWf.getD {a : Option State} {s : State} (ha : maybeWf a) (hs : s.memoryWf) : (a.getD s).memoryWf := by
  cases a with
  | some t => exact ha
  | none => exact hs

end Rules

/-! ## The state -/

variable {s t : State} {x : Cx}

theorem outcomeWf.refused {r : Refusal} : outcomeWf (.refused r) := by
  rintro t ⟨⟩

theorem State.memoryWf.next (h : s.memoryWf) : outcomeWf (.next s) := by
  rintro t ⟨⟩
  exact h

/-- What touches neither the memory nor the images keeps the canonical form. -/
theorem State.memoryWf.update (h : s.memoryWf) (hm : t.mem = s.mem := by rfl) (hi : t.images = s.images := by rfl) :
    t.memoryWf := by
  unfold State.memoryWf
  rw [hm, hi]
  exact h

theorem Cx.memoryWf.update {y : Cx} (h : x.memoryWf) (hm : y.s.mem = x.s.mem := by rfl)
    (hi : y.s.images = x.s.images := by rfl) : y.memoryWf := State.memoryWf.update h hm hi

theorem State.memoryWf.foldl {β : Type} {f : State → β → State} (h : s.memoryWf)
    (hf : ∀ s b, s.memoryWf → (f s b).memoryWf) {l : List β} : (l.foldl f s).memoryWf := foldl_keeps hf l s h

theorem State.memoryWf.ite {c : Prop} {_ : Decidable c} (hs : s.memoryWf) (ht : t.memoryWf) :
    (if c then s else t).memoryWf := by
  split
  · exact hs
  · exact ht

theorem Cx.memoryWf.foldl {β : Type} {f : Cx → β → Cx} (h : x.memoryWf)
    (hf : ∀ x b, x.memoryWf → (f x b).memoryWf) {l : List β} : (l.foldl f x).memoryWf := foldl_keeps hf l x h

theorem State.memoryWf.setSlot (h : s.memoryWf) {k v} : (s.setSlot k v).memoryWf := h.update
theorem State.memoryWf.setCore (h : s.memoryWf) {k v} : (s.setCore k v).memoryWf := h.update
theorem State.memoryWf.setTile (h : s.memoryWf) {k v} : (s.setTile k v).memoryWf := h.update
theorem State.memoryWf.setSub (h : s.memoryWf) {k j v} : (s.setSub k j v).memoryWf := h.update
theorem State.memoryWf.setQuad (h : s.memoryWf) {k v} : (s.setQuad k v).memoryWf := h.update
theorem State.memoryWf.setBank (h : s.memoryWf) {k v} : (s.setBank k v).memoryWf := h.update
theorem State.memoryWf.setSys (h : s.memoryWf) {k v} : (s.setSys k v).memoryWf := h.update
theorem State.memoryWf.setRole (h : s.memoryWf) {k v} : (s.setRole k v).memoryWf := h.update
theorem State.memoryWf.setLock (h : s.memoryWf) {k v} : (s.setLock k v).memoryWf := h.update
theorem State.memoryWf.setLaunch (h : s.memoryWf) {k v} : (s.setLaunch k v).memoryWf := h.update

theorem State.memoryWf.putCtx (h : s.memoryWf) {who c} : (s.putCtx who c).memoryWf := by
  cases who with
  | slot k => exact h.setSlot
  | sys n => exact h.setSys

theorem Cx.memoryWf.put (h : x.memoryWf) : x.put.memoryWf := State.memoryWf.putCtx h

/-! ## Memory and access paths -/

theorem State.memoryWf.unsee (h : s.memoryWf) {path uid key old num by_} :
    (s.unsee path uid key old num by_).memoryWf := h.update

theorem State.memoryWf.writeByte (h : s.memoryWf) {path uid pa b num by_} :
    (s.writeByte path uid pa b num by_).memoryWf := ⟨Map.wf_set _ _ _ _ h.1, h.2⟩

theorem State.memoryWf.writeMem (h : s.memoryWf) {path uid pa n v} : (s.writeMem path uid pa n v).memoryWf := by
  induction n generalizing s pa v with
  | zero => exact h
  | succ n ih => exact ih h.writeByte

theorem State.memoryWf.writeLine (h : s.memoryWf) {path uid num l by_} :
    (s.writeLine path uid num l by_).memoryWf :=
  h.foldl fun _ _ h => h.writeByte.ite h

theorem State.memoryWf.mendRange (h : s.memoryWf) {pa n} : (s.mendRange pa n).memoryWf := by
  unfold State.mendRange
  exact h.ite h.update

theorem State.memoryWf.mended (h : s.memoryWf) {l} : (s.mended l).memoryWf := by
  unfold State.mended
  exact h.update.ite h

theorem State.memoryWf.cross (h : s.memoryWf) {p q sel} : (s.cross p q sel).memoryWf := h.update

theorem State.memoryWf.grantJournal (h : s.memoryWf) {core} : (s.grantJournal core).memoryWf := by
  unfold State.grantJournal
  split
  · exact h
  · split
    · exact h
    · exact h.update

/-! ## Commit, drain and abort -/

theorem Cx.memoryWf.next (h : x.memoryWf) {len} : (x.next len).memoryWf := h

theorem Cx.memoryWf.begin (h : x.memoryWf) : x.begin.memoryWf := h

theorem Cx.memoryWf.putShare (h : x.memoryWf) {off b num} : (x.putShare off b num).memoryWf := State.memoryWf.unsee h

theorem Cx.memoryWf.drain (h : x.memoryWf) {loads l} : (x.drain loads l).memoryWf := by
  unfold Cx.drain
  split
  · refine State.memoryWf.mended (s := Cx.s _) (Cx.memoryWf.foldl h fun y i hy => ?_)
    split
    · exact hy.putShare
    · exact hy
  · dsimp only [Cx.memoryWf]
    split
    · exact (State.memoryWf.update h).grantJournal
    · exact State.memoryWf.update h

theorem Cx.memoryWf.commit (h : x.memoryWf) : x.commit.memoryWf :=
  (h.foldl fun _ _ h => h.drain).begin

theorem State.memoryWf.holdEvent (h : s.memoryWf) {e} : (s.holdEvent e).memoryWf := by
  unfold State.holdEvent
  split
  · split
    · exact h.putCtx
    · exact h
  · exact h

theorem Cx.memoryWf.abort (h : x.memoryWf) : x.abort.memoryWf := by
  exact State.memoryWf.foldl (State.memoryWf.ite h (State.memoryWf.setCore h)) fun _ _ h => h.holdEvent

/-! ## Intervals and race checks -/

theorem Cx.memoryWf.closeInterval (h : x.memoryWf) : x.closeInterval.memoryWf := by
  unfold Cx.closeInterval
  split
  · exact h
  · exact State.memoryWf.setSlot h

theorem Cx.memoryWf.closeStopped (h : x.memoryWf) : x.closeStopped.memoryWf := by
  unfold Cx.closeStopped
  split
  · exact h.abort.closeInterval
  · exact h.closeInterval

theorem Cx.memoryWf.forceClose (h : x.memoryWf) : x.forceClose.memoryWf := h.commit.closeInterval

theorem Cx.memoryWf.record (h : x.memoryWf) {ls} : Answers Stop.memoryWf Cx.memoryWf (x.record ls) := by
  induction ls generalizing x with
  | nil => exact h
  | cons l ls ih =>
    unfold Cx.record
    split
    · trivial
    · split
      · trivial
      · exact ih (State.memoryWf.update h)

theorem Cx.memoryWf.checkLines (h : x.memoryWf) {lines claim} :
    Answers Stop.memoryWf Cx.memoryWf (x.checkLines lines claim) := by
  unfold Cx.checkLines
  dsimp only
  split
  · split
    · exact h.forceClose.put
    · trivial
  · split
    · split
      · exact h
      · exact h.record
    · exact State.memoryWf.putCtx h

/-! ## Translation -/

theorem Cx.nonPresent_stops {u policy va n} : Answers Stop.memoryWf (fun _ => True) (x.nonPresent u policy va n) := by
  unfold Cx.nonPresent
  repeat' split
  all_goals trivial

theorem Cx.atHome_stops {u pa leaf va} : Answers Stop.memoryWf (fun _ => True) (x.atHome u pa leaf va) := by
  unfold Cx.atHome
  dsimp only
  repeat' split
  all_goals trivial

theorem Cx.physical_stops {n u va} : Answers Stop.memoryWf (fun _ => True) (x.physical n u va) := by
  unfold Cx.physical
  dsimp only
  repeat' split
  all_goals trivial

/-- What a translation serves: the place that the leaf gives, or a stop that changes nothing. -/
theorem Cx.memoryWf.translate (h : x.memoryWf) {u plain va n} :
    Answers Stop.memoryWf (·.2.memoryWf) (x.translate u plain va n) := by
  have serve : ∀ (y : Cx) (leaf : Word), y.memoryWf → Answers Stop.memoryWf (·.2.memoryWf)
      (if !bit leaf 0 then (y.nonPresent u (field leaf 9 2) va n).map (·, y)
        else if y.s.migrating (leafAddr leaf va) ∨ y.s.cutOff (leafAddr leaf va) then .error .stall
        else (y.atHome u (leafAddr leaf va) leaf va).map (·, y)) := by
    intro y leaf hy
    split
    · exact Cx.nonPresent_stops.map fun _ _ => hy
    · split
      · trivial
      · exact Cx.atHome_stops.map fun _ _ => hy
  unfold Cx.translate
  dsimp only
  split
  · trivial
  · split
    · repeat' split
      · trivial
      · trivial
      · exact h
    · split
      · split
        · exact h
        · trivial
      · split
        · exact serve _ _ h
        · split
          · exact serve _ _ (State.memoryWf.setCore h)
          · split
            all_goals trivial

theorem Cx.memoryWf.reach (h : x.memoryWf) {u plain va n} :
    Answers Stop.memoryWf (·.2.memoryWf) (x.reach u plain va n) := by
  unfold Cx.reach
  split
  · trivial
  · split
    · split
      · trivial
      · exact h.translate
    · exact Cx.physical_stops.map fun _ _ => h

theorem Cx.memoryWf.loadAt (h : x.memoryWf) {p va n} : Answers Stop.memoryWf (·.2.memoryWf) (x.loadAt p va n) := by
  unfold Cx.loadAt
  split
  · split
    · trivial
    · exact h
  · exact h
  · exact h
  · exact h
  · split
    · trivial
    · split
      · exact h.checkLines.bind fun _ hx => hx
      · exact h

theorem Cx.memoryWf.buffer (h : x.memoryWf) {key va n v} : (x.buffer key va n v).memoryWf := h

theorem Cx.memoryWf.ite {y : Cx} {c : Prop} {_ : Decidable c} (hx : x.memoryWf) (hy : y.memoryWf) :
    (if c then x else y).memoryWf := by
  split
  · exact hx
  · exact hy

theorem Cx.memoryWf.makeRoom (h : x.memoryWf) {keys} : (x.makeRoom keys).memoryWf := by
  unfold Cx.makeRoom
  exact h.commit.ite h

theorem Cx.memoryWf.store (h : x.memoryWf) {va n v} : Answers Stop.memoryWf Cx.memoryWf (x.store va n v) := by
  refine h.reach.bind fun ⟨p, x⟩ h => ?_
  dsimp only
  split
  · exact State.memoryWf.writeMem h
  · split
    · exact h.checkLines.bind fun _ h => h.makeRoom.buffer
    · exact h.makeRoom.buffer

theorem Cx.memoryWf.popRoom (h : x.memoryWf) {qs} : (x.popRoom qs).memoryWf := by
  unfold Cx.popRoom
  exact h.commit.ite h

theorem Cx.memoryWf.popS (h : x.memoryWf) {q} : Answers Stop.memoryWf (·.2.memoryWf) (x.popS q) := by
  unfold Cx.popS
  dsimp only
  split
  · exact h.popRoom
  · trivial

theorem Cx.memoryWf.pushS (h : x.memoryWf) {q e} : Answers Stop.memoryWf Cx.memoryWf (x.pushS q e) := by
  unfold Cx.pushS
  dsimp only
  split
  · trivial
  · exact h

theorem Cx.memoryWf.popV (h : x.memoryWf) {q} : Answers Stop.memoryWf (·.2.memoryWf) (x.popV q) := by
  unfold Cx.popV
  dsimp only
  split
  · exact h.popRoom
  · trivial

theorem Cx.memoryWf.pushV (h : x.memoryWf) {q e} : Answers Stop.memoryWf Cx.memoryWf (x.pushV q e) := by
  unfold Cx.pushV
  dsimp only
  split
  · trivial
  · exact h

/-! ## Traps and events -/

theorem State.memoryWf.takeTrap (h : s.memoryWf) {who c tr} : (s.takeTrap who c tr).memoryWf := h.putCtx.update

theorem Cx.memoryWf.raise (h : x.memoryWf) {tr} : (x.raise tr).memoryWf :=
  State.memoryWf.takeTrap (h.closeInterval.ite h)

theorem State.memoryWf.orphan (h : s.memoryWf) {cls access slot inc addr detail launch async subcode} :
    (s.orphan cls access slot inc addr detail launch async subcode).memoryWf := h.update

theorem State.memoryWf.orphanTrap (h : s.memoryWf) {tr slot inc launch gen} :
    (s.orphanTrap tr slot inc launch gen).memoryWf := h.orphan

theorem State.memoryWf.async (h : s.memoryWf) {o tr} : (s.async o tr).memoryWf := by
  unfold State.async
  split
  · split
    · split
      · exact h.takeTrap
      · exact h.orphanTrap
      · exact h.takeTrap.ite h.putCtx
      · exact h.putCtx
    · exact h
  · exact h.update.ite h.orphanTrap

theorem State.memoryWf.evFill (h : s.memoryWf) {core} : (s.evFill core).memoryWf :=
  h.foldl fun s i h => by
    dsimp only
    split
    · exact h.ite h.setCore.putCtx
    · exact h

theorem State.memoryWf.postEvent (h : s.memoryWf) {o tag status engine addr} :
    (s.postEvent o tag status engine addr).memoryWf := by
  unfold State.postEvent
  dsimp only
  split
  · split
    · split
      · exact h
      · exact h.putCtx.evFill
    · exact h
  · exact h.update

theorem State.memoryWf.realignTest (h : s.memoryWf) {tile} : (s.realignTest tile).memoryWf :=
  h.foldl fun s i h => by
    split
    · refine State.memoryWf.ite (h.foldl fun s j h => ?_) h
      split
      · exact h.putCtx
      · exact h
    · exact h

theorem State.memoryWf.reserve (h : s.memoryWf) {district charge} : (s.reserve district charge).memoryWf := h.update
theorem State.memoryWf.unreserve (h : s.memoryWf) {district charge} : (s.unreserve district charge).memoryWf := h.update

theorem State.memoryWf.suspend (h : s.memoryWf) {core c} : (s.suspend core c).1.memoryWf := by
  unfold State.suspend
  split
  · split
    · exact h
    · exact h.unreserve
  · exact h

theorem State.memoryWf.unsuspend (h : s.memoryWf) {core c} : (s.unsuspend core c).1.memoryWf := by
  unfold State.unsuspend
  split
  · split
    · exact h.reserve
    · exact h
  · exact h

theorem State.memoryWf.suspendAll (h : s.memoryWf) : s.suspendAll.memoryWf :=
  h.foldl fun s e h => by
    split
    · exact h.suspend.putCtx
    · exact h

theorem State.memoryWf.stopping (h : t.memoryWf) : (s.stopping t).memoryWf := by
  unfold State.stopping
  exact h.ite h.suspendAll.update

/-! ## Leaving and entering a slot -/

theorem State.memoryWf.leave (h : s.memoryWf) {k c} : (s.leave k c).1.memoryWf := by
  unfold State.leave
  dsimp only
  exact .realignTest (.evFill (.setSlot (.setCore (h.foldl fun _ _ h => h.setSub))))

theorem State.memoryWf.redirect (h : s.memoryWf) {uid k inc} : (s.redirect uid k inc).memoryWf := h.update

theorem State.memoryWf.enterStopped (h : s.memoryWf) {k} : (s.enterStopped k).memoryWf := by
  unfold State.enterStopped
  split
  · exact h
  · split
    · exact h.update
    · exact h.takeTrap
    · exact h

theorem State.memoryWf.enter (h : s.memoryWf) {k c} : (s.enter k c).memoryWf := by
  unfold State.enter
  dsimp only
  refine State.memoryWf.enterStopped (.evFill (.redirect ?_))
  have subs := h.foldl (f := fun s e => s.setSub (coreOf k) e.1 { owner := some c.uid, elems := e.2 })
    (fun _ _ h => h.setSub) (l := c.accs)
  split
  all_goals exact subs.update

/-! ## Launches -/

theorem State.memoryWf.forgetWalks (h : s.memoryWf) {unit} : (s.forgetWalks unit).memoryWf := h.update

theorem State.memoryWf.enqueue (h : s.memoryWf) {asn header by_ parent queue} :
    Answers (fun _ => True) (·.2.2.memoryWf) (s.enqueue asn header by_ parent queue) := by
  unfold State.enqueue
  extract_lets attempt
  have ha : Answers (fun _ => True) (·.2.2.memoryWf) attempt := by
    refine Answers.any.bind fun b _ => Answers.ite trivial ?_
    extract_lets comp na np gang tiles notice rest
    have hrest : ∀ reach, Answers (fun _ => True) (·.2.2.memoryWf) (rest reach) := fun reach => by
      refine Answers.ite trivial (Answers.any.bind fun tab _ => Answers.any.bind fun prods _ => ?_)
      refine .ite trivial (.ite h (.ite h (.ite h (.ite h (.ite h ?_)))))
      split
      · exact h
      · exact State.memoryWf.update h
    clear_value comp rest
    exact .ite (Answers.any.bind fun reach _ => hrest reach) (Answers.any.bind fun reach _ => hrest reach)
  match attempt, ha with
  | .error .bad, _ => exact h.forgetWalks
  | .ok (_, _, _), ht => exact State.memoryWf.forgetWalks ht
  | .error (.miss ..), _ => trivial
  | .error (.park ..), _ => trivial

theorem State.memoryWf.feed (h : s.memoryWf) {i} : (s.feed i).memoryWf := by
  unfold State.feed
  split
  · exact h
  · exact h.ite h.update

theorem State.memoryWf.bindTiles (h : s.memoryWf) {i k n} : (s.bindTiles i k n).memoryWf := by
  induction n generalizing s k with
  | zero => exact h
  | succ n ih =>
    unfold State.bindTiles
    split
    · exact ih h.update
    · exact h

theorem State.memoryWf.bindHandlers (h : s.memoryWf) {i l} : (s.bindHandlers i l).memoryWf :=
  h.foldl fun _ _ h => h.foldl fun _ _ h => h.setCore

theorem State.memoryWf.admitLaunch (h : s.memoryWf) {i} : (s.admitLaunch i).memoryWf := by
  unfold State.admitLaunch
  split
  · exact h
  · dsimp only
    split
    · exact h.update.bindTiles
    · exact h.update.bindTiles.bindHandlers.feed

/-! ## Operands -/

theorem Cx.memoryWf.readS (h : x.memoryWf) {flag r} : Answers Stop.memoryWf (·.2.memoryWf) (x.readS flag r) := by
  unfold Cx.readS
  split
  · exact h.popS
  · exact h

theorem Cx.memoryWf.readSS (h : x.memoryWf) {fa a fb b} :
    Answers Stop.memoryWf (·.2.2.memoryWf) (x.readSS fa a fb b) := by
  refine h.popRoom.readS.bind fun ⟨va, x⟩ h => ?_
  dsimp only
  split
  · exact h
  · exact Cx.memoryWf.readS h |>.bind fun _ h => h

theorem Cx.memoryWf.writeS (h : x.memoryWf) {flag r v} : Answers Stop.memoryWf Cx.memoryWf (x.writeS flag r v) := by
  unfold Cx.writeS
  split
  · exact h.pushS
  · exact h

/-! ## Synchronization -/

theorem State.memoryWf.announce (h : s.memoryWf) {a} : (s.announce a).memoryWf := h.update

theorem State.memoryWf.inject (h : s.memoryWf) {tile p} : (s.inject tile p).memoryWf := h.setTile

theorem State.memoryWf.injectFence (h : s.memoryWf) {tile} : (s.injectFence tile).memoryWf :=
  State.memoryWf.ite h h.setTile

theorem State.memoryWf.bankWrite (h : s.memoryWf) {pa n v} : (s.bankWrite pa n v).memoryWf :=
  ⟨State.bankWrite_wf s pa n v h.1, h.2⟩

theorem State.memoryWf.recordReady (h : s.memoryWf) {k scope} : (s.recordReady k scope).memoryWf := h.update

theorem State.memoryWf.joinAt (h : s.memoryWf) {home scope} : (s.joinAt home scope).memoryWf := by
  unfold State.joinAt
  dsimp only
  split
  · exact h.bankWrite.recordReady.ite h.bankWrite
  · exact h.bankWrite

theorem State.memoryWf.atomicAt (h : s.memoryWf) {uid home n op b c} :
    (s.atomicAt uid home n op b c).1.memoryWf := h.writeMem.ite h

theorem Cx.memoryWf.putWord (h : x.memoryWf) {home n v} : (x.putWord home n v).memoryWf := by
  unfold Cx.putWord
  exact (h.foldl fun _ _ h => h.putShare).ite (State.memoryWf.writeMem h)

theorem State.memoryWf.struck (h : s.memoryWf) {k c line va} : (s.struck k c line va).memoryWf := h.async

theorem State.memoryWf.complete (h : s.memoryWf) {k c p} : maybeWf (s.complete k c p) := by
  unfold State.complete
  split
  · exact (Cx.memoryWf.putWord (x := { s := s, who := .slot k, c := c }) h).put
  · exact h.putCtx.ite h.putCtx.cross
  · split
    · trivial
    · split
      · exact h.putCtx.struck
      · exact h.atomicAt.putCtx
  · split
    · exact h.putCtx.struck
    · exact h.putCtx
  · exact h.putCtx
  · exact h.putCtx
  · exact h.putCtx.joinAt
  · split
    · exact h.putCtx.inject
    · trivial
  · dsimp only
    split
    · split
      · exact h.putCtx.setLaunch
      · exact h.putCtx
    · exact h.putCtx
  · split
    · exact h.putCtx
    · split
      · trivial
      · dsimp only
        split
        · trivial
        · next hq =>
          have ht := hq ▸ h.enqueue
          exact State.memoryWf.putCtx ht
  · dsimp only
    split
    · exact h.putCtx.recordReady
    · exact h.putCtx
  · exact h.putCtx.update

theorem State.memoryWf.settleEntry (h : s.memoryWf) {k c i p} : maybeWf (s.settleEntry k c i p) := by
  unfold State.settleEntry
  dsimp only
  split
  · trivial
  · split
    · exact h.complete
    · split
      · trivial
      · split
        · exact h.complete
        · exact h.announce.putCtx

theorem State.memoryWf.settleOne (h : s.memoryWf) {k} : maybeWf (s.settleOne k) := by
  unfold State.settleOne
  split
  · trivial
  · next c hc =>
    extract_lets last
    have hlast : maybeWf last := by
      unfold last
      split
      · split
        · exact h.settleEntry
        · trivial
      · trivial
    clear_value last
    split
    · exact hlast
    · exact h.settleEntry
    · trivial

theorem State.memoryWf.settleFuel (h : s.memoryWf) {k n} : (State.settleFuel k n s).memoryWf := by
  induction n generalizing s with
  | zero => exact h
  | succ n ih =>
    unfold State.settleFuel
    split
    · next t ht => exact ih (h.settleOne.of_eq ht)
    · exact h

theorem State.memoryWf.settle (h : s.memoryWf) {k} : (s.settle k).memoryWf := h.settleFuel

theorem State.memoryWf.settleAll (h : s.memoryWf) : s.settleAll.memoryWf := h.foldl fun _ _ h => h.settle

theorem Cx.memoryWf.pendOn (h : x.memoryWf) {kind scope sc va} : (x.pendOn kind scope sc va).memoryWf :=
  State.memoryWf.settle (State.memoryWf.putCtx h)

theorem Cx.memoryWf.synchronize (h : x.memoryWf) : x.synchronize.memoryWf := h.commit.closeInterval

/-! ## Issue -/

theorem Cx.memoryWf.park (h : x.memoryWf) {va access} : (x.park va access).memoryWf := by
  unfold Cx.park
  refine .ite h.closeStopped.put.settle (.ite h ?_)
  have hs := State.memoryWf.suspend h.abort (core := x.abort.core) (c := x.abort.c)
  dsimp only
  generalize x.abort.s.suspend x.abort.core x.abort.c = p at hs
  have hl := hs.leave (k := x.abort.slot) (c := p.2)
  generalize p.1.leave x.abort.slot p.2 = q at hl
  exact hl.update

theorem Cx.memoryWf.conclude (hx : x.memoryWf) (hs : s.memoryWf) {r : Except Stop State}
    (hr : Answers Stop.memoryWf State.memoryWf r) : outcomeWf (x.conclude s r) := by
  unfold Cx.conclude
  split
  · exact outcomeWf.refused
  · exact State.memoryWf.next (.ite (State.memoryWf.settle hx.raise) hs)
  · split
    · exact (hs.takeTrap.ite hs).next
    · split
      · exact State.memoryWf.next hr
      · exact hs.putCtx.next
      · exact hs.putCtx.next
      · exact hx.park.next
      · exact hs.putCtx.next
      · exact (State.memoryWf.settle hr).next
      · exact hs.next

theorem Cx.attempt_answers {h i legal body} (hb : Answers Stop.memoryWf State.memoryWf (body x)) :
    Answers Stop.memoryWf State.memoryWf (x.attempt h i legal body) := by
  unfold Cx.attempt
  exact .ite trivial (.ite trivial (.ite trivial (.ite trivial hb)))

theorem State.memoryWf.hand (h : s.memoryWf) (hx : s.hand = some x) : x.memoryWf := by
  unfold State.hand at hx
  split at hx
  · split at hx
    · cases hx
      exact h
    · cases hx
  · cases hx

theorem State.memoryWf.vectorHand (h : s.memoryWf) (hx : s.vectorHand = some x) : x.memoryWf := by
  unfold State.vectorHand at hx
  split at hx
  · split at hx
    · cases hx
      exact h
    · cases hx
  · cases hx

/-- An instruction keeps the canonical form if its effect does. -/
theorem State.memoryWf.issue (hs : s.memoryWf) {h i legal body}
    (hb : ∀ x : Cx, x.memoryWf → Answers Stop.memoryWf State.memoryWf (body x)) :
    outcomeWf (issue h i legal body s) := by
  unfold Machine.issue
  split
  · exact hs.next
  · next x hx => exact (hs.hand hx).conclude hs (Cx.attempt_answers (hb x (hs.hand hx)))

theorem State.memoryWf.issueOn (hs : s.memoryWf) {h i body}
    (hb : ∀ x : Cx, x.memoryWf → Answers Stop.memoryWf Cx.memoryWf (body x)) :
    outcomeWf (issueOn h i body s) :=
  hs.issue fun x hx => (hb x hx).map fun _ hy => hy.put

/-! ## How a firing ends -/

theorem State.memoryWf.returnRecords (h : s.memoryWf) {c} : (s.returnRecords c).memoryWf := by
  unfold State.returnRecords
  split
  · exact h
  · exact h.setLaunch

theorem State.memoryWf.endBoost (h : s.memoryWf) {core c} : (s.endBoost core c).memoryWf := by
  unfold State.endBoost
  split
  · exact h.ite h.unreserve
  · exact h

theorem State.memoryWf.unbegin (h : s.memoryWf) {core entry} : (s.unbegin core entry).memoryWf := h.setCore

theorem State.memoryWf.handled (h : s.memoryWf) {core c killed} : (s.handled core c killed).memoryWf := by
  unfold State.handled
  split
  · exact h
  · exact h.unbegin.ite h.setCore

theorem State.memoryWf.dropLock (h : s.memoryWf) {slot inc c} : (s.dropLock slot inc c).memoryWf := by
  unfold State.dropLock
  refine State.memoryWf.foldl ?_ fun s l h => ?_
  · split
    · exact h.setLock.orphan
    · exact h
  · split
    · exact h.setLock
    · exact h

theorem State.memoryWf.orphanAll (h : s.memoryWf) {slot inc c} : (s.orphanAll slot inc c).memoryWf :=
  h.foldl fun _ _ h => h.orphanTrap

theorem Cx.memoryWf.finish (h : x.memoryWf) {discard killed} : (x.finish discard killed).memoryWf := by
  unfold Cx.finish
  extract_lets y s₁ s₂ s₃ s₄ s₅
  have hy : y.memoryWf := (h.ite h.commit).closeInterval
  have h₃ : s₃.memoryWf := (State.memoryWf.returnRecords hy).endBoost.handled.dropLock
  have h₅ : s₅.memoryWf := (h₃.update (t := s₄)).orphanAll
  exact h₅.putCtx.settle.realignTest

theorem State.memoryWf.discardEvents (h : s.memoryWf) {slot inc c es} : (s.discardEvents slot inc c es).memoryWf :=
  h.foldl fun _ _ h => h.orphan.ite h

theorem State.memoryWf.countEnded (h : s.memoryWf) {c} : (s.countEnded c).memoryWf := by
  unfold State.countEnded
  split
  · exact h.setLaunch.ite h
  · exact h

theorem State.memoryWf.unpark (h : s.memoryWf) {uid} : (s.unpark uid).memoryWf := h.update

theorem State.memoryWf.finishParked (h : s.memoryWf) {c} : (s.finishParked c).memoryWf := by
  unfold State.finishParked
  refine .unpark (.discardEvents (.orphanAll (.dropLock ?_)))
  split
  · exact h.returnRecords.countEnded.handled
  · exact h.returnRecords.countEnded

theorem State.memoryWf.killLaunch (h : s.memoryWf) {i} : (s.killLaunch i).memoryWf := by
  unfold State.killLaunch
  split
  · exact h
  · next l hl =>
    refine .ite h ?_
    extract_lets mine parked waiting s₁ s₂ s₃ s₄ s₅
    have h₃ : s₃.memoryWf := (h.update (t := s₂)).foldl fun _ _ h => h.unbegin
    have h₄ : s₄.memoryWf := h₃.foldl fun _ _ h => h.finishParked
    have h₅ : s₅.memoryWf := h₄.foldl fun s e h => by
      split
      · refine .ite ?_ h
        split
        · exact h
        · exact h
        · exact Cx.memoryWf.finish (x := { s := s, who := .slot e.1, c := _ }) h
      · exact h
    clear_value s₅
    split
    · exact h₅
    · exact h₅.setLaunch

theorem State.memoryWf.endHandle (h : s.memoryWf) {n} : (s.endHandle n).memoryWf := by
  unfold State.endHandle
  split
  · exact h.killLaunch
  · exact h

/-! ## Allocation -/

theorem State.memoryWf.setPool (h : s.memoryWf) {p} : (s.setPool p).memoryWf := h.update

theorem State.memoryWf.zeroFill (h : s.memoryWf) {pa n} : (s.zeroFill pa n).memoryWf := ⟨s.zeroFill_wf pa n h.1, h.2⟩

theorem State.memoryWf.clearTags (h : s.memoryWf) {pa n} : (s.clearTags pa n).memoryWf := h.update

theorem State.memoryWf.growPool (h : s.memoryWf) {asn block} : (s.growPool asn block).memoryWf := h.setPool.ite h

theorem State.memoryWf.poolBound (h : s.memoryWf) {window block} : (s.poolBound window block).memoryWf := by
  unfold State.poolBound
  split
  · exact h.growPool
  · exact h

theorem State.memoryWf.countT3 (h : s.memoryWf) {core t} : (s.countT3 core t).memoryWf := h.update.ite h

theorem State.memoryWf.takeLive (h : s.memoryWf) {c l p off lg} : (s.takeLive c l p off lg).memoryWf := by
  unfold State.takeLive
  dsimp only
  split
  · exact h.setPool.setLaunch.zeroFill.ite h.setPool.setLaunch.clearTags
  · exact h.setPool.setLaunch

theorem execAlloc_wf (h : s.memoryWf) {n a d} : outcomeWf (execAlloc n a d s) :=
  h.issueOn fun x h => by
    dsimp only
    split
    · exact h.commit
    · split
      · exact State.memoryWf.countT3 h.commit
      · exact State.memoryWf.takeLive h.commit

theorem State.memoryWf.giveFrame (h : s.memoryWf) {pa n} : (s.giveFrame pa n).memoryWf := by
  unfold State.giveFrame
  split
  · exact h.setPool
  · exact h.update

theorem State.memoryWf.takeFrame (h : s.memoryWf) {pa n} : (s.takeFrame pa n).memoryWf := by
  unfold State.takeFrame
  split
  · split
    · exact h.setPool
    · exact h
  · exact h.update

theorem State.memoryWf.release (h : s.memoryWf) {p b} : (s.release p b).memoryWf := by
  unfold State.release
  extract_lets s₁ others s₂
  have h₂ : s₂.memoryWf := h.setPool.foldl fun _ _ h => h.giveFrame
  clear_value s₂
  split
  · split
    · exact h₂.setLaunch
    · exact h₂
  · exact h₂

theorem execFree_wf (h : s.memoryWf) {a d} : outcomeWf (execFree a d s) :=
  h.issueOn fun x h => by
    dsimp only
    split
    · exact State.memoryWf.release h.commit
    · exact h.commit

/-! ## Engines -/

theorem State.memoryWf.mapUid (h : s.memoryWf) {uid f} : (s.mapUid uid f).memoryWf := by
  unfold State.mapUid
  split
  · split
    · exact h.putCtx
    · exact h
  · exact h.update

theorem State.memoryWf.integrity (h : s.memoryWf) {e va pa} : (s.integrity e va pa).memoryWf := h.async

theorem State.memoryWf.integrityAll (h : s.memoryWf) {e va n} : (s.integrityAll e va n).memoryWf :=
  h.foldl fun s i h => by
    refine State.memoryWf.ite ?_ h
    split
    · exact h.integrity.ite h
    · exact h

theorem State.memoryWf.integrityBlocks (h : s.memoryWf) {e l} : (s.integrityBlocks e l).memoryWf :=
  h.ite (h.foldl fun _ _ h => h.integrityAll)

theorem State.memoryWf.integrityPhys (h : s.memoryWf) {e pa n} : (s.integrityPhys e pa n).memoryWf :=
  h.foldl fun _ _ h => h.integrity.ite h

theorem State.memoryWf.putKey (h : s.memoryWf) {e key b} : (s.putKey e key b).memoryWf := by
  unfold State.putKey
  split
  · split
    · exact h.unsee.mapUid
    · exact h
  · exact h.writeByte

theorem State.memoryWf.mendKeys (h : s.memoryWf) {e keys} : (s.mendKeys e keys).memoryWf := h.ite h.update

theorem State.memoryWf.engPut (h : s.memoryWf) {e ok keys l} :
    Answers (fun _ => True) (·.1.memoryWf) (s.engPut e ok keys l) := by
  induction l generalizing s keys with
  | nil => exact h.mendKeys
  | cons p l ih =>
    unfold State.engPut
    split
    · trivial
    · exact h.mendKeys
    · exact .ite (ih h.putKey) h.mendKeys

theorem State.memoryWf.engStore (h : s.memoryWf) {e ok l} :
    Answers (fun _ => True) (·.1.memoryWf) (s.engStore e ok l) := by
  unfold State.engStore
  split
  · trivial
  · next t c ht =>
    have htwf : t.memoryWf := h.engPut.of_eq ht
    dsimp only [Answers]
    split
    · exact htwf
    · exact h

theorem State.memoryWf.report (h : s.memoryWf) {e tag status addr post} :
    (s.report e tag status addr post).memoryWf :=
  State.memoryWf.ite (h.postEvent.ite h).forgetWalks.async (h.postEvent.ite h)

theorem State.memoryWf.engCross (h : s.memoryWf) {o path} : (s.engCross o path).memoryWf := h.cross

theorem State.memoryWf.enterQueues (h : s.memoryWf) {tile} : (s.enterQueues tile).memoryWf := by
  unfold State.enterQueues
  extract_lets t idle r u
  have hr : r.1.memoryWf := foldl_keeps (P := fun r : State × List MCmd => r.1.memoryWf) (fun r m h => by
    dsimp only
    split
    · exact h.setCore
    · exact h) _ _ h
  exact hr.setTile.ite hr.setTile

theorem State.memoryWf.matrixArrive (h : s.memoryWf) {tile} : (s.matrixArrive tile).memoryWf :=
  h.ite h.setTile.enterQueues

theorem State.memoryWf.releaseHeld (h : s.memoryWf) {tile} : (s.releaseHeld tile).memoryWf :=
  State.memoryWf.setTile (foldl_keeps (P := fun r : State × List Packet => r.1.memoryWf) (fun r m h => by
    split
    · exact h.inject
    · exact h) _ _ h)

theorem State.memoryWf.commandsArrive (h : s.memoryWf) : s.commandsArrive.memoryWf :=
  h.foldl fun _ _ h => State.memoryWf.ite (h.ite h.matrixArrive) (h.ite h.matrixArrive).releaseHeld

theorem State.memoryWf.sendMatrix (h : s.memoryWf) {m} : (s.sendMatrix m).memoryWf := h.setTile.matrixArrive

theorem State.memoryWf.integrityElems (h : s.memoryWf) {e r l} : (s.integrityElems e r l).memoryWf :=
  h.ite (h.foldl fun _ _ h => h.integrityAll)

theorem State.memoryWf.integrityTile (h : s.memoryWf) {e r} : (s.integrityTile e r).memoryWf := h.integrityElems

/-- An event keeps the canonical form if what it does keeps it. -/
theorem State.memoryWf.event (h : s.memoryWf) {f : State → Option State} (hf : maybeWf (f s)) : outcomeWf (event f s) := by
  unfold Machine.event
  split
  · next t ht => exact (hf.of_eq ht).next
  · exact h.next

/-! ## Banks -/

theorem State.memoryWf.cabPut (h : s.memoryWf) {b off n v} : (s.cabPut b off n v).memoryWf := h.writeMem

theorem State.memoryWf.cabZero (h : s.memoryWf) {b off n} : (s.cabZero b off n).memoryWf :=
  (h.foldl fun _ _ h => h.writeByte).mendRange

theorem State.memoryWf.cabAddCount (h : s.memoryWf) {b i w} : (s.cabAddCount b i w).memoryWf :=
  State.memoryWf.ite h.cabPut.cabPut h.cabPut

theorem State.memoryWf.cabSetSums (h : s.memoryWf) {b i sums} : (s.cabSetSums b i sums).memoryWf :=
  (h.foldl fun _ _ h => h.cabPut.cabPut).mendRange

theorem State.memoryWf.cabUpdate (h : s.memoryWf) {b n w l} : (s.cabUpdate b n w l).memoryWf :=
  h.cabAddCount.cabSetSums

theorem State.memoryWf.cabOpen (h : s.memoryWf) {b f w l} : (s.cabOpen b f w l).memoryWf :=
  h.cabPut.cabPut.cabPut.cabSetSums

theorem State.memoryWf.cabFree (h : s.memoryWf) {b i} : (s.cabFree b i).memoryWf := h.cabZero.cabPut

theorem State.memoryWf.cabBump (h : s.memoryWf) {b off} : (s.cabBump b off).memoryWf := h.cabPut

theorem State.memoryWf.cabMerge (h : s.memoryWf) {b i j} : (s.cabMerge b i j).memoryWf :=
  h.cabAddCount.cabSetSums.cabFree

theorem State.memoryWf.cabFull (h : s.memoryWf) {b n w l} : maybeWf (s.cabFull b n w l) := by
  unfold State.cabFull
  dsimp only
  split
  · exact h.cabUpdate
  · split
    · split
      · exact h.cabBump
      · exact .ite h.cabFree.cabOpen (.ite trivial h.setLaunch.cabFree.cabOpen)
    · exact h.cabBump
  · split
    · exact h.cabMerge.cabOpen
    · exact h.cabUpdate
  · exact h.cabBump

theorem State.memoryWf.cabArrive (h : s.memoryWf) {b w l} : maybeWf (s.cabArrive b w l) := by
  unfold State.cabArrive
  dsimp only
  refine .ite h.cabBump ?_
  split
  · refine .ite h.cabUpdate ?_
    split
    · exact h.cabOpen
    · exact h.cabFull
  · exact h.cabOpen
  · exact h

theorem State.memoryWf.cabFail (h : s.memoryWf) {b m code} : (s.cabFail b m code).memoryWf := h.report

theorem State.memoryWf.cabReply (h : s.memoryWf) {m v} : (s.cabReply m v).memoryWf := h.mapUid

theorem State.memoryWf.cabConfigure (h : s.memoryWf) {b m c} : (s.cabConfigure b m c).memoryWf :=
  (h.cabZero.foldl fun _ _ h => h.cabPut).cabPut.cabPut.cabPut.cabPut.setBank

theorem State.memoryWf.cabClear (h : s.memoryWf) {b} : (s.cabClear b).memoryWf :=
  h.cabZero.cabPut.cabPut.cabPut.cabPut

theorem State.memoryWf.cabRelease (h : s.memoryWf) {b} : (s.cabRelease b).memoryWf := by
  unfold State.cabRelease
  dsimp only
  split
  · exact h.setBank
  · exact h

theorem State.memoryWf.cabPush (h : s.memoryWf) {b m} : maybeWf (s.cabPush b m) := by
  unfold State.cabPush
  dsimp only
  refine .ite h (.ite h.cabFail (.ite (.ite h.cabFail (.ite h.setBank ?_)) h.cabArrive))
  exact h.cabArrive.map fun _ h => h.cabPut.cabRelease

theorem State.memoryWf.cabIntegrity (h : t.memoryWf) {b m} : (s.cabIntegrity t b m).memoryWf :=
  h.foldl fun _ _ h => h.integrity

theorem State.memoryWf.cabRun (h : s.memoryWf) {b m} : maybeWf (s.cabRun b m) := by
  unfold State.cabRun
  dsimp only
  refine .ite h.cabFail.cabReply ?_
  split
  · refine .ite h.cabFail ?_
    split
    · trivial
    · exact h.cabFail
    · exact State.memoryWf.integrityBlocks (.ite h.cabFail (.ite h.cabFail h.cabConfigure.report))
  · exact h.cabPush
  · refine .ite h.cabFail.cabReply ?_
    split
    · exact h.cabReply
    · exact h.cabMerge.cabReply
  · refine .ite h.cabFail.cabReply (.ite h.cabFail.cabReply (.ite h.cabFail.cabReply ?_))
    split
    · trivial
    · next t ht => exact State.memoryWf.cabReply (.update (s := t) (h.engStore.of_eq ht))
    · exact h.cabFail.cabReply
  · refine .ite h.cabFail (.ite h.cabFail ?_)
    split
    · trivial
    · next t ht => exact State.memoryWf.report (.cabClear (s := t) (h.engPut.of_eq ht))
    · next t c _ ht => exact State.memoryWf.cabFail (s := t) (h.engPut.of_eq ht)
  · exact .ite h.cabClear h.cabFail

/-! ## Registers -/

theorem State.memoryWf.setHost (h : s.memoryWf) {v} : (s.setHost v).memoryWf := h.update

theorem State.memoryWf.setCap (h : s.memoryWf) {i v} : (s.setCap i v).memoryWf := h.ite (h.update.ite h.update)

theorem State.memoryWf.setView (h : s.memoryWf) {tier unit asn base} : (s.setView tier unit asn base).memoryWf :=
  h.ite h.setPool

theorem State.memoryWf.addFree (h : s.memoryWf) {tier unit off lg} : (s.addFree tier unit off lg).memoryWf :=
  State.memoryWf.ite h h.setPool

theorem State.memoryWf.dropBlock (h : s.memoryWf) {tier unit off} : (s.dropBlock tier unit off).memoryWf := by
  unfold State.dropBlock
  dsimp only
  split
  · exact h.release
  · exact h

theorem State.memoryWf.setWindow (h : s.memoryWf) {asn base id} : (s.setWindow asn base id).memoryWf := by
  refine State.memoryWf.ite h (State.memoryWf.foldl (s := { s with windows := _ }) h.update fun _ _ h => h.growPool.ite h)

theorem State.memoryWf.setPort (h : s.memoryWf) {port ether} : (s.setPort port ether).memoryWf :=
  State.memoryWf.ite h h.setHost

theorem State.memoryWf.droneWrite (h : s.memoryWf) {space a v} : maybeWf (s.droneWrite space a v) := by
  unfold State.droneWrite
  split
  · exact h.setCap
  · exact h.setWindow
  · exact h.setView
  · exact h.addFree
  · exact h.setPort
  · exact h.dropBlock
  · trivial

theorem State.memoryWf.windowWrite (h : s.memoryWf) {k off n v} : (s.windowWrite k off n v).memoryWf := by
  unfold State.windowWrite
  split
  · exact h
  · split
    · exact h.putCtx
    · exact h

theorem State.memoryWf.retryEntry (h : s.memoryWf) {core i} : (s.retryEntry core i).memoryWf := by
  unfold State.retryEntry
  split
  · exact h.update.ite h
  · exact h

theorem State.memoryWf.discardEntry (h : s.memoryWf) {core i} : (s.discardEntry core i).memoryWf := by
  unfold State.discardEntry
  split
  · exact State.memoryWf.ite (.settleAll (.grantJournal h.update)) h
  · exact h

theorem State.memoryWf.journalWrite (h : s.memoryWf) {core i v} : (s.journalWrite core i v).memoryWf :=
  h.retryEntry.ite (h.discardEntry.ite h)

theorem State.memoryWf.tilePut (h : s.memoryWf) {path pa b} : (s.tilePut path pa b).memoryWf := by
  unfold State.tilePut
  refine h.ite (State.memoryWf.ite h.setSub ?_)
  split
  · exact h.unsee.putCtx
  · exact h.writeByte

theorem State.memoryWf.registerPut (h : s.memoryWf) {pa v} : (s.registerPut pa v).memoryWf := by
  unfold State.registerPut
  split
  · exact h.setCore
  · exact h.droneWrite.getD h
  · exact h

theorem State.sysRead_stops {m pa n} : Answers Stop.memoryWf (fun _ => True) (s.sysRead m pa n) :=
  .ite trivial (.ite trivial (.ite trivial (.ite trivial (.ite trivial (.ite trivial trivial)))))

theorem State.memoryWf.sysWrite (h : s.memoryWf) {m serving pa n v} :
    Answers Stop.memoryWf State.memoryWf (s.sysWrite m serving pa n v) :=
  .ite h.setSys (.ite (State.memoryWf.ite h.windowWrite h) (.ite (State.memoryWf.ite h.journalWrite h)
    (.ite (State.memoryWf.ite h.endHandle h) (.ite h.registerPut
      (.ite (h.foldl fun _ _ h => h.tilePut) h.writeMem)))))

/-! ## Scalar operations -/

theorem State.memoryWf.alu3 (h : s.memoryWf) {i z y x b a d f} : outcomeWf (alu3 i z y x b a d f s) :=
  h.issueOn fun _ h => h.readSS.bind fun _ h => (Cx.memoryWf.writeS h).bind fun _ h => h.next

theorem State.memoryWf.alu2 (h : s.memoryWf) {i y x a d f} : outcomeWf (alu2 i y x a d f s) :=
  h.issueOn fun _ h => h.readS.bind fun _ h => (Cx.memoryWf.writeS h).bind fun _ h => h.next

theorem State.memoryWf.aluI (h : s.memoryWf) {i a d f} : outcomeWf (aluI i a d f s) := h.issueOn fun _ h => h

theorem execCsel_wf (h : s.memoryWf) {z y b a d} : outcomeWf (execCsel z y b a d s) :=
  h.issueOn fun _ h => h.readSS.bind fun _ h => h

theorem execLui_wf (h : s.memoryWf) {i d} : outcomeWf (execLui i d s) := h.issueOn fun _ h => h

theorem execAddpc_wf (h : s.memoryWf) {i d} : outcomeWf (execAddpc i d s) := h.issueOn fun _ h => h

/-! ## The vector stream -/

theorem Cx.memoryWf.forwardedDone (h : x.memoryWf) {rest} : (x.forwardedDone rest).memoryWf := h

theorem State.memoryWf.vectorTurn (h : s.memoryWf) {body}
    (hb : ∀ v (x : Cx), x.memoryWf → Answers Stop.memoryWf Cx.memoryWf (body v x)) :
    outcomeWf (vectorTurn body s) := by
  unfold Machine.vectorTurn
  extract_lets s'
  have hs : s'.memoryWf := h.update
  clear_value s'
  split
  · exact hs.next
  · next x hx =>
    have hx := hs.vectorHand hx
    split
    · exact hs.next
    · next d rest _ =>
      split
      · split
        · exact (State.memoryWf.putCtx hx).next
        · exact hs.next
      · split
        · exact hs.next
        · have hd := hb d.operands x hx
          split
          · next hy => exact (hd.of_eq hy).forwardedDone.put.next
          · next hy => exact State.memoryWf.next (hd.of_error hy)
          · exact hs.next

theorem State.memoryWf.vissue (h : s.memoryWf) {how i legal body}
    (hb : ∀ v (x : Cx), x.memoryWf → Answers Stop.memoryWf Cx.memoryWf (body v x)) :
    outcomeWf (vissue how i legal body s) := by
  unfold Machine.vissue
  split
  · exact h.vectorTurn hb
  · refine h.issue fun x hx => ?_
    dsimp only
    refine .ite (State.memoryWf.putCtx hx) ?_
    have hd := hb { pc := x.c.pc, x := how.x x.c, y := how.y x.c, status := x.c.regs.status } x hx
    split
    · next hy => exact (hd.of_eq hy).next.put
    · exact State.memoryWf.putCtx hx
    · next hy => exact hd.of_error hy

theorem Cx.memoryWf.readV (h : x.memoryWf) {r} : Answers Stop.memoryWf (·.2.memoryWf) (x.readV r) := .ite h.popV h

theorem Cx.memoryWf.readVV (h : x.memoryWf) {a b} : Answers Stop.memoryWf (·.2.2.memoryWf) (x.readVV a b) :=
  h.popRoom.readV.bind fun _ h => .ite h ((Cx.memoryWf.readV h).bind fun _ h => h)

theorem Cx.memoryWf.writeV (h : x.memoryWf) {r v} : Answers Stop.memoryWf Cx.memoryWf (x.writeV r v) := .ite h.pushV h

theorem Cx.memoryWf.writeVS (h : x.memoryWf) {q d v} : Answers Stop.memoryWf Cx.memoryWf (x.writeVS q d v) := h.writeS

theorem Cx.memoryWf.writeLanes (h : x.memoryWf) {t m d f} :
    Answers Stop.memoryWf Cx.memoryWf (x.writeLanes t m d f) := by
  unfold Cx.writeLanes
  split
  refine Cx.memoryWf.writeV ?_
  exact h

/-! ## Loads and stores -/

theorem Cx.memoryWf.scalarLoad (h : x.memoryWf) {w ea} : Answers Stop.memoryWf (·.2.memoryWf) (x.scalarLoad w ea) := by
  unfold Cx.scalarLoad
  dsimp only
  split
  · exact h.reach.bind fun _ h => State.sysRead_stops.bind fun _ _ => h
  · exact h.reach.bind fun _ h => .ite trivial ((Cx.memoryWf.loadAt h).bind fun _ h => h)

/-- The hand with a load outstanding, if there is one, is in canonical form. -/
theorem Cx.memoryWf.lateLoad (h : x.memoryWf) {w ea d} :
    Answers Stop.memoryWf (fun y => ∀ z, y = some z → z.memoryWf) (x.lateLoad w ea d) :=
  .ite (fun _ h => nomatch h) (h.reach.bind fun _ h => .ite trivial (.ite (fun _ h => nomatch h) fun _ hz => by
    cases hz
    exact State.memoryWf.update h))

theorem Cx.memoryWf.loadInto (h : x.memoryWf) {w ea d} : Answers Stop.memoryWf Cx.memoryWf (x.loadInto w ea d) :=
  h.lateLoad.bind fun y hy => by
    split
    · exact hy _ rfl
    · exact h.scalarLoad.bind fun _ h => h

theorem Cx.memoryWf.scalarStore (h : x.memoryWf) {w ea v} :
    Answers Stop.memoryWf Cx.memoryWf (x.scalarStore w ea v) := by
  unfold Cx.scalarStore
  dsimp only
  split
  · exact h.reach.bind fun _ h => (Cx.memoryWf.put h).sysWrite.bind fun _ h => h
  · exact h.reach.bind fun _ _ => .ite trivial h.store

theorem Cx.memoryWf.prepare (h : x.memoryWf) {store ea n} :
    Answers Stop.memoryWf Cx.memoryWf (x.prepare store ea n) := by
  unfold Cx.prepare
  split
  · exact h
  · exact h.reach.bind fun _ h => (Cx.memoryWf.checkLines h).bind fun _ h => .ite trivial (h.makeRoom.ite h)

theorem execLd_wf (h : s.memoryWf) {w i a d} : outcomeWf (execLd w i a d s) :=
  h.issueOn fun _ h => h.loadInto.bind fun _ h => h

theorem execSt_wf (h : s.memoryWf) {w i a c} : outcomeWf (execSt w i a c s) :=
  h.issueOn fun _ h => h.scalarStore.bind fun _ h => h

theorem Cx.memoryWf.queueLoadS (h : x.memoryWf) {w ea q} : Answers Stop.memoryWf Cx.memoryWf (x.queueLoadS w ea q) := by
  refine h.reach.bind fun p h => .ite trivial ?_
  extract_lets now rest
  have hrest : ∀ y : Cx, y.memoryWf → Answers Stop.memoryWf Cx.memoryWf (rest y) := by
    intro y hy
    refine .ite trivial ?_
    extract_lets z cells id
    have hz : z.memoryWf := Cx.memoryWf.ite (x := { y with c := _ }) hy hy
    clear_value z
    exact .ite hz.pushS (hz.pushS.bind fun z hz => State.memoryWf.update (s := z.s) hz)
  clear_value now rest
  split
  · exact (Cx.memoryWf.checkLines h).bind hrest
  · exact hrest _ h

theorem execLdx_wf (h : s.memoryWf) {w z y x b a d} : outcomeWf (execLdx w z y x b a d s) :=
  h.issueOn fun _ h => h.readSS.bind fun _ _ => .ite trivial (h.prepare.bind fun _ h => h.readSS.bind fun _ h =>
    .ite ((Cx.memoryWf.queueLoadS h).bind fun _ h => h) (.ite ((Cx.memoryWf.loadInto h).bind fun _ h => h)
      ((Cx.memoryWf.scalarLoad h).bind fun _ h => (Cx.memoryWf.writeS h).bind fun _ h => h)))

theorem execStx_wf (h : s.memoryWf) {w z y x b a c} : outcomeWf (execStx w z y x b a c s) :=
  h.issueOn fun _ h => (Cx.memoryWf.popRoom h).readSS.bind fun _ _ =>
    (Cx.memoryWf.popRoom h).prepare.bind fun _ h => h.readSS.bind fun ⟨va, vb, k⟩ h => by
      dsimp -zeta only
      extract_lets rest
      have hrest : ∀ p : Word × Cx, p.2.memoryWf → Answers Stop.memoryWf Cx.memoryWf (rest p) := fun p hp =>
        (Cx.memoryWf.scalarStore hp).bind fun _ h => h
      clear_value rest
      exact .ite (hrest _ h) (.ite (hrest _ h) ((Cx.memoryWf.readS h).bind hrest))

theorem execPref_wf (h : s.memoryWf) {i a} : outcomeWf (execPref i a s) := h.issueOn fun _ h => h

/-! ## Vector loads and stores -/

theorem Cx.memoryWf.reachLanes (h : x.memoryWf) {u e l} :
    Answers Stop.memoryWf (·.2.2.memoryWf) (x.reachLanes u e l) := by
  induction l generalizing x with
  | nil => exact h
  | cons p l ih => exact h.reach.bind fun _ h => (ih h).bind fun _ h => h

theorem Cx.memoryWf.faultLanes (h : x.memoryWf) {u e claim l} :
    Answers Stop.memoryWf Cx.memoryWf (x.faultLanes u e claim l) := by
  induction l generalizing x with
  | nil => exact h
  | cons p l ih => exact h.reach.bind fun _ h => (Cx.memoryWf.checkLines h).bind fun _ h => ih h

theorem Cx.memoryWf.checkLanes (h : x.memoryWf) {store e lanes} :
    Answers Stop.memoryWf (·.2.2.memoryWf) (x.checkLanes store e lanes) := by
  unfold Cx.checkLanes
  dsimp only
  split
  · next hy => exact (Cx.memoryWf.checkLines (h.reachLanes.of_eq hy)).map fun _ h => h
  · next hy =>
    split
    · next hf => exact h.faultLanes.of_error hf
    · exact h.reachLanes.of_error hy

theorem Cx.memoryWf.poisoned (h : x.memoryWf) {cells} : (x.poisoned cells).memoryWf := by
  unfold Cx.poisoned
  exact Cx.memoryWf.ite h h

theorem Cx.memoryWf.loadLanes (h : x.memoryWf) {w d v} : Answers Stop.memoryWf Cx.memoryWf (x.loadLanes w d v) :=
  .ite trivial h.poisoned.writeV

theorem Cx.memoryWf.lanesDue (h : x.memoryWf) {w d v} : Answers Stop.memoryWf Cx.memoryWf (x.lanesDue w d v) := by
  refine .ite trivial (.ite h.poisoned.writeV ?_)
  extract_lets load rest
  have hrest : ∀ y : Cx, y.memoryWf → Answers Stop.memoryWf Cx.memoryWf (rest y) := fun y hy =>
    State.memoryWf.update (s := y.s) hy
  clear_value rest
  split
  · exact h.poisoned.pushV.bind hrest
  · exact hrest _ h.poisoned

theorem Cx.memoryWf.vecLoad (h : x.memoryWf) {w d v} : Answers Stop.memoryWf Cx.memoryWf (x.vecLoad w d v) :=
  .ite h.lanesDue h.loadLanes

theorem Cx.memoryWf.vecStore (h : x.memoryWf) {w r taken v} :
    Answers Stop.memoryWf Cx.memoryWf (x.vecStore w r taken v) := by
  unfold Cx.vecStore
  extract_lets y z rest
  have hz : z.memoryWf := (h.ite h.popRoom).makeRoom
  have hrest : ∀ p : Vec × Cx, p.2.memoryWf → Answers Stop.memoryWf Cx.memoryWf (rest p) := fun p hp =>
    Cx.memoryWf.foldl hp fun _ _ h => h.buffer
  clear_value z rest
  exact .ite (hrest _ hz) (hz.readV.bind hrest)

theorem Cx.memoryWf.vecIssue (h : x.memoryWf) {i w store r taken lanes offsets}
    (ho : ∀ y : Cx, y.memoryWf → Answers Stop.memoryWf Cx.memoryWf (offsets y)) :
    Answers Stop.memoryWf State.memoryWf (x.vecIssue i w store r taken lanes offsets) := by
  refine h.checkLanes.bind fun p h => .ite trivial ?_
  dsimp only
  refine (ho _ ((Cx.memoryWf.makeRoom h).ite h)).bind fun y h => .ite (State.memoryWf.putCtx (.update (s := y.s) h)) ?_
  have hd : ∀ v, Answers Stop.memoryWf Cx.memoryWf (if store then y.vecStore w r taken.isSome v else y.vecLoad w r v) :=
    fun _ => .ite h.vecStore h.vecLoad
  split
  · next hy => exact ((hd _).of_eq hy).next.put
  · exact .ite trivial (State.memoryWf.putCtx (.update (s := y.s) h))
  · next he => exact (hd _).of_error he

theorem Cx.memoryWf.vecEffect (h : x.memoryWf) {w store r taken v} :
    Answers Stop.memoryWf Cx.memoryWf (Cx.vecEffect w store r taken v x) := .ite h.vecStore h.vecLoad

theorem State.memoryWf.vecAccess (h : s.memoryWf) {i t m ops store r addr} :
    outcomeWf (vecAccess i t m ops store r addr s) := by
  unfold Machine.vecAccess
  dsimp only
  split
  · exact h.vectorTurn fun _ _ h => h.vecEffect
  · exact h.issue fun _ h => .ite trivial (h.vecIssue fun _ h => h)

theorem State.memoryWf.vecIndexed (h : s.memoryWf) {i t m store r a b} :
    outcomeWf (vecIndexed i t m store r a b s) := by
  unfold Machine.vecIndexed
  dsimp only
  split
  · exact h.vectorTurn fun _ _ h => h.vecEffect
  · exact h.issue fun _ h => .ite trivial (h.popRoom.readV.bind fun _ _ =>
      h.popRoom.vecIssue fun _ h => h.readV.map fun _ h => h)

/-! ## Atomics, locks and fences -/

theorem Cx.memoryWf.operand (h : x.memoryWf) {t u va n al} :
    Answers Stop.memoryWf (·.2.memoryWf) (x.operand t u va n al) :=
  .ite trivial (.ite trivial (h.translate.bind fun _ h => .ite h trivial))

theorem Cx.raceCheck_stops {p access va} : Answers Stop.memoryWf (fun _ => True) (x.raceCheck p access va) := by
  unfold Cx.raceCheck
  split
  · trivial
  · trivial

theorem Cx.memoryWf.marked (h : x.memoryWf) {p} : (x.marked p).memoryWf := by
  unfold Cx.marked
  exact Cx.memoryWf.ite h h

theorem Cx.memoryWf.stay (h : x.memoryWf) : x.stay.memoryWf := h.put

theorem Cx.memoryWf.stayWaiting (h : x.memoryWf) : x.stayWaiting.memoryWf := State.memoryWf.putCtx h

theorem Cx.memoryWf.poisonFlag (h : x.memoryWf) {p} : (x.poisonFlag p).memoryWf := by
  unfold Cx.poisonFlag
  exact Cx.memoryWf.ite h h

theorem Cx.memoryWf.done (h : x.memoryWf) : x.done.memoryWf := h

theorem Cx.memoryWf.outstanding (h : x.memoryWf) {kind home va d} : (x.outstanding kind home va d).memoryWf :=
  State.memoryWf.update h

theorem State.memoryWf.atomic (h : s.memoryWf) {i op sc z scope b a d} :
    outcomeWf (atomic i op sc z scope b a d s) :=
  h.issue fun _ h => h.operand.bind fun _ h => Cx.raceCheck_stops.bind fun _ _ =>
    have h := Cx.memoryWf.marked h
    .ite h.synchronize.pendOn (.ite h.commit.outstanding.done.put (State.memoryWf.putCtx (State.memoryWf.atomicAt h.commit)))

theorem Cx.memoryWf.lockOperand (h : x.memoryWf) {u va n misuse} :
    Answers Stop.memoryWf (·.2.memoryWf) (x.lockOperand u va n misuse) := by
  unfold Cx.lockOperand
  split
  · dsimp only [Answers]
    split <;> trivial
  · dsimp only [Answers]
    split <;> trivial
  · next he => exact h.operand.of_error he
  · next hy =>
    have hy := h.operand.of_eq hy
    split
    · exact .ite trivial hy
    · exact .ite trivial hy

theorem State.memoryWf.takeLock (h : s.memoryWf) {home slot inc} : (s.takeLock home slot inc).memoryWf := h.setLock

theorem execLdlk_wf (h : s.memoryWf) {z a d} : outcomeWf (execLdlk z a d s) :=
  h.issue fun _ h => .ite trivial (h.lockOperand.bind fun p h => Cx.raceCheck_stops.bind fun _ _ => by
    have h := (Cx.memoryWf.marked h (p := p.1)).commit
    dsimp only
    split
    · exact .ite (State.memoryWf.putCtx (State.memoryWf.takeLock h))
        (State.memoryWf.putCtx (State.memoryWf.setLock h.outstanding))
    · exact State.memoryWf.putCtx h.poisonFlag)

theorem execStul_wf (h : s.memoryWf) {z b a} : outcomeWf (execStul z b a s) :=
  h.issue fun _ h => .ite trivial (h.lockOperand.bind fun _ h => Cx.raceCheck_stops.bind fun _ _ =>
    have h := Cx.memoryWf.commit h
    .ite h.stay (State.memoryWf.putCtx (State.memoryWf.setLock (State.memoryWf.writeMem h.marked))))

theorem execAcq_wf (h : s.memoryWf) {z w a d} : outcomeWf (execAcq z w a d s) :=
  h.issue fun _ h => h.operand.bind fun _ h => Cx.raceCheck_stops.bind fun _ _ =>
    have h := Cx.memoryWf.commit h
    .ite h.stay (State.memoryWf.settle (State.memoryWf.putCtx h.marked.closeInterval.poisonFlag))

theorem execScld_wf (h : s.memoryWf) {z w a d} : outcomeWf (execScld z w a d s) :=
  h.issue fun _ h => h.operand.bind fun p h => Cx.raceCheck_stops.bind fun _ _ => by
    have h := (Cx.memoryWf.marked h (p := p.1)).synchronize
    dsimp only
    split
    · exact h.pendOn
    · exact h.pendOn
    · exact h.poisonFlag.pendOn

theorem State.memoryWf.releaseStore (h : s.memoryWf) {i sc z w b a} : outcomeWf (releaseStore i sc z w b a s) :=
  h.issue fun _ h => h.operand.bind fun _ h => Cx.raceCheck_stops.bind fun _ _ =>
    (Cx.memoryWf.marked h).synchronize.done.pendOn

theorem State.memoryWf.fenceOn (h : s.memoryWf) {i w p q} : outcomeWf (fenceOn i w p q s) :=
  h.issue fun _ h => .ite trivial
    (Cx.memoryWf.pendOn (x := { Cx.synchronize _ with s := _ }) (State.memoryWf.injectFence h.synchronize))

/-! ## Waits -/

theorem execCmt_wf (h : s.memoryWf) : outcomeWf (execCmt s) := h.issueOn fun _ h => h.commit

theorem execTrig_wf (h : s.memoryWf) : outcomeWf (execTrig s) := h.issue fun _ h => h.synchronize.done.pendOn

theorem State.memoryWf.evaluate (h : s.memoryWf) {k} : (s.evaluate k).memoryWf := by
  unfold State.evaluate
  split
  · exact h
  · split
    · split
      · exact h
      · exact h.putCtx
      · exact h.takeTrap
    · exact h

theorem State.memoryWf.wake (h : s.memoryWf) : s.wake.memoryWf := by
  unfold State.wake
  refine h.ite (State.memoryWf.update (s := s.slots.foldl _ s) (h.foldl fun s e h => ?_))
  split
  · split
    · exact h.evaluate
    · exact h
  · exact h

theorem Cx.memoryWf.wait (h : x.memoryWf) {w} : (x.wait w).memoryWf := by
  unfold Cx.wait
  extract_lets y z
  have hy : y.memoryWf := Cx.memoryWf.ite (x := { x with c := _ }) h h
  exact .realignTest (.settle (.evaluate (State.memoryWf.putCtx hy.synchronize)))

theorem State.memoryWf.waitInline (h : s.memoryWf) {i any scope d cond}
    (hc : ∀ x : Cx, x.memoryWf → Answers Stop.memoryWf (·.2.memoryWf) (cond x)) :
    outcomeWf (waitInline i any scope d cond s) :=
  h.issue fun x h => (hc x h).bind fun _ h => Cx.memoryWf.wait h

theorem Cx.memoryWf.inlineCond (h : x.memoryWf) {w} : Answers Stop.memoryWf (·.2.memoryWf) (x.inlineCond w) :=
  h.operand.bind fun _ h => Cx.raceCheck_stops.bind fun _ _ => Cx.memoryWf.poisonFlag h

theorem Cx.memoryWf.pieces (h : x.memoryWf) {u size vas} : Answers Stop.memoryWf (·.2.memoryWf) (x.pieces u size vas) := by
  induction vas generalizing x with
  | nil => exact h
  | cons va vas ih => exact h.operand.bind fun _ h => (ih h).bind fun _ h => h

theorem Cx.memoryWf.firstStop (h : x.memoryWf) {u size vas e} (he : e.memoryWf) : (x.firstStop u size vas e).memoryWf :=
  foldl_keeps (P := Stop.memoryWf) (fun e va he => by
    split
    · next e' h' =>
      split
      · exact h.operand.of_error h'
      · exact he
    · exact he) _ _ he

theorem Cx.memoryWf.placesAt (h : x.memoryWf) {u size vas} :
    Answers Stop.memoryWf (·.2.memoryWf) (x.placesAt u size vas) := by
  unfold Cx.placesAt
  split
  · next hr => exact h.pieces.of_eq hr
  · next he => exact h.firstStop (h.pieces.of_error he)

theorem Cx.memoryWf.places (h : x.memoryWf) {u size va n} : Answers Stop.memoryWf (·.2.memoryWf) (x.places u size va n) :=
  h.placesAt

theorem Answers.mapM {α β : Type} {E : Stop → Prop} {f : α → Except Stop β} (hf : ∀ a, Answers E (fun _ => True) (f a))
    {l : List α} : Answers E (fun _ => True) (l.mapM f) := by
  induction l with
  | nil => trivial
  | cons a l ih =>
    rw [List.mapM_cons]
    exact (hf a).bind fun _ _ => ih.bind fun _ _ => trivial

theorem Cx.memoryWf.readPlaces (h : x.memoryWf) {ps} : Answers Stop.memoryWf Cx.memoryWf (x.readPlaces ps) :=
  (Answers.mapM fun _ => Cx.raceCheck_stops).bind fun _ _ => h.foldl fun _ _ h => h.marked.poisonFlag

theorem Cx.memoryWf.blockCond (h : x.memoryWf) {w} : Answers Stop.memoryWf (·.2.memoryWf) (x.blockCond w) := by
  unfold Cx.blockCond
  refine .ite h ?_
  dsimp only
  split
  · next ho => exact Cx.memoryWf.poisonFlag (h.operand.of_eq ho)
  · exact h
  · exact .ite h trivial
  · next ho => exact h.operand.of_error ho

theorem Cx.memoryWf.blockConds (h : x.memoryWf) {pipes b n} :
    Answers Stop.memoryWf (·.2.memoryWf) (x.blockConds pipes b n) := by
  induction n generalizing x b with
  | zero => exact h
  | succ n ih =>
    refine .ite h (h.blockCond.bind fun p h => ?_)
    dsimp only
    split
    · exact h
    · exact (ih h).bind fun _ h => h

theorem Cx.memoryWf.refuseWait (h : x.memoryWf) {d} : (x.refuseWait d).memoryWf := State.memoryWf.putCtx h.commit

theorem execWaitList_wf (h : s.memoryWf) {c w a d} : outcomeWf (execWaitList c w a d s) :=
  h.issue fun _ h => h.places.bind fun _ h => .ite trivial ((Cx.memoryWf.places h).bind fun _ h => .ite trivial
    ((Cx.memoryWf.readPlaces h).bind fun _ h => .ite h.refuseWait (h.blockConds.bind fun p h => by
      dsimp only
      split
      · exact Cx.memoryWf.refuseWait h
      · exact Cx.memoryWf.wait h)))

theorem execWaitBar_wf (h : s.memoryWf) {c w a d} : outcomeWf (execWaitBar c w a d s) :=
  h.waitInline fun _ h => h.inlineCond

theorem execWaitPipe_wf (h : s.memoryWf) {c w b a d} : outcomeWf (execWaitPipe c w b a d s) :=
  h.waitInline fun _ h => by
    dsimp only
    split
    · exact .ite trivial h
    · trivial

theorem execWaitJoin_wf (h : s.memoryWf) {c w a d} : outcomeWf (execWaitJoin c w a d s) :=
  h.waitInline fun _ h => h.inlineCond

theorem Cx.memoryWf.plainCond (h : x.memoryWf) {kind} : Answers Stop.memoryWf (·.2.memoryWf) (plainCond kind x) := h

theorem execWaitMem_wf (h : s.memoryWf) {z o c w b a d} : outcomeWf (execWaitMem z o c w b a d s) :=
  h.waitInline fun _ h => h.inlineCond

/-! ## Messages, continuations, launches and pipes -/

theorem execSend_wf (h : s.memoryWf) {w a d} : outcomeWf (execSend w a d s) :=
  h.issue fun _ h => h.places.bind fun _ h => .ite trivial ((Cx.memoryWf.places h).bind fun _ h => .ite trivial
    ((Cx.memoryWf.readPlaces h).bind fun x h => by
      have hs : Cx.memoryWf (Cx.synchronize { x with s := { x.s with nextId := x.s.nextId + 1 } }) :=
        .synchronize h.update
      exact .ok (.ite (Cx.memoryWf.pendOn (.done hs.update)) (.settle (Cx.memoryWf.put (.done hs.update))))))

theorem execHtag_wf (h : s.memoryWf) {a n} : outcomeWf (execHtag a n s) :=
  h.issueOn fun _ h => State.memoryWf.setCore h

theorem execSpawn_wf (h : s.memoryWf) {a} : outcomeWf (execSpawn a s) :=
  h.issue fun _ h => h.operand.bind fun p h => Cx.raceCheck_stops.bind fun _ _ => by
    have h := ((Cx.memoryWf.poisonFlag h (p := p.1)).marked (p := p.1)).commit
    exact .ite h.stay (.ite (.ok (Cx.memoryWf.pendOn (.done (.closeInterval h.update)))) (.ok (Cx.memoryWf.put (.done h.update))))

theorem execJoin_wf (h : s.memoryWf) {w a} : outcomeWf (execJoin w a s) :=
  h.issue fun _ h => h.operand.bind fun _ h => Cx.raceCheck_stops.bind fun _ _ =>
    (Cx.memoryWf.marked h).synchronize.done.pendOn

theorem execLaunch_wf (h : s.memoryWf) {w a d} : outcomeWf (execLaunch w a d s) :=
  h.issue fun _ h => h.placesAt.bind fun _ h => (Cx.memoryWf.readPlaces h).bind fun _ h => by
    exact .ok (Cx.memoryWf.pendOn (.done h.synchronize.update))

theorem execWid_wf (h : s.memoryWf) {i d} : outcomeWf (execWid i d s) := h.issueOn fun _ h => h

theorem Cx.noPipe_stop {p use va} : (x.noPipe p use va).memoryWf := by
  unfold Cx.noPipe
  split
  · trivial
  · split <;> trivial
  · trivial

theorem Cx.pipe_stops {p use va} : Answers Stop.memoryWf (fun _ => True) (x.pipe p use va) := by
  unfold Cx.pipe
  refine .ite trivial ?_
  split
  · exact Cx.noPipe_stop
  · split
    · exact .ite trivial trivial
    · exact Cx.noPipe_stop

theorem Cx.memoryWf.readRecord (h : x.memoryWf) {va n} : Answers Stop.memoryWf (·.2.memoryWf) (x.readRecord va n) :=
  h.places.bind fun _ h => .ite trivial ((Cx.memoryWf.checkLines h).bind fun _ h =>
    Cx.memoryWf.foldl h fun _ _ h => h.poisonFlag)

theorem execPpush_wf (h : s.memoryWf) {a p} : outcomeWf (execPpush a p s) :=
  h.issue fun _ h => Cx.pipe_stops.bind fun _ _ => h.readRecord.bind fun _ h =>
    have h := Cx.memoryWf.commit h
    .ite h.stayWaiting (State.memoryWf.putCtx (State.memoryWf.setLaunch h))

theorem execPpop_wf (h : s.memoryWf) {a p} : outcomeWf (execPpop a p s) :=
  h.issue fun _ h => Cx.pipe_stops.bind fun _ _ => h.places.bind fun _ h => (Cx.memoryWf.checkLines h).bind fun _ h => by
    extract_lets -underBinder rest
    have hrest : ∀ u, Answers Stop.memoryWf State.memoryWf (rest u) := fun u => by
      dsimp -zeta only [rest]
      extract_lets -underBinder y store
      have hy : y.memoryWf := Cx.memoryWf.commit h
      have hstore : ∀ (z : Cx) r, z.memoryWf → (store z r).memoryWf := fun z r hz =>
        (hz.foldl fun _ _ h => h.buffer).commit.done
      clear_value y store
      split
      · exact .ok (Cx.memoryWf.put (hstore _ _ hy.update))
      · split
        · exact .ok (Cx.memoryWf.put (hstore _ _ hy.update))
        · exact hy.stayWaiting
    clear_value rest
    exact .ite trivial (hrest _)

theorem execPpeek_wf (h : s.memoryWf) {p d} : outcomeWf (execPpeek p d s) :=
  h.issueOn fun _ h => Cx.pipe_stops.bind fun _ _ => h

/-! ## Migration, leases and notices -/

theorem execMigr_wf (h : s.memoryWf) {a d} : outcomeWf (execMigr a d s) :=
  h.issue fun x h => by
    extract_lets -underBinder va rest
    have hrest : ∀ place, Answers Stop.memoryWf State.memoryWf (rest place) := fun place => by
      dsimp only [rest]
      split
      · exact .ok (State.memoryWf.putCtx h.commit)
      · exact .ok (State.memoryWf.settle (Cx.memoryWf.put h.synchronize.update))
    clear_value rest
    split
    · exact hrest _
    · exact hrest _
    · trivial
    · trivial
    · exact hrest _

theorem State.memoryWf.unlease (h : s.memoryWf) {launch gen blk i} : (s.unlease launch gen blk i).memoryWf := h.update

theorem execLease_wf (h : s.memoryWf) {b c a d} : outcomeWf (execLease b c a d s) :=
  h.issueOn fun x h => State.memoryWf.ite (State.memoryWf.update (s := x.commit.s) h.commit) h.commit

theorem execUnlease_wf (h : s.memoryWf) {b a d} : outcomeWf (execUnlease b a d s) :=
  h.issueOn fun _ h => by
    dsimp only
    split
    · exact h
    · exact State.memoryWf.unlease h

theorem execRole_wf (h : s.memoryWf) {f a d} : outcomeWf (execRole f a d s) := h.issueOn fun _ h => h

theorem State.memoryWf.acknowledge (h : s.memoryWf) {launch gen serial} :
    (s.acknowledge launch gen serial).memoryWf := by
  unfold State.acknowledge
  dsimp only
  split
  · exact State.memoryWf.setLaunch h.update
  · exact h.update

theorem execNack_wf (h : s.memoryWf) {a d} : outcomeWf (execNack a d s) :=
  h.issueOn fun x h => by
    refine .ite ?_ h
    extract_lets t
    have ht : t.memoryWf := State.memoryWf.acknowledge (State.memoryWf.putCtx h)
    clear_value t
    split
    · exact ht
    · exact h

/-! ## Operating points and boosts -/

theorem State.memoryWf.repoint (h : s.memoryWf) {quad q} : (s.repoint quad q).memoryWf :=
  h.setQuad.ite h.update

theorem State.memoryWf.retarget (h : s.memoryWf) {quad} : (s.retarget quad).memoryWf :=
  State.memoryWf.ite h.repoint h.repoint

theorem State.memoryWf.retargetAll (h : s.memoryWf) : s.retargetAll.memoryWf := h.foldl fun _ _ h => h.retarget

theorem State.memoryWf.reboost (h : s.memoryWf) : s.reboost.memoryWf := by
  unfold State.reboost
  split
  · exact h.unsuspend.putCtx.retarget.ite h
  · exact h

theorem execBoost_wf (h : s.memoryWf) {a d} : outcomeWf (execBoost a d s) :=
  h.issue fun x h => by
    extract_lets n dist charge lease running expired ended₀ ended y answer
    have hy : y.memoryWf := .ite (State.memoryWf.putCtx (State.memoryWf.endBoost h)) h
    have ha : ∀ (z : Cx) v, z.memoryWf → (answer z v).memoryWf := fun _ _ hz => hz
    clear_value y answer
    exact .ite (.ok (ha _ _ hy).put) (.ite (.ok (.retarget (Cx.memoryWf.put (ha _ _ hy.update))))
      (.ite (.ok (.retarget (Cx.memoryWf.put (ha _ _ hy.update)))) (.ok (ha _ _ hy).put)))

/-! ## Control registers, traps and translations -/

theorem execCrr_wf (h : s.memoryWf) {r d} : outcomeWf (execCrr r d s) := h.issueOn fun _ h => h

theorem execCrrEvq_wf (h : s.memoryWf) {d} : outcomeWf (execCrrEvq d s) :=
  h.issue fun x h => by
    dsimp only
    split
    · exact State.memoryWf.putCtx h
    · exact (State.memoryWf.putCtx (State.memoryWf.setCore h)).evFill

theorem execCrw_wf (h : s.memoryWf) {r a} : outcomeWf (execCrw r a s) := by
  unfold execCrw
  refine h.issue fun x h => ?_
  · dsimp only
    split
    · exact State.memoryWf.putCtx h
    · exact (State.memoryWf.putCtx h).retarget.ite (State.memoryWf.putCtx h)
    · exact State.memoryWf.putCtx (State.memoryWf.setCore h)

theorem State.memoryWf.requested (h : s.memoryWf) {i sub n resume} : outcomeWf (requested i sub n resume s) :=
  h.issue fun _ _ => trivial

theorem State.memoryWf.stopAgain (h : s.memoryWf) {who c} : (s.stopAgain who c).memoryWf := by
  unfold State.stopAgain
  split
  · exact h.putCtx
  · exact h.takeTrap

theorem State.memoryWf.resumeTrap (h : s.memoryWf) {who c tr inside} : (s.resumeTrap who c tr inside).memoryWf :=
  h.stopAgain

theorem State.memoryWf.returnFrom (h : s.memoryWf) {n} : (s.returnFrom n).memoryWf := by
  unfold State.returnFrom
  dsimp only
  split
  · exact h
  · next c _ =>
    split
    · split
      · exact h.resumeTrap
      · next k _ =>
        have hf := fun killed => Cx.memoryWf.finish (x := { s := s, who := .slot k, c := c }) h
          (discard := true) (killed := killed)
        exact h.resumeTrap.ite ((hf _).killLaunch.ite (hf _))
    · exact h

theorem execEret_wf (h : s.memoryWf) : outcomeWf (execEret s) :=
  h.issue fun x h => by
    dsimp only
    split
    · exact State.memoryWf.putCtx h
    · split
      · exact State.memoryWf.putCtx h
      · exact (State.memoryWf.putCtx h).setSys.returnFrom

theorem execTack_wf (h : s.memoryWf) : outcomeWf (execTack s) :=
  h.issue fun x h => by
    dsimp only
    split
    · exact State.memoryWf.putCtx h
    · exact (State.memoryWf.putCtx h).setSys

theorem State.memoryWf.install (h : s.memoryWf) {tile core e} : (s.install tile core e).memoryWf := by
  unfold State.install
  dsimp only
  split
  · exact h.setTile
  · exact h.setTile.setCore

theorem State.memoryWf.replay (h : s.memoryWf) {core asn inPage} : (s.replay core asn inPage).memoryWf :=
  h.foldl fun s i h => by
    split
    · split
      · exact h.putCtx.ite h
      · exact h
    · exact h

theorem execTlbw_wf (h : s.memoryWf) {b a} : outcomeWf (execTlbw b a s) :=
  h.issueOn fun _ h => h.reach.bind fun _ h => State.sysRead_stops.bind fun _ _ => State.sysRead_stops.bind fun _ _ =>
    (Cx.memoryWf.reach h).bind fun ⟨_, x⟩ h => by
      dsimp -zeta only
      extract_lets tile core status e t
      have ht : t.memoryWf := .ite h (.ite (.install h) (.replay (.install h)))
      clear_value t
      exact (State.memoryWf.sysWrite (State.memoryWf.putCtx ht)).bind fun _ h => h

theorem execTlbi_wf (h : s.memoryWf) {sc a} : outcomeWf (execTlbi sc a s) :=
  h.issueOn fun x h => .ite trivial (State.memoryWf.update (s := x.s) h)

theorem State.memoryWf.cxAt (h : s.memoryWf) {k} (hx : s.cxAt k = some x) : x.memoryWf := by
  unfold State.cxAt at hx
  cases hc : (s.slotAt k).ctx with
  | none => simp [hc] at hx
  | some c =>
    simp only [hc, Option.map_some, Option.some.injEq] at hx
    subst hx
    exact h

/-! ## Memory events -/

theorem execRegionTimeCommit_wf (h : s.memoryWf) : outcomeWf (execRegionTimeCommit s) := h.event (by
  split
  · next hx =>
    split
    · exact .ite (h.cxAt hx).commit.put.settle trivial
    · trivial
  · trivial)

theorem execIntervalTimeClose_wf (h : s.memoryWf) : outcomeWf (execIntervalTimeClose s) := h.event (by
  split
  · next hx =>
    split
    · exact .ite (h.cxAt hx).forceClose.put.settle trivial
    · trivial
  · trivial)

theorem State.memoryWf.lateIntegrity (h : s.memoryWf) {k c l} : (s.lateIntegrity k c l).memoryWf :=
  h.ite (h.foldl fun _ _ h => h.struck)

theorem execLoadDataReturn_wf (h : s.memoryWf) : outcomeWf (execLoadDataReturn s) := h.event (by
  dsimp only
  split
  · trivial
  · split
    · trivial
    · refine .ite trivial ?_
      split
      · exact .ite h.putCtx.lateIntegrity h.putCtx.settle.lateIntegrity
      · exact .ite trivial (.ite h.putCtx.settle.lateIntegrity h.atomicAt.putCtx.settle)
      · trivial)

theorem State.memoryWf.mapFlight (h : s.memoryWf) {id g} : (s.mapFlight id g).memoryWf := h.update

theorem State.memoryWf.landShare (h : s.memoryWf) {f} : (s.landShare f).memoryWf := by
  unfold State.landShare
  split
  · exact h
  · extract_lets off bytes t t'
    have ht' : t'.memoryWf := (State.memoryWf.foldl h fun _ _ h => h.unsee).mapUid
    clear_value t'
    split
    · exact ht'.mended
    · exact ht'

theorem execPostedLineAtHome_wf (h : s.memoryWf) : outcomeWf (execPostedLineAtHome s) := h.event (by
  split
  · trivial
  · exact .ite trivial (.ite h.mapFlight (.ite (.mapFlight (.ite h.landShare (.ite h h.writeLine.mended))) h.mapFlight.async)))

theorem execStaleRequestReturn_wf (h : s.memoryWf) : outcomeWf (execStaleRequestReturn s) := h.event (by
  refine .ite (.of_map fun _ => h.putCtx) ?_
  split
  · trivial
  · exact .ite h.mapFlight trivial)

theorem execStoreAck_wf (h : s.memoryWf) : outcomeWf (execStoreAck s) := h.event (by
  split
  · trivial
  · exact .ite (State.memoryWf.update h).grantJournal.settleAll trivial)

theorem execJournalRetry_wf (h : s.memoryWf) : outcomeWf (execJournalRetry s) := h.retryEntry.next

theorem execJournalDiscard_wf (h : s.memoryWf) : outcomeWf (execJournalDiscard s) := h.discardEntry.next

theorem execCheckedAccessAtHome_wf (h : s.memoryWf) : outcomeWf (execCheckedAccessAtHome s) := h.event (by
  dsimp only
  split
  · trivial
  · next x hx =>
    have hx := h.cxAt hx
    split
    · refine .ite trivial ?_
      split
      · exact maybeWf.ite (State.memoryWf.ite hx.abort.raise (State.memoryWf.putCtx hx.abort)) (.ite hx.raise trivial)
      · exact .of_map fun _ => State.memoryWf.putCtx h.update
    · trivial)

theorem execLockGrant_wf (h : s.memoryWf) : outcomeWf (execLockGrant s) := h.event (by
  dsimp only
  split
  · split
    · trivial
    · split
      · trivial
      · split
        · exact .ite trivial h.setLock.takeLock.putCtx.settle.lateIntegrity
        · trivial
  · trivial)

theorem execWaitConditionMet_wf (h : s.memoryWf) : outcomeWf (execWaitConditionMet s) := (h.ite h.evaluate).next

theorem execWaitTimeout_wf (h : s.memoryWf) : outcomeWf (execWaitTimeout s) := (h.ite h.evaluate).next

theorem execRealignTimeout_wf (h : s.memoryWf) : outcomeWf (execRealignTimeout s) := h.event (by
  split
  · trivial
  · split
    · exact .ite trivial h.putCtx.realignTest
    · trivial)

theorem State.memoryWf.strikeRecord (h : s.memoryWf) : maybeWf s.strikeRecord := by
  unfold State.strikeRecord
  extract_lets strike'
  refine .ite (.bind fun _ => .of_map fun _ => h.putCtx) (.ite (.bind fun r => ?_) (.bind fun _ => .of_map fun _ => h.setLaunch))
  split
  · exact .of_map fun _ => h.update
  · exact .of_map fun _ => h.update

theorem execSoftError_wf (h : s.memoryWf) : outcomeWf (execSoftError s) :=
  h.event (.ite (.ite h.strikeRecord trivial) (.ite (State.memoryWf.update h) trivial))

theorem execUalinkTargetRequest_wf (h : s.memoryWf) : outcomeWf (execUalinkTargetRequest s) :=
  h.event (.ite trivial (.ite (State.memoryWf.update h) (.ite h.writeMem.mendRange
    (.ite trivial (State.memoryWf.update h.atomicAt)))))

/-! ## Chains of the copy and scan engines

The fields of an entry do not matter here: `listNat`, which reads them, is made a variable where Lean would begin to evaluate it. -/

theorem State.memoryWf.setChain (h : s.memoryWf) {c} : (s.setChain c).memoryWf := h.update

theorem State.memoryWf.dropChain (h : s.memoryWf) {c} : (s.dropChain c).memoryWf := h.update

theorem State.memoryWf.chainAt (h : s.memoryWf) {c entry} : (s.chainAt c entry).memoryWf := h.setChain

theorem State.memoryWf.chainNext (h : s.memoryWf) {c} : (s.chainNext c).memoryWf := h.chainAt

theorem State.memoryWf.entryIntegrity (h : s.memoryWf) {c} : (s.entryIntegrity c).memoryWf := by
  refine h.ite ?_
  split
  · exact h.integrityBlocks
  · exact h

theorem State.memoryWf.chainFail (h : s.memoryWf) {c code} : (s.chainFail c code).memoryWf := h.entryIntegrity.dropChain.report

theorem State.memoryWf.copyFail (h : s.memoryWf) {l code} : (s.copyFail l code).memoryWf :=
  .ite (.report h.update) h.update

theorem State.memoryWf.chainDo (h : s.memoryWf) {c r} (hr : Answers (fun _ => True) State.memoryWf r) :
    maybeWf (s.chainDo c r) := by
  unfold State.chainDo
  split
  · exact State.memoryWf.entryIntegrity hr
  · trivial
  · exact h.chainFail

theorem State.memoryWf.chainEvent (h : s.memoryWf) {kind body}
    (hb : ∀ c b, Answers (fun _ => True) State.memoryWf (body s c b)) : outcomeWf (chainEvent kind body s) := h.event (by
  split
  · trivial
  · refine .ite trivial ?_
    split
    · trivial
    · exact .ite (h.chainDo (hb _ _)) trivial)

theorem State.memoryWf.chainStart (h : s.memoryWf) {engine node agent} : maybeWf (s.chainStart engine node agent) := by
  unfold State.chainStart
  split
  · trivial
  · exact State.memoryWf.engCross h.update

theorem execCopyChainStart_wf (h : s.memoryWf) : outcomeWf (execCopyChainStart s) := h.event (.ite trivial h.chainStart)

theorem execScanChainStart_wf (h : s.memoryWf) : outcomeWf (execScanChainStart s) := h.event (.ite trivial h.chainStart)

theorem execChainLoop_wf (h : s.memoryWf) : outcomeWf (execChainLoop s) := h.chainEvent fun c b => by
  dsimp only
  refine .ite trivial (.ite trivial ?_)
  split
  · exact .ite h.chainAt h.chainNext
  · exact h

theorem State.memoryWf.chainTest (h : s.memoryWf) {c b onZero} :
    Answers (fun _ => True) State.memoryWf (s.chainTest c b onZero) := by
  unfold State.chainTest
  generalize listNat = num
  exact .ite trivial (.ite trivial (.ite trivial (Answers.any.bind fun _ _ =>
    .ite h.integrityAll.chainNext h.integrityAll.chainAt)))

theorem execChainIfz_wf (h : s.memoryWf) : outcomeWf (execChainIfz s) := h.chainEvent fun _ _ => h.chainTest

theorem execChainIfnz_wf (h : s.memoryWf) : outcomeWf (execChainIfnz s) := h.chainEvent fun _ _ => h.chainTest

theorem State.memoryWf.barAdd (h : s.memoryWf) {home n} : (s.barAdd home n).memoryWf := h.bankWrite

theorem execChainSignal_wf (h : s.memoryWf) : outcomeWf (execChainSignal s) := h.chainEvent fun _ _ => by
  generalize listNat = num
  exact .ite trivial (.ite trivial (.ite h.postEvent.chainNext (.ite trivial (Answers.any.bind fun _ _ =>
    .ite trivial (.ite trivial h.barAdd.chainNext)))))

theorem execChainEnd_wf (h : s.memoryWf) : outcomeWf (execChainEnd s) := h.event (by
  split
  · trivial
  · refine .ite trivial ?_
    split
    · trivial
    · exact h.chainFail
    · generalize listNat = num
      exact .ite trivial (.ite h.chainFail (.ite trivial h.dropChain.report)))

theorem State.memoryWf.beginLines (h : s.memoryWf) {c dst overlap lines size} :
    (s.beginLines c dst overlap lines size).memoryWf := h.update

theorem State.memoryWf.copyLine (h : s.memoryWf) {l} : Answers (fun _ => True) State.memoryWf (s.copyLine l) :=
  Answers.any.bind fun _ _ => Answers.any.bind fun keys _ => by
    dsimp only
    have ht := fun v : List (Nat × Byte) => (h.foldl (l := v) (f := fun t p =>
      match keys.find? (·.1 == p.1) with
      | some k => t.putKey l.writer k.2 p.2
      | none => t) fun _ _ h => by
        split
        · exact h.putKey
        · exact h).mendKeys (e := l.writer) (keys := keys.map (·.2))
    exact Answers.ok (.ite (ht _) ((ht _).foldl fun _ _ h => h.integrityAll))

theorem State.memoryWf.lineEvent (h : s.memoryWf) {kind} : outcomeWf (lineEvent kind s) := h.event (by
  split
  · trivial
  · split
    · trivial
    · exact h.copyFail
    · next ht => exact State.memoryWf.update (h.copyLine.of_eq ht))

theorem State.memoryWf.beginCopy (h : s.memoryWf) {c b} : Answers (fun _ => True) State.memoryWf (s.beginCopy c b) := by
  unfold State.beginCopy
  generalize listNat = num
  extract_lets mode len src dst go
  have hgo : ∀ l o n, Answers (fun _ => True) State.memoryWf (go l o n) := fun l o n => by
    dsimp only [go]
    split
    · trivial
    · exact h.beginLines.chainNext
  clear_value go
  exact .ite trivial (.ite (hgo _ _ _) (Answers.any.bind fun _ _ => Answers.any.bind fun _ _ => .ite trivial (hgo _ _ _)))

theorem execChainCopy_wf (h : s.memoryWf) : outcomeWf (execChainCopy s) := by
  unfold execChainCopy
  split
  · exact h.chainEvent fun _ _ => h.beginCopy
  · exact h.lineEvent

theorem State.memoryWf.unstage (h : s.memoryWf) {l} : (s.unstage l).memoryWf := h.ite h.update

theorem State.memoryWf.sendMcast (h : s.memoryWf) {c barrier lines rs} : (s.sendMcast c barrier lines rs).memoryWf :=
  State.memoryWf.foldl (.ite h.announce h) fun _ _ h => h.update

theorem execChainMcast_wf (h : s.memoryWf) : outcomeWf (execChainMcast s) := h.chainEvent fun c b => by
  generalize listNat = num
  extract_lets g0 doff mask boff
  refine .ite (.ite trivial trivial) (.ite trivial (.ite trivial (.ite h.chainNext (Answers.any.bind fun r _ => ?_))))
  extract_lets rs tiles end_ go kernel
  refine .ite trivial (.ite trivial (.ite trivial ?_))
  split
  · exact h.integrityElems.sendMcast.chainNext
  · trivial
  · exact .ite h.integrityElems.setChain (Answers.any.bind fun _ _ => h.integrityElems.sendMcast.setChain)

theorem execMcastLineArrival_wf (h : s.memoryWf) : outcomeWf (execMcastLineArrival s) := h.event (by
  split
  · trivial
  · next l hl =>
    refine .ite trivial ?_
    extract_lets line n bar s'
    have hs' : s'.memoryWf := h.update
    refine .ite ?_ hs'.unstage.writeLine.mended.barAdd
    exact (maybeWf.of_map fun _ => hs'.unstage.chainFail).getD hs'.unstage)

theorem State.memoryWf.beginDeal (h : s.memoryWf) {c b} : Answers (fun _ => True) State.memoryWf (s.beginDeal c b) := by
  unfold State.beginDeal
  generalize listNat = num
  refine .ite trivial (.ite trivial (.ite trivial (.ite trivial ?_)))
  split
  · trivial
  · exact State.memoryWf.chainNext (h.foldl fun _ _ h => h.beginLines)

theorem execChainDeal_wf (h : s.memoryWf) : outcomeWf (execChainDeal s) := by
  unfold execChainDeal
  split
  · exact h.chainEvent fun _ _ => h.beginDeal
  · exact h.lineEvent

/-! ## The matrix engine -/

theorem State.memoryWf.own (h : s.memoryWf) {uid core k logical} : (s.own uid core k logical).memoryWf := h.setSub

theorem State.memoryWf.grant (h : s.memoryWf) {tile} : maybeWf (s.grant tile) := by
  unfold State.grant
  split
  · trivial
  · exact State.memoryWf.enterQueues (.setTile (.ite h.setCore.own h.setCore))

theorem State.memoryWf.integritySlices (h : s.memoryWf) {m off n} : (s.integritySlices m off n).memoryWf :=
  h.foldl fun _ _ h => h.integrityPhys

theorem State.memoryWf.integrityQuant (h : s.memoryWf) {m} : (s.integrityQuant m).memoryWf := by
  unfold State.integrityQuant
  split
  · exact h.integrityBlocks.integritySlices.integritySlices
  · exact h

theorem State.memoryWf.integrityRow (h : s.memoryWf) {m : MCmd} {addrs : List Nat} {va n} :
    (if m.kind = 2 then addrs.foldl (fun s a => s.integrityPhys m.eng a 64) s else s.integrityAll m.eng va n).memoryWf :=
  .ite (h.foldl fun _ _ h => h.integrityPhys) h.integrityAll

theorem State.memoryWf.integrityMma (h : s.memoryWf) {m} : (s.integrityMma m).memoryWf := by
  refine h.ite ?_
  extract_lets n p s₁ s₂
  have h₁ : s₁.memoryWf := h.foldl fun _ _ h => h.integrityRow
  exact .ite h₁.integritySlices.integrityQuant h₁.integritySlices

theorem State.memoryWf.mma (h : s.memoryWf) {m} : Answers (fun _ => True) State.memoryWf (s.mma m) := by
  unfold State.mma
  extract_lets fa fb g groups bn off cols sub ok
  refine .ite trivial (.ite trivial (.ite trivial (Answers.any.bind fun _ _ => ?_)))
  extract_lets rest
  have hrest : ∀ q, Answers (fun _ => True) State.memoryWf (rest q) := fun _ => h.setSub.integrityMma
  clear_value rest
  exact .ite (.ite trivial (Answers.any.bind fun _ _ => Answers.any.bind fun _ _ => Answers.any.bind fun _ _ => hrest _))
    (hrest _)

theorem State.memoryWf.fillOverlay (h : s.memoryWf) {e off r l} : (s.fillOverlay e off r l).memoryWf :=
  State.memoryWf.mendKeys (h.foldl fun _ _ h => h.writeByte)

theorem State.memoryWf.mldb (h : s.memoryWf) {m} : Answers (fun _ => True) (·.2.1.memoryWf) (s.mldb m) := by
  unfold State.mldb
  extract_lets e off
  refine .ite trivial (Answers.any.bind fun r _ => .ite trivial (.ite trivial ?_))
  split
  · exact h.fillOverlay.integrityTile
  · trivial
  · exact h.fillOverlay

theorem State.memoryWf.mdrn (h : s.memoryWf) {m} : Answers (fun _ => True) (·.1.memoryWf) (s.mdrn m) := by
  unfold State.mdrn
  extract_lets e elems ok rest
  refine .ite trivial ?_
  have hrest : ∀ d, Answers (fun _ => True) (·.1.memoryWf) (rest d) := fun d => by
    dsimp only [rest]
    split
    · trivial
    · next hs =>
      have ht := h.engStore.of_eq hs
      exact ht
    · next hs =>
      have ht := h.engStore.of_eq hs
      exact ht
  clear_value rest
  exact .ite (Answers.any.bind fun d _ => hrest d) (hrest [])

theorem State.memoryWf.runMatrix (h : s.memoryWf) {m} : maybeWf (s.runMatrix m) := by
  unfold State.runMatrix
  dsimp only
  split
  · exact h.setSub
  · split
    · trivial
    · exact h.report.integrityBlocks
    · next hr => exact (h.mldb.of_eq hr).report.integrityBlocks
  · split
    · trivial
    · exact h.report.integrityBlocks
    · next hr => exact (h.mdrn.of_eq hr).report.integrityBlocks
  · split
    · trivial
    · exact h.report.integrityBlocks
    · next hr => exact h.mma.of_eq hr

theorem execMatrixGrant_wf (h : s.memoryWf) : outcomeWf (execMatrixGrant s) := h.event h.grant

theorem execMatrixCommandDone_wf (h : s.memoryWf) : outcomeWf (execMatrixCommandDone s) := h.event (by
  dsimp only
  split
  · trivial
  · exact h.engCross.runMatrix.map fun _ h => h.setTile)

theorem execSubtileRelease_wf (h : s.memoryWf) : outcomeWf (execSubtileRelease s) := h.event (by
  dsimp only
  split
  · trivial
  · exact .ite trivial h.setSub)

/-! ## Announcements and messages -/

theorem State.memoryWf.resetTile (h : s.memoryWf) {tile} : (s.resetTile tile).memoryWf := State.memoryWf.update h.zeroFill

theorem State.memoryWf.applyEntry (h : s.memoryWf) {e} : (s.applyEntry e).memoryWf := by
  unfold State.applyEntry
  extract_lets old pa s₁ s₂
  have h₁ : s₁.memoryWf := .ite h.zeroFill.poolBound h
  have h₂ : s₂.memoryWf := .ite h₁.resetTile h₁
  exact h₂.setRole

theorem State.memoryWf.clearNotice (h : s.memoryWf) {serial} : (s.clearNotice serial).memoryWf := h.update

theorem State.memoryWf.applyRoles (h : s.memoryWf) {a} : (s.applyRoles a).memoryWf := by
  unfold State.applyRoles
  extract_lets s₁ s₂
  have h₂ : s₂.memoryWf := State.memoryWf.update (s := s₁) (h.foldl fun _ _ h => h.applyEntry)
  clear_value s₂
  split
  · exact h₂
  · refine .ite (.ite (State.memoryWf.clearNotice ?_) ?_) (.ite h₂.update h₂.update)
    · exact State.memoryWf.stopping h₂.update
    · exact State.memoryWf.stopping h₂.update

theorem State.memoryWf.completionJoin (h : s.memoryWf) {asn va delivered} : (s.completionJoin asn va delivered).memoryWf := by
  unfold State.completionJoin
  dsimp only
  split
  · exact h.orphan.forgetWalks
  · exact h.update
  · exact .ite h.orphan (.ite h.joinAt h.announce)

theorem State.memoryWf.moveSeek (h : s.memoryWf) {uid a b} : (s.moveSeek uid a b).memoryWf := h.setLock.setLock

theorem State.memoryWf.moveLocks (h : s.memoryWf) {m} : (s.moveLocks m).memoryWf := by
  unfold State.moveLocks
  extract_lets s₁ seeks s₂
  have h₁ : s₁.memoryWf := h.foldl fun _ _ h => h.foldl fun _ _ h => h.ite h.setLock.setLock
  clear_value s₁
  have h₂ : s₂.memoryWf := h₁.foldl fun _ _ h => h.foldl fun _ _ h => by
    split
    · exact h.ite h.moveSeek
    · exact h
  exact State.memoryWf.update h₂

theorem State.memoryWf.blocksLeave (h : s.memoryWf) {m} : (s.blocksLeave m).memoryWf := h.update

theorem State.memoryWf.applyTranslation (h : s.memoryWf) {asn va} : (s.applyTranslation asn va).memoryWf := by
  unfold State.applyTranslation
  split
  · exact h
  · next m _ => exact State.memoryWf.update (h.blocksLeave (m := m))

theorem State.memoryWf.applyAnnounce (h : s.memoryWf) {a} : (s.applyAnnounce a).memoryWf := by
  unfold State.applyAnnounce
  split
  · exact h.update
  · exact h.applyRoles
  · exact h.applyTranslation
  · split
    · exact h.completionJoin
    · exact State.memoryWf.settleAll (State.memoryWf.mapUid h.update)

theorem execPanpipeDelivery_wf (h : s.memoryWf) : outcomeWf (execPanpipeDelivery s) :=
  h.event (.ite trivial (State.memoryWf.foldl (.settleAll h.update) fun _ _ h => h.applyAnnounce))

theorem execRoleMapAck_wf (h : s.memoryWf) : outcomeWf (execRoleMapAck s) := h.event (by
  dsimp only
  split
  · trivial
  · exact .ite trivial (State.memoryWf.update h))

theorem execInjectionSend_wf (h : s.memoryWf) : outcomeWf (execInjectionSend s) := h.event (by
  dsimp only
  split
  · exact State.memoryWf.settleAll h.update
  · trivial)

theorem State.memoryWf.bounce (h : s.memoryWf) {p status} : maybeWf (s.bounce p status) := by
  unfold State.bounce
  extract_lets r lost e
  have hlost : lost.memoryWf := h.orphan
  clear_value lost
  refine .ite hlost ?_
  split
  · trivial
  · next ht =>
    have ht := h.engPut.of_eq ht
    exact State.memoryWf.ite ht hlost

theorem State.memoryWf.intoInbox (h : s.memoryWf) {core p target} : (s.intoInbox core p target).memoryWf := h.setCore

theorem State.memoryWf.deliverInbox (h : s.memoryWf) {asked p target} : maybeWf (s.deliverInbox asked p target) :=
  .ite h.bounce (.ite trivial h.intoInbox)

theorem State.memoryWf.barrierAt (h : s.memoryWf) {opcode home value} : (s.barrierAt opcode home value).memoryWf :=
  .ite h.bankWrite.bankWrite h.bankWrite

theorem State.memoryWf.sentBarrier (h : s.memoryWf) {p} : maybeWf (s.sentBarrier p) := by
  refine maybeWf.ite h.report ?_
  split
  · trivial
  · exact h.report
  · exact .ite h.report (.ite trivial h.barrierAt)

theorem State.memoryWf.deliver (h : s.memoryWf) {p} : maybeWf (s.deliver p) := by
  unfold State.deliver
  extract_lets instr onTile onHub working arrive
  have harrive : maybeWf arrive := .ite (State.memoryWf.update h) trivial
  clear_value arrive
  refine .ite (.ite h (.ite h.bounce (.ite h.deliverInbox ?_)))
    (.ite (.ite h.bounce (.ite harrive h.bounce)) (.ite (.ite h.bounce h.bounce) (.ite (.ite h.bounce ?_)
      (.ite (.ite h.bounce (.ite harrive h.bounce)) ?_))))
  · split
    · exact h.deliverInbox
    · exact State.memoryWf.update h
    · exact h.bounce
  · split
    · trivial
    · exact .ite h.bounce (.ite h.bounce (.ite trivial h.setBank))
  · split
    · exact .ite h.barrierAt trivial
    · exact .ite h.bounce h.sentBarrier

theorem execMessageDelivery_wf (h : s.memoryWf) : outcomeWf (execMessageDelivery s) := h.event (by
  split
  · trivial
  · exact .ite (State.memoryWf.deliver h.update) trivial)

theorem execHandlerCreate_wf (h : s.memoryWf) : outcomeWf (execHandlerCreate s) := h.event (by
  dsimp only
  split
  · trivial
  · split
    · trivial
    · split
      · trivial
      · exact .ite trivial (State.memoryWf.update h))

theorem execRecordPass_wf (h : s.memoryWf) : outcomeWf (execRecordPass s) := h.event (by
  split
  · trivial
  · split
    · trivial
    · refine .ite trivial ?_
      split
      · trivial
      · exact State.memoryWf.update h)

/-! ## Host queues and launches -/

theorem State.memoryWf.setQueue (h : s.memoryWf) {q v} : (s.setQueue q v).memoryWf := h.update

theorem State.memoryWf.submit (h : s.memoryWf) {q} : maybeWf (s.submit q) := by
  refine .ite trivial ?_
  split
  · exact h.setQueue
  · next ht => exact (h.enqueue.of_eq ht).bankWrite.bankWrite.bankWrite.setQueue

theorem State.memoryWf.pump (h : s.memoryWf) {q n} : (State.pump q n s).memoryWf := by
  induction n generalizing s with
  | zero => exact h
  | succ n ih =>
    unfold State.pump
    split
    · next ht => exact ih (h.submit.of_eq ht)
    · exact h

theorem State.memoryWf.runQueue (h : s.memoryWf) {q} : (s.runQueue q).memoryWf := .ite h.pump h

theorem State.memoryWf.ring (h : s.memoryWf) {q tail} : (s.ring q tail).memoryWf := .ite h.setQueue.runQueue h.setQueue

theorem execDoorbell_wf (h : s.memoryWf) : outcomeWf (execDoorbell s) :=
  h.event (.ite trivial (.ite h (.ite h.cross.ring h.cross.setQueue)))

theorem State.memoryWf.unlatch (h : s.memoryWf) : s.unlatch.memoryWf := h.foldl fun _ _ h => by
  split
  · exact h.ring
  · exact h.runQueue

theorem execCompletionDoorbell_wf (h : s.memoryWf) : outcomeWf (execCompletionDoorbell s) :=
  h.event (.ite trivial h.setQueue.runQueue)

theorem execQcplWrite_wf (h : s.memoryWf) : outcomeWf (execQcplWrite s) := h.event (.ite trivial h.setQueue)

theorem execLaunchEnqueueResume_wf (h : s.memoryWf) : outcomeWf (execLaunchEnqueueResume s) :=
  h.event (.ite (.ite h.setQueue.runQueue trivial) h.settle)

theorem execRackLaunch_wf (h : s.memoryWf) : outcomeWf (execRackLaunch s) := h.event (by
  refine .ite trivial ?_
  split
  · trivial
  · next ht => exact State.memoryWf.update (h.enqueue.of_eq ht))

theorem execLaunchAdmission_wf (h : s.memoryWf) : outcomeWf (execLaunchAdmission s) := h.event (by
  split
  · trivial
  · exact .ite trivial (State.memoryWf.admitLaunch h.update))

theorem execLaunchEndWrite_wf (h : s.memoryWf) : outcomeWf (execLaunchEndWrite s) := h.endHandle.next

theorem State.memoryWf.endInstance (h : s.memoryWf) {c} : (s.endInstance c).memoryWf := by
  unfold State.endInstance
  split
  · exact h
  · exact .ite h.setLaunch h

theorem State.memoryWf.vacate (h : s.memoryWf) {k} : (s.vacate k).memoryWf := h.setSlot

theorem execFiringRetire_wf (h : s.memoryWf) : outcomeWf (execFiringRetire s) := h.event (by
  dsimp only
  split
  · trivial
  · split
    · exact .ite trivial h.discardEvents.setCore.countEnded.vacate.evFill.endInstance.retarget
    · trivial)

theorem State.memoryWf.freeBlocks (h : s.memoryWf) {i gen} : (s.freeBlocks i gen).memoryWf := h.foldl fun _ _ h => by
  refine .ite (h.foldl fun _ _ h => ?_) ?_
  · split
    · exact h.release
    · exact h
  · split
    · exact h.setPool
    · exact h

theorem State.memoryWf.completion (h : s.memoryWf) {i l} : (s.completion i l).memoryWf := by
  unfold State.completion
  split
  · exact h.completionJoin
  · exact h.postEvent
  · exact h

theorem execLaunchComplete_wf (h : s.memoryWf) : outcomeWf (execLaunchComplete s) := h.event (by
  dsimp only
  split
  · trivial
  · next l _ =>
    have ht := (h.freeBlocks (i := s.args.a) (gen := l.gen)).completion (i := s.args.a) (l := l)
    exact .ite trivial ht.update)

theorem execCompletionJoinResume_wf (h : s.memoryWf) : outcomeWf (execCompletionJoinResume s) := h.event (by
  split
  · trivial
  · exact State.memoryWf.completionJoin h.update)

/-! ## The dispatcher -/

theorem State.memoryWf.handlerRuns (h : s.memoryWf) {core entry} : (s.handlerRuns core entry).memoryWf := h.setCore

theorem State.memoryWf.start (h : s.memoryWf) {k r} : (s.start k r).memoryWf := by
  unfold State.start
  split
  · exact h
  · extract_lets s₁ core c s₂
    have h₁ : s₁.memoryWf := h.update
    clear_value s₁
    split
    · exact h₁.enter.feed.retarget
    · have h₂ : s₂.memoryWf := by
        dsimp only [s₂]
        split
        · exact h₁.handlerRuns
        · exact h₁
      clear_value s₂
      exact State.memoryWf.retarget (State.memoryWf.feed (State.memoryWf.enter h₂.update))

theorem State.memoryWf.startGang (h : s.memoryWf) {k r} : (s.startGang k r).memoryWf := by
  unfold State.startGang
  extract_lets slots mem s₁ clear s₂
  have h₁ : s₁.memoryWf := h.foldl fun _ _ h => h.start
  have h₂ : s₂.memoryWf := State.memoryWf.update h₁
  clear_value s₂
  split
  · exact h₂.setLaunch
  · exact h₂

theorem State.memoryWf.passOver (h : s.memoryWf) {k l} : (s.passOver k l).memoryWf := h.update

theorem State.memoryWf.fillSlot (h : s.memoryWf) {k} : maybeWf (s.fillSlot k) := by
  unfold State.fillSlot
  extract_lets mine mine' fit
  split
  · exact .ite trivial h.passOver
  · exact .ite (.ite h.passOver.startGang h.passOver.setSlot) h.passOver.start

theorem execResidencyReport_wf (h : s.memoryWf) : outcomeWf (execResidencyReport s) := h.event (by
  split
  · trivial
  · exact .ite trivial (State.memoryWf.update h))

/-- The state of a pair that the model takes apart. -/
theorem State.memoryWf.of_pair {α : Type} {p : State × α} {a : α} (hp : p.1.memoryWf) (h : p = (t, a)) : t.memoryWf := by
  subst h
  exact hp

theorem State.memoryWf.relocate (h : s.memoryWf) {src dst suspended c} : (s.relocate src dst suspended c).memoryWf := by
  unfold State.relocate
  split
  next s₁ c₁ h₁ =>
    split
    next s₂ c₂ h₂ =>
      refine State.memoryWf.retarget (State.memoryWf.retarget (State.memoryWf.enter (.of_pair (.leave (.of_pair ?_ h₁)) h₂)))
      split
      · exact h.suspend
      · split
        · split
          · exact h
          · dsimp only
            split
            · exact h.unreserve.reserve
            · exact h.unreserve
        · exact h

theorem State.memoryWf.parkContext (h : s.memoryWf) {k c} : (s.parkContext k c).memoryWf := by
  unfold State.parkContext
  split
  next s₁ c₁ h₁ =>
    split
    next s₂ c₂ h₂ =>
      exact State.memoryWf.retarget (State.memoryWf.update (.of_pair (.leave (.of_pair h.suspend h₁)) h₂))

theorem State.memoryWf.closeStopped (h : s.memoryWf) {k c} :
    ((({ s := s, who := .slot k, c := c } : Cx).closeStopped.put).settle k).memoryWf :=
  (Cx.memoryWf.closeStopped (x := { s := s, who := .slot k, c := c }) h).put.settle

theorem State.memoryWf.moveOut (h : s.memoryWf) {k c} : maybeWf (s.moveOut k c) := by
  refine maybeWf.ite h.closeStopped (.ite trivial ?_)
  split
  · exact h.relocate
  · exact h.parkContext

theorem State.memoryWf.preempt (h : s.memoryWf) {k c} : maybeWf (s.preempt k c) := by
  unfold State.preempt
  split
  · trivial
  · exact .ite h.moveOut trivial

theorem execDispatch_wf (h : s.memoryWf) : outcomeWf (execDispatch s) := h.event (by
  refine maybeWf.ite trivial ?_
  split
  · exact h.preempt
  · exact h.fillSlot)

theorem execPipeActorFire_wf (h : s.memoryWf) : outcomeWf (execPipeActorFire s) := h.event (by
  dsimp only
  split
  · trivial
  · split
    · trivial
    · refine .ite trivial ?_
      split
      · trivial
      · exact State.memoryWf.update h)

theorem execPriorityAge_wf (h : s.memoryWf) : outcomeWf (execPriorityAge s) := h.event (by
  split
  · trivial
  · exact .ite trivial (State.memoryWf.update h))

theorem execFitStarvation_wf (h : s.memoryWf) : outcomeWf (execFitStarvation s) := h.event (by
  split
  · trivial
  · exact .ite (State.memoryWf.update h) trivial)

theorem execMigrationComplete_wf (h : s.memoryWf) : outcomeWf (execMigrationComplete s) := h.event (by
  split
  · refine .ite trivial ?_
    split
    · extract_lets answer t
      have ht : t.memoryWf := h.update
      clear_value t answer
      split
      · exact ht.relocate
      · exact ht.putCtx
    · trivial
  · trivial)

theorem execForwardingExpire_wf (h : s.memoryWf) : outcomeWf (execForwardingExpire s) := h.event (.ite trivial h.setSlot)

/-! ## Recasts -/

theorem State.memoryWf.roleUpdate (h : s.memoryWf) {tile step entries} : (s.update tile step entries).memoryWf := h.announce

theorem State.memoryWf.setRecast (h : s.memoryWf) {r} : (s.setRecast r).memoryWf := h.update

theorem execCensusSample_wf (h : s.memoryWf) : outcomeWf (execCensusSample s) := h.event (.ite trivial (State.memoryWf.update h))

theorem State.memoryWf.promise (h : s.memoryWf) {tile} : (s.promise tile).memoryWf := by
  unfold State.promise
  split
  · exact .ite ((maybeWf.of_map fun _ => h.setRecast).getD h) h
  · exact h

theorem State.memoryWf.noticeLaunch (h : s.memoryWf) {tile serial deadline e} :
    (s.noticeLaunch tile serial deadline e).memoryWf := .ite h.update h.update

theorem State.memoryWf.beginRecast (h : s.memoryWf) {tile role lead} : (s.beginRecast tile role lead).memoryWf :=
  State.memoryWf.roleUpdate (State.memoryWf.foldl h.update fun _ _ h => h.noticeLaunch)

theorem execRecastProposal_wf (h : s.memoryWf) : outcomeWf (execRecastProposal s) := h.event (by
  extract_lets tile role bind window block code s₁
  have h₁ : s₁.memoryWf := h.update
  exact .ite trivial (.ite h₁ (.ite h₁.roleUpdate h₁.beginRecast.promise)))

theorem execRecastDeadline_wf (h : s.memoryWf) : outcomeWf (execRecastDeadline s) := h.event (by
  dsimp only
  split
  · trivial
  · exact .ite trivial (.ite (.of_map fun _ => h.setRecast.roleUpdate) (.of_map fun _ => h.setRecast.roleUpdate)))

theorem execStorageCopyDone_wf (h : s.memoryWf) : outcomeWf (execStorageCopyDone s) := h.event (by
  dsimp only
  split
  · trivial
  · exact .ite trivial (.ite (.of_map fun _ => h.setRecast.roleUpdate) (.ite h.setRecast h.setRecast.roleUpdate)))

theorem State.memoryWf.moveBank (h : s.memoryWf) {r q} : (s.moveBank r q).memoryWf := by
  unfold State.moveBank
  extract_lets a goal waiting bank s₁ s₂ b lo s₃ bad
  have h₂ : s₂.memoryWf := State.memoryWf.foldl h.setBank fun _ _ h => h.setBank
  have h₃ : s₃.memoryWf := h₂.cabZero.foldl fun _ _ h => h.writeByte
  exact State.memoryWf.ite h₃.update h₂

theorem State.memoryWf.holdStrays (h : s.memoryWf) {r} : (s.holdStrays r).memoryWf := h.foldl fun _ _ h => h.setSub

theorem State.memoryWf.moveStrays (h : s.memoryWf) {r} : (s.moveStrays r).memoryWf := h.foldl fun _ _ h => h.setSub.setSub

theorem State.memoryWf.pipesAway (h : s.memoryWf) {r l} : (s.pipesAway r l).memoryWf := h.foldl fun _ _ h => by
  split
  · exact .ite h.setLaunch h
  · exact h

theorem State.memoryWf.evict (h : s.memoryWf) {r k c} : (s.evict r k c).memoryWf := by
  unfold State.evict
  dsimp only
  split
  · split
    · exact h.relocate
    · exact h.parkContext
  · split
    · exact h.relocate
    · exact h.parkContext

theorem State.memoryWf.relocateAll (h : s.memoryWf) {r l} : maybeWf (s.relocateAll r l) := by
  induction l generalizing s with
  | nil => exact h
  | cons e l ih => exact .bind fun _ => ih h.relocate

theorem State.memoryWf.evictGang (h : s.memoryWf) {r l} : (s.evictGang r l).memoryWf :=
  h.relocateAll.getD (h.foldl fun _ _ h => h.parkContext)

theorem State.memoryWf.evictAll (h : s.memoryWf) {r} : (s.evictAll r).memoryWf :=
  State.memoryWf.foldl (h.foldl fun _ _ h => h.evictGang) fun _ _ h => h.evict

theorem State.memoryWf.moveInboxes (h : s.memoryWf) {r} : maybeWf (s.moveInboxes r) :=
  maybeWf.foldlM (fun _ _ h => maybeWf.foldlM (fun s m h => by
    refine maybeWf.bind (o := (s.coreAt (s.msgCore r _ m)).takeMsg m) fun k => ?_
    exact State.memoryWf.update h) h) h

theorem State.memoryWf.vacateTile (h : s.memoryWf) {r} : maybeWf (s.vacateTile r) :=
  maybeWf.ite (h.foldl fun _ _ h => h.closeStopped) (.ite trivial (.bind fun _ =>
    h.moveInboxes.map fun _ h => .setRecast (.evictAll (.holdStrays h.update))))

theorem State.memoryWf.rebindTile (h : s.memoryWf) {r} : maybeWf (s.rebindTile r) :=
  .ite trivial h.pipesAway.moveStrays.moveBank.moveBank.roleUpdate

theorem execComputeRecastRebind_wf (h : s.memoryWf) : outcomeWf (execComputeRecastRebind s) := h.event (by
  dsimp only
  split
  · trivial
  · exact .ite trivial (.ite h.vacateTile h.rebindTile))

theorem execRecastFinish_wf (h : s.memoryWf) : outcomeWf (execRecastFinish s) := h.event (by
  dsimp only
  split
  · trivial
  · exact .ite trivial h.roleUpdate)

theorem execLeaseExpire_wf (h : s.memoryWf) : outcomeWf (execLeaseExpire s) := h.event (by
  split
  · trivial
  · exact .ite (State.memoryWf.update h) trivial)

theorem State.memoryWf.cabTake (h : s.memoryWf) {b m} : maybeWf (s.cabTake b m) :=
  h.engCross.cabRun.andThen fun _ h => .ite h.cabIntegrity (.ite trivial h.cabIntegrity.promise)

theorem execCabArrival_wf (h : s.memoryWf) : outcomeWf (execCabArrival s) := h.event (by
  dsimp only
  split
  · trivial
  · exact .ite trivial h.setBank.cabTake)

/-! ## Branches and commands to the engines -/

theorem State.memoryWf.branch (h : s.memoryWf) {i off b a p} : outcomeWf (branch i off b a p s) :=
  h.issueOn fun _ h => Cx.memoryWf.ite h h

theorem execLoop_wf (h : s.memoryWf) {n i a} : outcomeWf (execLoop n i a s) :=
  h.issueOn fun x h => by
    extract_lets c c' y
    have hy : y.memoryWf := .ite h h
    exact Cx.memoryWf.ite hy hy

theorem execJal_wf (h : s.memoryWf) {i d} : outcomeWf (execJal i d s) := h.issueOn fun _ h => h

theorem execJalr_wf (h : s.memoryWf) {i a d} : outcomeWf (execJalr i a d s) := h.issueOn fun _ h => h

theorem execRealign_wf (h : s.memoryWf) {n} : outcomeWf (execRealign n s) :=
  h.issue fun _ h => .ite (State.memoryWf.putCtx h) (State.memoryWf.realignTest (State.memoryWf.putCtx h))

theorem execFin_wf (h : s.memoryWf) : outcomeWf (execFin s) := h.issue fun _ h => Cx.memoryWf.finish h

theorem execNop_wf (h : s.memoryWf) : outcomeWf (execNop s) := h.issueOn fun _ h => h

theorem Cx.memoryWf.toEngine (h : x.memoryWf) {p} : Answers Stop.memoryWf Cx.memoryWf (x.toEngine p) :=
  .ite (Cx.memoryWf.update h) h.stay

theorem State.memoryWf.sendCommand (h : s.memoryWf) {i m} : outcomeWf (sendCommand i m s) :=
  h.issue fun _ h => (Cx.memoryWf.toEngine h.commit).map fun _ h => h.done.put

theorem State.memoryWf.barrierOp (h : s.memoryWf) {i opcode b a} : outcomeWf (barrierOp i opcode b a s) :=
  h.issue fun _ h => h.operand.bind fun _ h => .ite trivial ((Cx.memoryWf.toEngine h.commit).bind fun _ h => h.done.put)

theorem Cx.memoryWf.bankRefused {tag done} (h : (done x).memoryWf) : (x.bankRefused tag done).memoryWf := h.put.report

theorem State.memoryWf.bankCommand (h : s.memoryWf) {i kind sk addr tag rd arg payload refused done}
    (hr : ∀ x : Cx, x.memoryWf → (refused x).memoryWf) (hd : ∀ x : Cx, x.memoryWf → (done x).memoryWf) :
    outcomeWf (bankCommand i kind sk addr tag rd arg payload refused done s) :=
  h.issue fun x h => by
    extract_lets y
    have hy : y.memoryWf := h.commit
    clear_value y
    split
    · exact (hr y hy).bankRefused
    · exact hy.toEngine.map fun _ h => (hd _ h).put

/-! ## Boot and the host -/

theorem execPowerUp_wf (h : s.memoryWf) : outcomeWf (execPowerUp s) := h.event (.ite trivial (State.memoryWf.setHost h.update))

theorem execBootGo_wf (h : s.memoryWf) : outcomeWf (execBootGo s) := h.event (.ite trivial (.ite h.setHost h.setHost))

theorem State.memoryWf.loadImage (h : s.memoryWf) {home r} : (s.loadImage home r).memoryWf :=
  h.foldl fun _ _ h => .ite h.writeByte h

theorem State.memoryWf.releaseCores (h : s.memoryWf) : s.releaseCores.memoryWf := h.foldl fun _ _ h => h.setSys

theorem execChanterBoot_wf (h : s.memoryWf) : outcomeWf (execChanterBoot s) := h.event (by
  extract_lets b cause ranges drone kernel s₁ b₁ t record
  have h₁ : s₁.memoryWf := .ite h h.update
  clear_value s₁
  exact .ite trivial (.ite (.ite h₁.loadImage.loadImage.setHost.releaseCores trivial) h₁.setHost))

theorem execDroneReady_wf (h : s.memoryWf) : outcomeWf (execDroneReady s) := h.event (.ite trivial h.setHost.unlatch)

theorem State.memoryWf.hostSaw (h : s.memoryWf) {pa} : (s.hostSaw pa).memoryWf := by
  unfold State.hostSaw
  split
  · exact h.cross
  · exact h

theorem State.memoryWf.hostPut (h : s.memoryWf) {pa b} : (s.hostPut pa b).memoryWf := .ite h.setHost (.ite h.tilePut h.writeByte)

theorem execHostAccess_wf (h : s.memoryWf) : outcomeWf (execHostAccess s) := h.event (by
  extract_lets pa n bytes at_ host answer
  have hanswer : ∀ l, (answer l).memoryWf := fun _ => h.setHost
  clear_value answer
  split
  · exact .ite trivial (.ite (State.memoryWf.update (h.foldl fun _ _ h => h.hostPut))
      (State.memoryWf.setHost (h.foldl fun _ _ h => h.hostSaw)))
  · exact .ite trivial (.ite h.setHost (hanswer _))
  · exact .ite trivial (hanswer _))

theorem State.memoryWf.barWrite (h : s.memoryWf) {off v} : (s.barWrite off v).memoryWf := by
  refine State.memoryWf.ite ?_ (.ite h.setHost (.ite h.setHost (.ite (.ite h h.setHost) h)))
  split
  · exact h.setQueue
  · exact h.setQueue
  · exact h

theorem execRegisterWrite_wf (h : s.memoryWf) : outcomeWf (execRegisterWrite s) := h.event (by
  refine maybeWf.ite trivial ?_
  split
  · exact h.barWrite
  · exact .ite trivial h.setCore
  · exact h.droneWrite)

theorem State.memoryWf.reply (h : s.memoryWf) {l} : (s.reply l).memoryWf := h.setHost

theorem execAttest_wf (h : s.memoryWf) : outcomeWf (execAttest s) := h.event (.ite h.reply trivial)

theorem execIdentity_wf (h : s.memoryWf) : outcomeWf (execIdentity s) := h.event (.ite h.reply trivial)

theorem execRelease_wf (h : s.memoryWf) : outcomeWf (execRelease s) := h.event (.ite h.reply trivial)

theorem execCeilings_wf (h : s.memoryWf) : outcomeWf (execCeilings s) := h.event (.ite h.reply trivial)

/-! ## Power -/

theorem State.memoryWf.retryBoosts (h : s.memoryWf) : s.retryBoosts.memoryWf := h.ite (h.foldl fun _ _ h => by
  split
  · exact .ite h.unsuspend.putCtx.retarget h
  · exact h)

theorem execBudgetDivision_wf (h : s.memoryWf) : outcomeWf (execBudgetDivision s) :=
  h.event (.ite trivial (State.memoryWf.retryBoosts h.update))

theorem execAllocationEffect_wf (h : s.memoryWf) : outcomeWf (execAllocationEffect s) := h.event (by
  split
  · trivial
  · exact .ite trivial (State.memoryWf.foldl h.update fun _ _ h => h.setCore))

theorem execPeakCapReached_wf (h : s.memoryWf) : outcomeWf (execPeakCapReached s) :=
  h.event (.ite trivial (State.memoryWf.update h))

theorem execVoltageStep_wf (h : s.memoryWf) : outcomeWf (execVoltageStep s) := h.event (.ite trivial h.repoint.retarget)

theorem execRegulatorTimeout_wf (h : s.memoryWf) : outcomeWf (execRegulatorTimeout s) :=
  h.event (.ite trivial h.setQuad.retarget)

theorem execBoostExpire_wf (h : s.memoryWf) : outcomeWf (execBoostExpire s) := h.event (by
  dsimp only
  split
  · trivial
  · split
    · trivial
    · exact .ite trivial h.unreserve.putCtx.retarget)

/-! ## Freeze -/

theorem State.memoryWf.beginFreeze (h : s.memoryWf) {issuer plan retained} : (s.beginFreeze issuer plan retained).memoryWf :=
  State.memoryWf.stopping (State.memoryWf.setHost h.update)

theorem execFreezeStart_wf (h : s.memoryWf) : outcomeWf (execFreezeStart s) := h.event (by
  split
  · exact .ite (State.memoryWf.setHost h.update) (.ite h.beginFreeze trivial)
  · exact .ite h.beginFreeze trivial)

theorem execRackFreeze_wf (h : s.memoryWf) : outcomeWf (execRackFreeze s) := h.event (.ite h.beginFreeze trivial)

theorem execFreezeTargetTimeout_wf (h : s.memoryWf) : outcomeWf (execFreezeTargetTimeout s) := h.event (by
  split
  · exact .ite trivial (State.memoryWf.update h)
  · trivial)

theorem State.memoryWf.emptied (h : s.memoryWf) : s.emptied.memoryWf := h.update

theorem State.memoryWf.reportFreeze (h : s.memoryWf) {plan code lost bytes ticks} :
    (s.reportFreeze plan code lost bytes ticks).memoryWf := h.bankWrite

/-- An image whose memory is in canonical form may join the others. -/
theorem State.memoryWf.insertImage (h : s.memoryWf) (hm : t.mem = s.mem) {plan image}
    (hi : t.images = s.images.insert plan image) (hw : Memory.wf image.mem = true) : t.memoryWf := by
  obtain ⟨hmem, himages⟩ := h
  refine ⟨hm ▸ hmem, fun e he => ?_⟩
  rw [hi] at he
  rcases Map.mem_insert he with rfl | he
  · exact hw
  · exact himages e he

theorem execFreezeComplete_wf (h : s.memoryWf) : outcomeWf (execFreezeComplete s) := h.event (by
  split
  · trivial
  · next f _ =>
    refine .ite trivial (.ite (h.foldl fun _ _ h => h.closeStopped) (.ite trivial ?_))
    extract_lets ticks code s₁ image left host t t'
    have h₁ : s₁.memoryWf := h.suspendAll
    have himage : Memory.wf image.mem = true := s₁.capture_wf f h₁.1
    have hleft : left.mem = s₁.mem := by
      dsimp only [left]
      split
      · rfl
      · rfl
    have ht : t.memoryWf := h₁.insertImage hleft (plan := f.plan) rfl himage
    have ht' : t'.memoryWf := ht.reportFreeze
    exact State.memoryWf.ite ht'.update ht')

theorem execFreezeResume_wf (h : s.memoryWf) : outcomeWf (execFreezeResume s) :=
  h.event (.ite (.ite h.reportFreeze (State.memoryWf.setHost h.update)) trivial)

theorem State.memoryWf.reseat (h : s.memoryWf) {m g k inc c} : (State.reseat m g s k inc c).memoryWf := by
  unfold State.reseat
  extract_lets dst bar parked s₁ sl inc' c' s₂ s₃
  have h₂ : s₂.memoryWf := h.setSlot.setSlot
  have h₃ : s₃.memoryWf := by
    dsimp only [s₃]
    split
    · exact h₂.setLock
    · exact h₂
  exact h₃.redirect

theorem State.memoryWf.restore (h : s.memoryWf) {i m} : (s.restore i m).memoryWf := by
  unfold State.restore
  extract_lets g keep t
  have ht : t.memoryWf := ⟨foldl_keeps (P := fun m : Map Byte => Memory.wf m = true) (fun m _ h => Map.wf_set m _ _ _ h) _ _
    (Map.wf_filter _ _ _ h.1), h.2⟩
  clear_value t
  refine ht.foldl fun _ _ h => ?_
  split
  · exact h.reseat
  · exact h

theorem execResumeComplete_wf (h : s.memoryWf) : outcomeWf (execResumeComplete s) := h.event (by
  split
  · trivial
  · -- Where the image's tiles come to lie does not matter, and Lean would begin to evaluate it.
    generalize placeTiles _ _ _ = moves
    refine .ite trivial (.of_map fun m => ?_)
    extract_lets t host
    have ht : t.memoryWf := State.memoryWf.restore (.ite h.emptied h)
    clear_value t
    exact State.memoryWf.unlatch (State.memoryWf.setHost ht.update))

theorem execPowerOff_wf (h : s.memoryWf) : outcomeWf (execPowerOff s) := by
  obtain ⟨hmem, himages⟩ := h
  refine State.memoryWf.next ⟨Map.wf_filter _ _ _ hmem, fun e he => ?_⟩
  obtain ⟨i, hi, rfl⟩ := List.mem_map.mp he
  exact himages i (List.mem_filter.mp hi).1

/-! ## Matrix commands -/

theorem execPfx_wf (h : s.memoryWf) {q g b a} : outcomeWf (execPfx q g b a s) := h.issueOn fun _ h => h

theorem execMcfg_wf (h : s.memoryWf) {a n} : outcomeWf (execMcfg a n s) := h.issueOn fun _ h => Cx.memoryWf.commit h

theorem Cx.memoryWf.queueOwn (h : x.memoryWf) {m} : Answers Stop.memoryWf Cx.memoryWf (x.queueOwn m) :=
  .ite h.stayWaiting (.ite h.stay (State.memoryWf.sendMatrix (.ite (State.memoryWf.own h) h)))

theorem Cx.memoryWf.failed {engine tag code done} (h : (done x).memoryWf) : (x.failed engine tag code done).memoryWf :=
  h.put.report

theorem Cx.memoryWf.positioned (h : x.memoryWf) {tag m done} (hd : ∀ x : Cx, x.memoryWf → (done x).memoryWf) :
    Answers Stop.memoryWf State.memoryWf (x.positioned tag m done) := by
  unfold Cx.positioned
  split
  · exact (hd x h).failed
  · refine .ite (h.queueOwn.map fun y hy => (hd y hy).put) (.ite h.stay ?_)
    extract_lets cmd m' s₁
    have h₁ : s₁.memoryWf := .ite (State.memoryWf.own h) h
    exact (hd { x with s := s₁.sendMatrix m' } h₁.sendMatrix).put

theorem Cx.memoryWf.prefixDone (h : x.memoryWf) : x.prefixDone.memoryWf := h

theorem execMma_wf (h : s.memoryWf) {n b a k} : outcomeWf (execMma n b a k s) :=
  h.issue fun _ h => (Cx.memoryWf.queueOwn h.commit).map fun _ h => h.prefixDone.put

theorem execMmag_wf (h : s.memoryWf) {n b g k} : outcomeWf (execMmag n b g k s) :=
  h.issue fun x h => by
    extract_lets y w t0 cols tiles po ft apitch p home cmds sent s₁
    have hy : y.memoryWf := h.commit
    have h₁ : s₁.memoryWf := State.memoryWf.foldl (State.memoryWf.update (s := y.s) hy) fun _ _ h => h.own.sendMatrix
    exact .ite hy.prefixDone.failed (.ite hy.prefixDone.failed (.ite hy.stay (.ite hy.stayWaiting
      (Cx.memoryWf.put (x := Cx.prefixDone { y with s := s₁ }) h₁))))

theorem execMzero_wf (h : s.memoryWf) {k} : outcomeWf (execMzero k s) :=
  h.issue fun _ h => (Cx.memoryWf.commit h).positioned fun _ h => h.done

theorem execMldb_wf (h : s.memoryWf) {a b} : outcomeWf (execMldb a b s) :=
  h.issue fun _ h => (Cx.memoryWf.queueOwn h.commit).map fun _ h => h.done.put

theorem execMdrn_wf (h : s.memoryWf) {i c a f k} : outcomeWf (execMdrn i c a f k s) :=
  h.issue fun _ h => (Cx.memoryWf.commit h).positioned fun _ h => h.prefixDone

/-! ## Translations and pages -/

theorem State.memoryWf.answerMisses (h : s.memoryWf) {core asn va found leaf} :
    (s.answerMisses core asn va found leaf).memoryWf := h.foldl fun _ _ h => by
  split
  · split
    · exact .ite h.putCtx h
    · exact h
  · exact h

theorem State.memoryWf.addWalk (h : s.memoryWf) {unit asn va leaf} : (s.addWalk unit asn va leaf).memoryWf := h.update

theorem execTlbMiss_wf (h : s.memoryWf) : outcomeWf (execTlbMiss s) :=
  h.event (.ite trivial (.ite (.ite h.answerMisses (.of_map fun _ => h.install.answerMisses))
    (.ite (.ite h.addWalk (.of_map fun _ => .ite h.install.addWalk h.install))
      (.ite (.ite h.addWalk.settleAll (.of_map fun _ => .settleAll h.update)) trivial))))

theorem execPageResident_wf (h : s.memoryWf) : outcomeWf (execPageResident s) := h.event (by
  dsimp only
  split
  · trivial
  · exact .ite trivial (State.memoryWf.settleAll h.update))

theorem execQuotaDecline_wf (h : s.memoryWf) : outcomeWf (execQuotaDecline s) := h.event (by
  refine maybeWf.ite h.addWalk.settleAll ?_
  extract_lets trap s₁ ready
  have h₁ : s₁.memoryWf := h.foldl fun _ _ h => by
    dsimp only
    split
    · split
      · exact .ite h.takeTrap h
      · exact h
    · exact h
  exact State.memoryWf.update h₁)

theorem State.memoryWf.countSpill (h : s.memoryWf) {old new n} : (s.countSpill old new n).memoryWf := by
  unfold State.countSpill
  split
  · exact .ite h.update h
  · exact h

theorem State.memoryWf.losePage (h : s.memoryWf) {m} : (s.losePage m).memoryWf := h.update

theorem State.memoryWf.copyPage (h : s.memoryWf) {m} : (s.copyPage m).memoryWf := ⟨s.copyPage_wf m h.1, h.2⟩

theorem execPageMigration_wf (h : s.memoryWf) : outcomeWf (execPageMigration s) := h.event (by
  dsimp only
  split
  · exact .ite (State.memoryWf.update h.takeFrame) trivial
  · exact .ite trivial (.ite (State.memoryWf.giveFrame h.update) (.ite h.losePage.giveFrame (.ite trivial
      (State.memoryWf.announce (State.memoryWf.update h.copyPage.moveLocks.countSpill))))))

/-! ## Scans -/

theorem execChainSel_wf (h : s.memoryWf) : outcomeWf (execChainSel s) := h.chainEvent fun c b => by
  generalize listNat = num
  extract_lets e params
  refine .ite trivial (.bind .any fun q _ => ?_)
  extract_lets p sc begun
  clear_value p
  refine .ite trivial (.ite trivial (.bind .any fun _ _ => ?_))
  have hbegun : ∀ u, Answers (fun _ => True) State.memoryWf (begun u) := fun _ =>
    .ite trivial (State.memoryWf.integrityAll h.update)
  clear_value begun
  exact .ite (.bind .any fun _ _ => .ite trivial (hbegun _)) (hbegun _)

theorem State.memoryWf.integrityPart (h : s.memoryWf) {sc owner} : (s.integrityPart sc owner).memoryWf := by
  refine h.ite ?_
  extract_lets p mine lines s₁
  have h₁ : s₁.memoryWf := h.foldl fun _ _ h => .ite h.integrity h
  exact .ite h₁.integrityBlocks h₁

theorem State.memoryWf.setScan (h : s.memoryWf) {sc} : (s.setScan sc).memoryWf := h.update

theorem execScanPart_wf (h : s.memoryWf) : outcomeWf (execScanPart s) := h.event (by
  dsimp only
  split
  · trivial
  · refine .ite h.setScan (.ite trivial ?_)
    split
    · trivial
    · exact h.setScan
    · exact h.setScan.integrityPart)

theorem State.memoryWf.scanDone (h : s.memoryWf) {sc code} : (s.scanDone sc code).memoryWf := by
  unfold State.scanDone
  extract_lets s₁
  have h₁ : s₁.memoryWf := h.update
  clear_value s₁
  split
  · exact h₁
  · exact .ite h₁.chainFail h₁.chainNext

theorem State.memoryWf.scanPipe (h : s.memoryWf) {sc} : (s.scanPipe sc).1.memoryWf := by
  unfold State.scanPipe
  split
  · exact h
  · split
    · exact h
    · exact h.setLaunch

theorem execScanMerge_wf (h : s.memoryWf) : outcomeWf (execScanMerge s) := h.event (by
  dsimp only
  split
  · trivial
  · next sc _ =>
    refine .ite trivial (.ite h.scanDone ?_)
    generalize (if sc.sorted = true then sc else sc.order) = sc'
    refine .ite ?_ ?_
    · split
      · trivial
      · next ht => exact (h.engStore.of_eq ht).scanDone
      · exact h.scanDone
    · have ht := h.scanPipe (sc := sc')
      refine .ite ht.setScan ?_
      split
      · exact ht.setScan
      · next hu => exact (ht.engStore.of_eq hu).scanDone)

/-! ## Traps -/

theorem State.memoryWf.land (h : s.memoryWf) {n from_ t} : (s.land n from_ t).memoryWf := h.setSys

theorem execTrapDelivery_wf (h : s.memoryWf) : outcomeWf (execTrapDelivery s) :=
  h.event (.bind fun _ => .bind fun _ => .bind fun _ => State.memoryWf.land h.update)

theorem execTrapEscalation_wf (h : s.memoryWf) : outcomeWf (execTrapEscalation s) := h.event (by
  dsimp only
  split
  · exact .ite trivial (State.memoryWf.setSys h.update)
  · trivial)

/-! ## Vector instructions -/

theorem State.memoryWf.compact16 (h : s.memoryWf) {i m a d shift f} : outcomeWf (compact16 i m a d shift f s) :=
  h.vissue fun _ _ h => h.writeLanes

theorem State.memoryWf.compact32 (h : s.memoryWf) {i t m b a d f} : outcomeWf (compact32 i t m b a d f s) :=
  h.vissue fun _ _ h => h.readVV.bind fun _ h => Cx.memoryWf.writeLanes h

theorem State.memoryWf.unary32 (h : s.memoryWf) {i t m a d f} : outcomeWf (unary32 i t m a d f s) :=
  h.vissue fun _ _ h => h.readV.bind fun _ h => Cx.memoryWf.writeLanes h

theorem State.memoryWf.fused (h : s.memoryWf) {i t m c b a d f} : outcomeWf (fused i t m c b a d f s) :=
  h.vissue fun _ _ h => h.readVV.bind fun _ h => Cx.memoryWf.writeLanes h

theorem execVcmp_wf (h : s.memoryWf) {t m c b a d} : outcomeWf (execVcmp t m c b a d s) :=
  h.vissue fun _ _ h => h.readVV.bind fun _ h => h

theorem execViota_wf (h : s.memoryWf) {t m d} : outcomeWf (execViota t m d s) := h.vissue fun _ _ h => h.writeLanes

theorem execVcvt_wf (h : s.memoryWf) {t m f a d} : outcomeWf (execVcvt t m f a d s) :=
  h.vissue fun _ _ h => h.readV.bind fun ⟨_, x⟩ h => Cx.memoryWf.writeV (x := { x with c := x.c.raiseFlags _ }) h

theorem execVsel_wf (h : s.memoryWf) {t m b a d} : outcomeWf (execVsel t m b a d s) :=
  h.vissue fun _ _ h => h.readVV.bind fun _ h => Cx.memoryWf.writeLanes h

theorem execVperm_wf (h : s.memoryWf) {t m b a d} : outcomeWf (execVperm t m b a d s) :=
  h.vissue fun _ _ h => h.readVV.bind fun _ h => Cx.memoryWf.writeLanes h

theorem execVslideUp_wf (h : s.memoryWf) {t m b a d} : outcomeWf (execVslideUp t m b a d s) :=
  h.vissue fun _ _ h => h.readV.bind fun _ h => Cx.memoryWf.writeLanes h

theorem execVslideDn_wf (h : s.memoryWf) {t m b a d} : outcomeWf (execVslideDn t m b a d s) :=
  h.vissue fun _ _ h => h.readV.bind fun _ h => Cx.memoryWf.writeLanes h

theorem execVcompress_wf (h : s.memoryWf) {t m a d} : outcomeWf (execVcompress t m a d s) :=
  h.vissue fun _ _ h => h.readV.bind fun _ h => Cx.memoryWf.writeV h

theorem execVadds_wf (h : s.memoryWf) {t m b a d} : outcomeWf (execVadds t m b a d s) :=
  h.vissue fun _ _ h => h.readVV.bind fun _ h => Cx.memoryWf.writeLanes h

theorem State.memoryWf.scanPrefix (h : s.memoryWf) {i t m a d op} : outcomeWf (scanPrefix i t m a d op s) :=
  h.vissue fun _ _ h => h.readV.bind fun _ h => Cx.memoryWf.writeLanes h

theorem State.memoryWf.reduce (h : s.memoryWf) {i t m q a d f} : outcomeWf (reduce i t m q a d f s) :=
  h.vissue fun _ _ h => h.readV.bind fun ⟨_, x⟩ h => Cx.memoryWf.writeVS (x := { x with c := x.c.raiseFlags _ }) h

theorem execVdot_wf (h : s.memoryWf) {t m q b a d} : outcomeWf (execVdot t m q b a d s) :=
  h.vissue fun _ _ h => h.readVV.bind fun ⟨_, _, x⟩ h => Cx.memoryWf.writeVS (x := { x with c := x.c.raiseFlags _ }) h

theorem execVbcast_wf (h : s.memoryWf) {t a d} : outcomeWf (execVbcast t a d s) := h.vissue fun _ _ h => h.writeLanes

theorem execVins_wf (h : s.memoryWf) {t b a d} : outcomeWf (execVins t b a d s) := h.vissue fun _ _ h => h.writeLanes

theorem execVext_wf (h : s.memoryWf) {t b a d} : outcomeWf (execVext t b a d s) :=
  h.vissue fun _ _ h => h.readV.bind fun _ h => h

theorem State.memoryWf.unpack (h : s.memoryWf) {i l a d n f t5} : outcomeWf (unpack i l a d n f t5 s) :=
  h.vissue fun _ x h => by
    extract_lets first mask bad y
    clear_value bad
    have hy : y.memoryWf := by
      dsimp only [y]
      split
      · exact h
      · exact h
    exact hy.writeLanes

theorem State.memoryWf.maskOp (h : s.memoryWf) {i b a d f} : outcomeWf (maskOp i b a d f s) := h.vissue fun _ _ h => h

theorem execMpop_wf (h : s.memoryWf) {t a d} : outcomeWf (execMpop t a d s) := h.vissue fun _ _ h => h

theorem execVtype_wf (h : s.memoryWf) {t} : outcomeWf (execVtype t s) := h.issueOn fun _ h => h

/-! ## Instructions, events and steps -/

/-- What every instruction and event does keeps the canonical form. -/
theorem exec_wf (h : s.memoryWf) {i : Instr} : outcomeWf (exec i s) := by
  cases i with
  | add | sub | and | or | xor | andn | shl | shr | sra | mul | mulh | mulhn | div | divn | rem | remn | min | max |
    minn | maxn | slt | sltn | seq =>
    unfold exec
    exact h.alu3
  | csel => exact execCsel_wf h
  | clz | ctz | popc | sext | zext =>
    unfold exec
    exact h.alu2
  | addi | andi | ori | xori | shli | shri | srai | slti =>
    unfold exec
    exact h.aluI
  | lui => exact execLui_wf h
  | addpc => exact execAddpc_wf h
  | ld => exact execLd_wf h
  | st => exact execSt_wf h
  | ldx => exact execLdx_wf h
  | stx => exact execStx_wf h
  | pref => exact execPref_wf h
  | alloc => exact execAlloc_wf h
  | free => exact execFree_wf h
  | beq | bne | blt | bge | bltn | bgen =>
    unfold exec
    exact h.branch
  | loop => exact execLoop_wf h
  | jal => exact execJal_wf h
  | jalr => exact execJalr_wf h
  | realign => exact execRealign_wf h
  | fin => exact execFin_wf h
  | nop => exact execNop_wf h
  | vadd16 | vsub16 | vrsub16 | vmul16 | vmin16 | vmax16 | vand16 | vor16 | vxor16 | vmov16 | vabs16 | vneg16 | vshl16
    | vshr16 | vsra16 | vfmak16 =>
    unfold exec
    exact h.compact16
  | vadd32 | vsub32 | vrsub32 | vmul32 | vmin32 | vmax32 | vand32 | vor32 | vxor32 | vshl32 | vshr32 | vsra32 |
    vfmak32 =>
    unfold exec
    exact h.compact32
  | vmov32 | vabs32 | vneg32 | vnot | vexp2 | vlog2 | vrcp | vrsq =>
    unfold exec
    exact h.unary32
  | vfma | vfms | vfnma =>
    unfold exec
    exact h.fused
  | vcmp => exact execVcmp_wf h
  | viota => exact execViota_wf h
  | vcvt => exact execVcvt_wf h
  | vsel => exact execVsel_wf h
  | vperm => exact execVperm_wf h
  | vslideUp => exact execVslideUp_wf h
  | vslideDn => exact execVslideDn_wf h
  | vcompress => exact execVcompress_wf h
  | vadds => exact execVadds_wf h
  | vscanpAdd | vscanpMin | vscanpMax =>
    unfold exec
    exact h.scanPrefix
  | vredAdd | vredMin | vredMax | vredAnd | vredOr | vredXor =>
    unfold exec
    exact h.reduce
  | vdot => exact execVdot_wf h
  | vbcast => exact execVbcast_wf h
  | vins => exact execVins_wf h
  | vext => exact execVext_wf h
  | unpkT5 | unpkI8 | unpkN8 | unpkI4 | unpkN4 =>
    unfold exec
    exact h.unpack
  | mand | mor | mxor | mnot =>
    unfold exec
    exact h.maskOp
  | mpop => exact execMpop_wf h
  | vtype => exact execVtype_wf h
  | vld | vst | vlds | vsts | vldIndexed | vstIndexed =>
    unfold exec
    exact h.vecAccess
  | vgath | vscat =>
    unfold exec
    exact h.vecIndexed
  | mma => exact execMma_wf h
  | mmag => exact execMmag_wf h
  | mzero => exact execMzero_wf h
  | mldb => exact execMldb_wf h
  | mdrn => exact execMdrn_wf h
  | mcfg => exact execMcfg_wf h
  | pfx => exact execPfx_wf h
  | ecopy | scan =>
    unfold exec
    exact h.sendCommand
  | barinit | baradd =>
    unfold exec
    exact h.barrierOp
  | cabcfg | cabpush | cabmrg | cabrd | cabdrn | cabclr =>
    unfold exec
    exact h.bankCommand (fun _ h => h) fun _ h => h
  | amoAdd | amoAnd | amoOr | amoXor | amoMin | amoMax | amoMinn | amoMaxn | amoSwap | cas =>
    unfold exec
    exact h.atomic
  | ldlk => exact execLdlk_wf h
  | stul => exact execStul_wf h
  | acq => exact execAcq_wf h
  | rel | scst =>
    unfold exec
    exact h.releaseStore
  | scld => exact execScld_wf h
  | fence | fenceP =>
    unfold exec
    exact h.fenceOn
  | cmt => exact execCmt_wf h
  | trig => exact execTrig_wf h
  | waitList => exact execWaitList_wf h
  | waitBar => exact execWaitBar_wf h
  | waitPipe => exact execWaitPipe_wf h
  | waitJoin => exact execWaitJoin_wf h
  | waitEvq | waitNotice | waitProd =>
    unfold exec
    exact h.waitInline fun _ h => h.plainCond
  | waitMem => exact execWaitMem_wf h
  | send => exact execSend_wf h
  | htag => exact execHtag_wf h
  | spawn => exact execSpawn_wf h
  | join => exact execJoin_wf h
  | launch => exact execLaunch_wf h
  | wid => exact execWid_wf h
  | ppush => exact execPpush_wf h
  | ppop => exact execPpop_wf h
  | ppeek => exact execPpeek_wf h
  | migr => exact execMigr_wf h
  | lease => exact execLease_wf h
  | unlease => exact execUnlease_wf h
  | role => exact execRole_wf h
  | nack => exact execNack_wf h
  | boost => exact execBoost_wf h
  | crr => exact execCrr_wf h
  | crrEvq => exact execCrrEvq_wf h
  | crw => exact execCrw_wf h
  | trap | sysc | bkpt =>
    unfold exec
    exact h.requested
  | eret => exact execEret_wf h
  | tack => exact execTack_wf h
  | tlbw => exact execTlbw_wf h
  | tlbi => exact execTlbi_wf h
  | powerUp => exact execPowerUp_wf h
  | bootGo => exact execBootGo_wf h
  | chanterBoot => exact execChanterBoot_wf h
  | droneReady => exact execDroneReady_wf h
  | hostAccess => exact execHostAccess_wf h
  | registerWrite => exact execRegisterWrite_wf h
  | doorbell => exact execDoorbell_wf h
  | completionDoorbell => exact execCompletionDoorbell_wf h
  | qcplWrite => exact execQcplWrite_wf h
  | launchEnqueueResume => exact execLaunchEnqueueResume_wf h
  | launchAdmission => exact execLaunchAdmission_wf h
  | rackLaunch => exact execRackLaunch_wf h
  | residencyReport => exact execResidencyReport_wf h
  | dispatch => exact execDispatch_wf h
  | pipeActorFire => exact execPipeActorFire_wf h
  | priorityAge => exact execPriorityAge_wf h
  | fitStarvation => exact execFitStarvation_wf h
  | migrationComplete => exact execMigrationComplete_wf h
  | forwardingExpire => exact execForwardingExpire_wf h
  | pageResident => exact execPageResident_wf h
  | quotaDecline => exact execQuotaDecline_wf h
  | tlbMiss => exact execTlbMiss_wf h
  | regionTimeCommit => exact execRegionTimeCommit_wf h
  | intervalTimeClose => exact execIntervalTimeClose_wf h
  | loadDataReturn => exact execLoadDataReturn_wf h
  | postedLineAtHome => exact execPostedLineAtHome_wf h
  | storeAck => exact execStoreAck_wf h
  | checkedAccessAtHome => exact execCheckedAccessAtHome_wf h
  | lockGrant => exact execLockGrant_wf h
  | pageMigration => exact execPageMigration_wf h
  | panpipeDelivery => exact execPanpipeDelivery_wf h
  | roleMapAck => exact execRoleMapAck_wf h
  | staleRequestReturn => exact execStaleRequestReturn_wf h
  | injectionSend => exact execInjectionSend_wf h
  | messageDelivery => exact execMessageDelivery_wf h
  | handlerCreate => exact execHandlerCreate_wf h
  | recordPass => exact execRecordPass_wf h
  | firingRetire => exact execFiringRetire_wf h
  | subtileRelease => exact execSubtileRelease_wf h
  | launchComplete => exact execLaunchComplete_wf h
  | completionJoinResume => exact execCompletionJoinResume_wf h
  | launchEndWrite => exact execLaunchEndWrite_wf h
  | waitConditionMet => exact execWaitConditionMet_wf h
  | waitTimeout => exact execWaitTimeout_wf h
  | realignTimeout => exact execRealignTimeout_wf h
  | censusSample => exact execCensusSample_wf h
  | recastProposal => exact execRecastProposal_wf h
  | recastDeadline => exact execRecastDeadline_wf h
  | storageCopyDone => exact execStorageCopyDone_wf h
  | computeRecastRebind => exact execComputeRecastRebind_wf h
  | recastFinish => exact execRecastFinish_wf h
  | leaseExpire => exact execLeaseExpire_wf h
  | matrixGrant => exact execMatrixGrant_wf h
  | matrixCommandDone => exact execMatrixCommandDone_wf h
  | copyChainStart => exact execCopyChainStart_wf h
  | scanChainStart => exact execScanChainStart_wf h
  | chainCopy => exact execChainCopy_wf h
  | chainMcast => exact execChainMcast_wf h
  | chainDeal => exact execChainDeal_wf h
  | chainLoop => exact execChainLoop_wf h
  | chainIfz => exact execChainIfz_wf h
  | chainIfnz => exact execChainIfnz_wf h
  | chainSignal => exact execChainSignal_wf h
  | chainEnd => exact execChainEnd_wf h
  | chainSel => exact execChainSel_wf h
  | mcastLineArrival => exact execMcastLineArrival_wf h
  | scanPart => exact execScanPart_wf h
  | scanMerge => exact execScanMerge_wf h
  | cabArrival => exact execCabArrival_wf h
  | budgetDivision => exact execBudgetDivision_wf h
  | allocationEffect => exact execAllocationEffect_wf h
  | peakCapReached => exact execPeakCapReached_wf h
  | voltageStep => exact execVoltageStep_wf h
  | boostExpire => exact execBoostExpire_wf h
  | regulatorTimeout => exact execRegulatorTimeout_wf h
  | trapDelivery => exact execTrapDelivery_wf h
  | trapEscalation => exact execTrapEscalation_wf h
  | journalRetry => exact execJournalRetry_wf h
  | journalDiscard => exact execJournalDiscard_wf h
  | freezeStart => exact execFreezeStart_wf h
  | rackFreeze => exact execRackFreeze_wf h
  | freezeTargetTimeout => exact execFreezeTargetTimeout_wf h
  | freezeComplete => exact execFreezeComplete_wf h
  | freezeResume => exact execFreezeResume_wf h
  | resumeComplete => exact execResumeComplete_wf h
  | attest => exact execAttest_wf h
  | identity => exact execIdentity_wf h
  | release => exact execRelease_wf h
  | ceilings => exact execCeilings_wf h
  | powerOff => exact execPowerOff_wf h
  | ualinkTargetRequest => exact execUalinkTargetRequest_wf h
  | softError => exact execSoftError_wf h

theorem Cx.memoryWf.noteFetch (h : x.memoryWf) {key} : (x.noteFetch key).memoryWf := .ite h h

theorem Cx.memoryWf.fetchHalf (h : x.memoryWf) {va} : Answers Stop.memoryWf (·.2.memoryWf) (x.fetchHalf va) := by
  unfold Cx.fetchHalf
  split
  · next hx =>
    have hx := h.reach.of_eq hx
    split
    · exact .ite hx (Cx.memoryWf.noteFetch hx)
    · exact Cx.memoryWf.noteFetch hx
  · trivial
  · next he => exact h.reach.of_error he

theorem Cx.memoryWf.fetch (h : x.memoryWf) : Answers Stop.memoryWf (·.2.memoryWf) x.fetch :=
  h.fetchHalf.bind fun _ h => .ite ((Cx.memoryWf.fetchHalf h).bind fun _ h => h) h

theorem State.memoryWf.poised (h : s.memoryWf) {late} : (s.poised late).memoryWf := State.memoryWf.update h.reboost

theorem State.memoryWf.after (h : s.memoryWf) : s.after.memoryWf := h.commandsArrive.wake.retargetAll

theorem stepScalar_wf (h : s.memoryWf) : outcomeWf (stepScalar s) := by
  unfold stepScalar
  split
  · exact h.next
  · next x hx =>
    have hx := h.hand hx
    split
    · next he => exact hx.conclude h (hx.fetch.of_error he)
    · next hy =>
      have hy := hx.fetch.of_eq hy
      split
      · exact exec_wf (Cx.memoryWf.put hy)
      · exact Cx.memoryWf.conclude hy h trivial

theorem stepVector_wf (h : s.memoryWf) : outcomeWf (stepVector s) := by
  unfold stepVector
  split
  · exact h.next
  · exact exec_wf h.update

theorem stepIssuer_wf (h : s.memoryWf) : outcomeWf (stepIssuer s) := by
  unfold stepIssuer
  split
  · exact stepScalar_wf h
  · have hv := stepVector_wf h
    split
    · next ht =>
      split
      · exact (hv _ ht).next
      · exact stepScalar_wf h
    · exact hv

theorem stepAct_wf (h : s.memoryWf) : outcomeWf (stepAct s) := by
  unfold stepAct
  split
  · exact stepIssuer_wf h.poised
  · extract_lets s₁
    have h₁ : s₁.memoryWf := State.memoryWf.wake h.update
    clear_value s₁
    split
    · exact stepScalar_wf (State.memoryWf.poised h₁.update)
    · exact stepVector_wf h₁.update
    · split
      · exact exec_wf h₁.update
      · exact h₁.next

theorem follow_wf {o : Host.Outcome State Fault Refusal} (h : outcomeWf o) : outcomeWf (follow o) := by
  unfold follow
  split
  · exact (State.memoryWf.after (h _ rfl)).next
  · exact h

theorem step_wf (h : s.memoryWf) : outcomeWf (step s) := follow_wf (stepAct_wf h.update)

end Sys2Proof.Machine

open Sys2Proof Sys2Proof.Machine

/-- Settles O51: the memory after reset is empty, and there is no image. -/
theorem resetMemoryIsCanonical : Obligations.ResetMemoryIsCanonical := State.reset_memoryWf

/-- Settles O52, by a lemma for each operation of the model that it keeps the canonical form: what writes no memory is a frame
(`State.memoryWf.update`), and what writes some goes through `Map.set`, which keeps a map ordered and free of default entries. -/
theorem stepKeepsMemoryCanonical : Obligations.StepKeepsMemoryCanonical :=
  fun _ t h ht => step_wf h t ht

end

section
set_option Elab.async false
/-! # Reset, boot and the host (O50, O54)

What the loops of power-up, of the boot and of a host write leave, and for each event what it answers where it is enabled. -/

namespace Sys2Proof

/-- Writes of one value at selected keys, in turn, leave it there and every other key alone. -/
theorem Map.get_foldl_set {α : Type} [DecidableEq α] (p : Nat → Bool) (v d : α) (l : List Nat) (m : Map α) (k : Nat) :
    (l.foldl (fun m j => if p j then m.set j v d else m) m).get k d = if k ∈ l ∧ p k = true then v else m.get k d := by
  induction l generalizing m with
  | nil => simp
  | cons j l ih =>
    rw [List.foldl_cons, ih]
    by_cases hp : p j = true
    · by_cases hk : k = j
      · subst hk
        simp [hp, Map.get_set_same]
      · simp [hp, hk, Map.get_set_ne m v d hk]
    · by_cases hk : k = j
      · subst hk
        simp [hp]
      · simp [hp, hk]

/-- What a filter by key keeps reads as it did, and the rest as unlisted. -/
theorem Map.get_filter {α : Type} (p : Nat → Bool) (m : Map α) (k : Nat) (d : α) :
    Map.get (m.filter fun e => p e.1) k d = if p k = true then m.get k d else d := by
  induction m with
  | nil => simp [Map.get, Map.get?]
  | cons e m ih =>
    obtain ⟨j, v⟩ := e
    by_cases hp : p j = true
    · by_cases hk : j = k
      · subst hk
        simp [Map.get, Map.get?, hp]
      · simpa [Map.get, Map.get?, hp, hk] using ih
    · by_cases hk : j = k
      · subst hk
        simpa [hp] using ih
      · simpa [Map.get, Map.get?, hp, hk] using ih

end Sys2Proof

namespace Sys2Proof.Machine

open Laws

/-! ## Reset (R41, R74, R213) -/

@[simp] theorem State.reset_slotAt (k : Nat) : State.reset.slotAt k = {} := rfl

@[simp] theorem State.reset_coreAt (n : Nat) : State.reset.coreAt n = {} := rfl

@[simp] theorem State.reset_subAt (core k : Nat) : State.reset.subAt core k = {} := rfl

@[simp] theorem State.reset_sysAt (n : Nat) : State.reset.sysAt n = {} := rfl

@[simp] theorem State.reset_roleOf (tile : Nat) : State.reset.roleOf tile = 0 := rfl

variable {s : State}

/-! ## What setting the host's side leaves -/

@[simp] theorem State.setHost_host (h : HostSide) : (s.setHost h).host = h := rfl

/-! ## Power-up and the boot (R31, R32, R260, R261, R493, R494) -/

/-- An absent tile has role 3: one that failed its self-test, and every tile of a district whose hub did. -/
theorem execPowerUp_of_off (h : s.host.stage = 0) : ∃ t, execPowerUp s = .next t ∧ t.host = { s.host with stage := 1 } ∧
    t.mem = s.mem ∧ (∀ d, d ∈ t.absentHubs ↔ d ∈ s.args.data2 ∧ d < 64) ∧
    ∀ i < 1024, t.roleOf i = if i ∈ s.args.data ∨ districtOfTile i ∈ t.absentHubs then 3 else s.roleOf i := by
  unfold execPowerUp
  generalize hl : List.range 1024 = tiles
  refine ⟨_, event_some (if_neg (not_not_intro h)), rfl, rfl, fun d => ?_, fun i hi => ?_⟩
  · exact List.mem_filter.trans (by simp)
  · have hi : i ∈ tiles := hl ▸ List.mem_range.mpr hi
    refine (Map.get_foldl_set _ 3 0 tiles s.roles i).trans ?_
    simp [hi, State.setHost, State.roleOf]

theorem execBootGo_of_waiting (h : s.host.stage = 1 ∨ s.host.stage = 2) : execBootGo s = .next (s.setHost
    (if s.host.imageOk = true ∧ Config.ed25519Verifies Config.rootKey (leBytes 64 (Config.sha512 s.host.body))
        (getBytes s.host.bootSram 0x40 64) = true then
      { s.host with
        stage := 3, go := true, bar2 := false, chanterDigest := Config.sha512 s.host.body, entry := s.host.entryOffset }
    else { s.host with stage := 2, go := false })) := by
  refine event_some ((if_neg (by omega)).trans ?_)
  split
  · rfl
  · rfl

/-- A place that takes a byte of an image: populated memory of the package, outside the banks' state regions. -/
def imageTakes (pa : Nat) : Bool := decide (populated pa = true ∧ regionOf pa < 4 ∧ bankState pa = false)

/-- The bytes of an image are read before any is written, and written in turn. -/
theorem State.loadImage_eq (s : State) (home : Nat) (r : Nat × Nat) : s.loadImage home r =
    (List.range r.2).foldl (fun t i =>
      if imageTakes (home + i) = true then t.writeByte 0 0 (home + i) (s.byteAt (hostPa (r.1 + i))) else t) s := by
  simp [State.loadImage, State.hostImage, ← List.map_prod_left_eq_zip, List.foldl_map, imageTakes]

/-- An image that is loaded stands, byte for byte, where the package takes it. -/
theorem State.loadImage_byteAt (s : State) (home : Nat) (r : Nat × Nat) {i : Nat} (hi : i < r.2)
    (ht : imageTakes (home + i) = true) : (s.loadImage home r).byteAt (home + i) = s.byteAt (hostPa (r.1 + i)) := by
  rw [State.loadImage_eq, (bytes_foldl (fun i => imageTakes (home + i)) _ _ home ?_ ?_ s r.2).1 i hi, if_pos ht]
  · intro t i h
    rw [if_pos h, State.writeByte_byteAt_same]
  · intro t i a h
    split
    · next hp => exact State.writeByte_byteAt_ne _ _ _ _ _ (h.resolve_right (by simp [hp]))
    · rfl

theorem State.foldl_release_pc (s : State) (m n : Nat) :
    (((List.range m).foldl (fun s n =>
      let k := s.sysAt n
      s.setSys n { k with ctx := { k.ctx with pc := Config.releaseEntry n } }) s).sysAt n).ctx.pc =
        if n < m then Config.releaseEntry n else (s.sysAt n).ctx.pc := by
  induction m with
  | zero => rfl
  | succ m ih =>
    rw [List.range_succ, List.foldl_append, List.foldl_cons, List.foldl_nil]
    by_cases h : n = m
    · subst h
      simp
    · rw [State.setSys_sysAt_ne _ _ _ _ h, ih]
      simp [show n < m + 1 ↔ n < m by omega]

theorem State.releaseCores_pc (s : State) {n : Nat} (hn : n < 80) :
    (s.releaseCores.sysAt n).ctx.pc = Config.releaseEntry n := by
  rw [State.releaseCores, State.foldl_release_pc, if_pos hn]

theorem execChanterBoot_loads (hs : s.host.stage = 3) (hb : s.host.bootError = false) (ha : s.args.a = 0) :
    execChanterBoot s = .next (
      if rangesOk (Config.manifestRanges s.host.body) = true ∧ hostHas (Config.manifestDrone s.host.body) = true ∧
          hostHas (Config.manifestKernel s.host.body) = true then
        (((({ s with kreserved := Config.manifestRanges s.host.body, kreservedLocked := true } : State).loadImage
          (Config.droneHome s.host.body) (Config.manifestDrone s.host.body)).loadImage (Config.kernelHome s.host.body)
          (Config.manifestKernel s.host.body)).setHost { s.host with
            stage := 4
            droneDigest := Config.sha512 (s.hostImage (Config.manifestDrone s.host.body))
            kernelDigest := Config.sha512 (s.hostImage (Config.manifestKernel s.host.body)) }).releaseCores
      else s) := by
  by_cases hr : rangesOk (Config.manifestRanges s.host.body) = true
  · by_cases hi : hostHas (Config.manifestDrone s.host.body) = true ∧ hostHas (Config.manifestKernel s.host.body) = true
    · simp only [execChanterBoot, event, hs, hb, ha, hr, hi]
      rfl
    · simp [execChanterBoot, event, hs, hb, ha, hr, hi]
  · simp [execChanterBoot, event, hs, hb, ha, hr]

theorem execChanterBoot_fails (hs : s.host.stage = 3) (hb : s.host.bootError = false) (h1 : 1 ≤ s.args.a)
    (h5 : s.args.a ≤ 5) (hr : s.args.a = 5 ∨ rangesOk (Config.manifestRanges s.host.body) = true) :
    ∃ t, execChanterBoot s = .next t ∧ t.host.stage = 3 ∧ t.host.bootError = true ∧ t.host.mbDone = true ∧
      t.host.mbCommand = 0xFF ∧
      t.kreserved = (if s.args.a = 5 then s.kreserved else Config.manifestRanges s.host.body) ∧
      t.host.mbox = putBytes s.host.mbox 0 (leBytes 4 4 ++ leBytes 4 s.args.a ++ leBytes 4 s.args.b ++ leBytes 4 0) := by
  have hg : ¬(s.host.stage ≠ 3 ∨ s.host.bootError = true ∨ 5 < s.args.a ∨
      (s.args.a ≠ 5 ∧ (!rangesOk (Config.manifestRanges s.host.body)) = true)) := by
    rcases hr with h | h
    · simp [hs, hb, h]
    · simp [hs, hb, h, h5]
  refine ⟨_, event_some ((if_neg hg).trans (if_neg (by omega))), hs, rfl, rfl, rfl, ?_⟩
  by_cases h : s.args.a = 5
  · simp [h, State.setHost]
  · simp [h, State.setHost]

/-! ## Queues with nothing to read (R267, R269) -/

theorem State.submit_drained {q : Nat} (h : (s.host.queue q).head = (s.host.queue q).tail) : s.submit q = none := by
  simp [State.submit, h]

theorem State.runQueue_drained {q : Nat} (h : (s.host.queue q).head = (s.host.queue q).tail) : s.runQueue q = s := by
  unfold State.runQueue
  split
  · rw [State.pump, State.submit_drained h]
  · rfl

theorem State.unlatch_drained
    (h : ∀ q < 16, (s.host.queue q).latched = none ∧ (s.host.queue q).head = (s.host.queue q).tail) : s.unlatch = s := by
  unfold State.unlatch
  generalize hq : List.range 16 = queues
  refine List.foldlRecOn (motive := (· = s)) queues _ rfl ?_
  intro t ht q hm
  obtain ⟨hl, hd⟩ := h q (List.mem_range.mp (hq ▸ hm))
  rw [ht, hl]
  exact State.runQueue_drained hd

theorem execDroneReady_of_booted (h : s.host.stage = 4) :
    execDroneReady s = .next (s.setHost { s.host with stage := 5, ready := true }).unlatch :=
  event_some (if_neg (not_not_intro h))

/-! ## Loss of power (R71) -/

theorem execPowerOff_byteAt {t : State} (h : execPowerOff s = .next t) (a : Nat) :
    t.byteAt a = if regionOf a = 4 then s.byteAt a else 0 := by
  cases h
  exact (Map.get_filter (fun k => regionOf k == 4) s.mem a 0).trans (by simp [State.byteAt])

/-! ## The host's accesses (R264, R266, R490) -/

@[simp] theorem State.hostSaw_host (pa : Nat) : (s.hostSaw pa).host = s.host := by
  unfold State.hostSaw
  split
  · rfl
  · rfl

theorem State.foldl_hostSaw_host (l : List Nat) (s : State) : (l.foldl State.hostSaw s).host = s.host :=
  foldl_keeps (P := fun t => t.host = s.host) (fun t pa h => (t.hostSaw_host pa).trans h) l s rfl

/-- Outside the tile memory that only system cores and the host reach, a host write stores the byte in memory, or, in a bank's
state region, has Drone record it. -/
theorem State.hostPut_of_shared {pa : Nat} (h : systemTileMemory pa = false) (b : Byte) : s.hostPut pa b =
    if bankState pa then s.setHost { s.host with discarded := s.host.discarded ++ [(pa, b)] } else s.writeByte 5 0 pa b := by
  simp [State.hostPut, h]

theorem State.hostPut_slots {pa : Nat} (h : systemTileMemory pa = false) (b : Byte) : (s.hostPut pa b).slots = s.slots := by
  rw [State.hostPut_of_shared h]
  split
  · rfl
  · rfl

theorem State.hostPut_host {pa : Nat} (h : systemTileMemory pa = false) (b : Byte) : (s.hostPut pa b).host =
    { s.host with discarded := s.host.discarded ++ if bankState pa then [(pa, b)] else [] } := by
  rw [State.hostPut_of_shared h]
  split
  · rfl
  · rw [List.append_nil]
    rfl

theorem State.hostPut_byteAt_same {pa : Nat} (h : systemTileMemory pa = false) (b : Byte) :
    (s.hostPut pa b).byteAt pa = if bankState pa then s.byteAt pa else b := by
  rw [State.hostPut_of_shared h]
  split
  · rfl
  · exact State.writeByte_byteAt_same _ _ _ _ _ _

theorem State.hostPut_byteAt_ne {pa a : Nat} (h : systemTileMemory pa = false) (b : Byte) (hne : a ≠ pa) :
    (s.hostPut pa b).byteAt a = s.byteAt a := by
  rw [State.hostPut_of_shared h]
  split
  · rfl
  · exact State.writeByte_byteAt_ne _ _ _ _ _ hne

section

variable {l : List (Nat × Byte)}

theorem State.foldl_hostPut_slots (hl : ∀ e ∈ l, systemTileMemory e.1 = false) (s : State) :
    (l.foldl (fun s e => s.hostPut e.1 e.2) s).slots = s.slots := by
  refine List.foldlRecOn (motive := fun t : State => t.slots = s.slots) l _ rfl ?_
  exact fun t ht e he => (State.hostPut_slots (hl e he) e.2).trans ht

theorem State.foldl_hostPut_host (hl : ∀ e ∈ l, systemTileMemory e.1 = false) (s : State) :
    (l.foldl (fun s e => s.hostPut e.1 e.2) s).host =
      { s.host with discarded := s.host.discarded ++ l.filter (bankState ·.1) } := by
  induction l generalizing s with
  | nil => simp
  | cons e l ih =>
    obtain ⟨he, hl⟩ := List.forall_mem_cons.mp hl
    rw [List.foldl_cons, ih hl, State.hostPut_host he, List.filter_cons]
    split
    · simp
    · simp

theorem State.foldl_hostPut_byteAt_out (hl : ∀ e ∈ l, systemTileMemory e.1 = false) (s : State) {a : Nat}
    (ha : ∀ e ∈ l, a ≠ e.1) : (l.foldl (fun s e => s.hostPut e.1 e.2) s).byteAt a = s.byteAt a := by
  refine List.foldlRecOn (motive := fun t : State => t.byteAt a = s.byteAt a) l _ rfl ?_
  exact fun t ht e he => (State.hostPut_byteAt_ne (hl e he) e.2 (ha e he)).trans ht

/-- Bytes written at addresses of which no two are equal each stand at theirs. -/
theorem State.foldl_hostPut_byteAt_in (hl : ∀ e ∈ l, systemTileMemory e.1 = false)
    (hd : l.Pairwise fun e f => e.1 ≠ f.1) (s : State) : ∀ e ∈ l,
      (l.foldl (fun s e => s.hostPut e.1 e.2) s).byteAt e.1 = if bankState e.1 then s.byteAt e.1 else e.2 := by
  induction l generalizing s with
  | nil => simp
  | cons x l ih =>
    obtain ⟨hx, hl⟩ := List.forall_mem_cons.mp hl
    obtain ⟨hxl, hd⟩ := List.pairwise_cons.mp hd
    rw [List.forall_mem_cons]
    refine ⟨?_, fun e he => ?_⟩
    · rw [List.foldl_cons, State.foldl_hostPut_byteAt_out hl _ hxl, State.hostPut_byteAt_same hx]
    · rw [List.foldl_cons, ih hl hd _ e he, State.hostPut_byteAt_ne hx _ (hxl e he).symm]

end

/-- What a host read has seen, later reads see; what it gives stands at the output port. -/
theorem execHostAccess_read (hc : s.args.c = 0) (hf : s.args.flag = false)
    (hr : ((List.range s.args.b).map (s.args.a + ·)).all s.hostReach = true) : execHostAccess s = .next
      ((((List.range s.args.b).map (s.args.a + ·)).foldl State.hostSaw s).setHost
        { s.host with readData := ((List.range s.args.b).map (s.args.a + ·)).map s.hostByte }) := by
  refine event_some ?_
  simp only [hc, hf, hr, State.foldl_hostSaw_host]
  rfl

/-- The addresses of a host write, each with its byte. -/
def EventArgs.puts (e : EventArgs) : List (Nat × Byte) :=
  ((List.range e.b).map (e.a + ·)).zip (e.data.map (BitVec.ofNat 8))

/-- A host write puts its bytes in turn, and may mend lines that it covers whole (R483). -/
theorem execHostAccess_write (hc : s.args.c = 0) (hf : s.args.flag = true)
    (hr : ((List.range s.args.b).map (s.args.a + ·)).all s.hostReach = true) : ∃ lines,
      execHostAccess s = .next { s.args.puts.foldl (fun s e => s.hostPut e.1 e.2) s with badLines := lines } := by
  simp only [execHostAccess, event, hc, hf, hr]
  exact ⟨_, rfl⟩

theorem EventArgs.puts_eq {e : EventArgs} (h : e.data.length = e.b) :
    e.puts = (List.range e.b).map fun i => (e.a + i, BitVec.ofNat 8 (e.data.getD i 0)) := by
  refine List.ext_getElem (by simp [EventArgs.puts, h]) fun i h₁ h₂ => ?_
  have hi : i < e.data.length := by simpa [h] using h₂
  simp [EventArgs.puts, hi]

/-- A host write of as many bytes as it has addresses stores each at its own, where no bank's state region lies, and no others. -/
theorem execHostAccess_stores (hc : s.args.c = 0) (hf : s.args.flag = true)
    (hr : ((List.range s.args.b).map (s.args.a + ·)).all s.hostReach = true) (hn : s.args.data.length = s.args.b)
    (hs : ((List.range s.args.b).map (s.args.a + ·)).all (!systemTileMemory ·) = true) :
    ∃ t, execHostAccess s = .next t ∧ t.slots = s.slots ∧
      t.host = { s.host with discarded := s.host.discarded ++ s.args.puts.filter (bankState ·.1) } ∧
      (∀ i < s.args.b, t.byteAt (s.args.a + i) =
        if bankState (s.args.a + i) then s.byteAt (s.args.a + i) else BitVec.ofNat 8 (s.args.data.getD i 0)) ∧
      ∀ a, a < s.args.a ∨ s.args.a + s.args.b ≤ a → t.byteAt a = s.byteAt a := by
  obtain ⟨lines, he⟩ := execHostAccess_write hc hf hr
  have hp := EventArgs.puts_eq hn
  have hl : ∀ e ∈ s.args.puts, systemTileMemory e.1 = false := by
    simpa [hp] using hs
  have hd : s.args.puts.Pairwise fun e f => e.1 ≠ f.1 := by
    rw [hp, List.pairwise_map]
    exact List.nodup_range.imp (by simp)
  refine ⟨_, he, State.foldl_hostPut_slots hl s, State.foldl_hostPut_host hl s, fun i hi => ?_, fun a ha => ?_⟩
  · exact State.foldl_hostPut_byteAt_in hl hd s (s.args.a + i, BitVec.ofNat 8 (s.args.data.getD i 0))
      (hp ▸ List.mem_map_of_mem (List.mem_range.mpr hi))
  · refine State.foldl_hostPut_byteAt_out hl s ?_
    simp only [hp, List.forall_mem_map, List.mem_range]
    omega

theorem execHostAccess_bar2 (hc : s.args.c = 1) (hb : s.host.bar2 = true) (hs : s.host.stage ≠ 0)
    (hn : s.args.a + s.args.b ≤ 0x400000) : execHostAccess s = .next (s.setHost (if s.args.flag then
        { s.host with
          bootSram := putBytes s.host.bootSram s.args.a ((s.args.data.map (BitVec.ofNat 8)).take s.args.b) }
      else { s.host with readData := getBytes s.host.bootSram s.args.a s.args.b })) := by
  simp only [execHostAccess, event, hc, hb, hs, Nat.not_lt.mpr hn]
  cases s.args.flag
  · rfl
  · rfl

theorem execHostAccess_bar0 (hc : s.args.c = 2) (hf : s.args.flag = false) (hn : s.args.a + s.args.b ≤ 0x10000) :
    execHostAccess s = .next (s.setHost { s.host with
      readData := ((List.range s.args.b).map (s.args.a + ·)).map fun a => byteOf (s.bar0 (a - a % 8)) (a % 8) }) := by
  simp only [execHostAccess, event, hc, hf, Nat.not_lt.mpr hn]
  rfl

/-! ## Registers (R252, R266; R145) -/

theorem State.barWrite_queueBase {q : Nat} (hq : q < 16) (v : Nat) :
    s.barWrite (0x100 + 32 * q) v = s.setQueue q { s.host.queue q with base := v } := by
  have hi : (0x100 + 32 * q - 0x100) / 32 = q := by omega
  have hm : (0x100 + 32 * q) % 32 = 0 := by omega
  rw [State.barWrite, if_pos (by omega), hi, hm]
  rfl

theorem State.barWrite_queueSize {q : Nat} (hq : q < 16) (v : Nat) :
    s.barWrite (0x108 + 32 * q) v = s.setQueue q { s.host.queue q with size := v } := by
  have hi : (0x108 + 32 * q - 0x100) / 32 = q := by omega
  have hm : (0x108 + 32 * q) % 32 = 8 := by omega
  rw [State.barWrite, if_pos (by omega), hi, hm]
  rfl

theorem execRegisterWrite_bar (ha : s.args.a = 0) :
    execRegisterWrite s = .next (s.barWrite s.args.b (s.args.c % 2 ^ 64)) := by
  refine event_some ?_
  simp only [ha, Nat.mod_mod_of_dvd _ (show 2 ^ 64 ∣ 2 ^ 80 by decide)]
  rfl

/-- From step 5 of R260 on, what is not a register of BAR 0 is Drone's to write (R264). -/
theorem execRegisterWrite_drone (hs : 4 ≤ s.host.stage) {t : State} (ha : 2 ≤ s.args.a)
    (hd : s.droneWrite s.args.a s.args.b (s.args.c % 2 ^ 80) = some t) : execRegisterWrite s = .next t := by
  refine event_some ((if_neg (by omega)).trans ?_)
  split
  · omega
  · omega
  · exact hd

theorem State.setPort_ether {port : Nat} (hp : port < 64) (hn : port ∉ s.host.etherPorts) (hi : s.peerIdle = true) :
    s.setPort port true = s.setHost { s.host with etherPorts := port :: s.host.etherPorts.filter (· != port) } := by
  have hn : s.host.etherPorts.contains port = false := by
    rw [← Bool.not_eq_true, List.contains_iff_mem]
    exact hn
  have hg : ¬(64 ≤ port ∨ false = true ∨ (!s.peerIdle) = true) := by
    rintro (h | h | h)
    · omega
    · cases h
    · rw [hi] at h
      cases h
  rw [State.setPort, hn]
  exact if_neg hg

theorem State.setCap_packagePeak (v : Nat) : s.setCap 0 v =
    { s with power := { s.power with peakCap := setNth s.power.peakCap 0 (Nat.min v 2200000) } } := rfl

/-! ## The mailbox (R272, R273) -/

theorem execAttest_of_asked (h : s.asked 1 = true) :
    ∃ sig : List Byte, sig.length = 64 ∧ execAttest s = .next (s.reply (s.attested ++ sig)) :=
  ⟨_, by simp, event_some (if_pos h)⟩

theorem execIdentity_of_asked (h : s.asked 2 = true) : execIdentity s = .next (s.reply identityBytes) :=
  event_some (if_pos h)

theorem execRelease_of_asked (h : s.asked 3 = true) :
    execRelease s = .next (s.reply (leBytes 64 s.host.chanterDigest ++ leBytes 64 s.host.droneDigest)) :=
  event_some (if_pos h)

theorem execCeilings_of_asked (h : s.asked 4 = true) :
    execCeilings s = .next (s.reply (leBytes 4 2200 ++ leBytes 4 2000 ++ leBytes 4 1000 ++ leBytes 4 900)) :=
  event_some (if_pos h)

end Sys2Proof.Machine

open Sys2Proof Sys2Proof.Machine

/-- Settles O50: every part of the state after reset lists nothing, so that each accessor reads what an unlisted key reads as. -/
theorem resetState : Obligations.ResetState := by
  refine ⟨rfl, rfl, fun k => ?_, rfl, rfl, rfl, rfl, rfl, rfl, fun _ => rfl, fun n => ?_, fun t => ⟨?_, ?_⟩, fun n j => ?_,
    rfl, fun n => ?_, rfl, rfl, rfl, rfl⟩
  · rw [State.reset_slotAt]
  · rw [State.reset_coreAt]
    exact ⟨rfl, rfl, rfl, rfl, rfl, rfl, fun _ => rfl⟩
  · rw [State.compute, State.reset_roleOf]
    rfl
  · exact State.reset_roleOf t
  · rw [State.reset_subAt]
    exact ⟨rfl, fun _ => rfl⟩
  · rw [State.reset_sysAt]

/-- Settles O54, an event at a time: each lemma says what its event answers where it is enabled, and the loops over tiles, bytes,
cores and queues go by inductions of their own. -/
theorem bootAndHostEvents : Obligations.BootAndHostEvents := by
  intro s
  refine ⟨execPowerUp_of_off, execBootGo_of_waiting,
    fun hs hb => ⟨execChanterBoot_loads hs hb, ?_, fun _ => s.releaseCores_pc, execChanterBoot_fails hs hb⟩,
    fun hs => ⟨execDroneReady_of_booted hs, ?_⟩,
    ⟨_, rfl, rfl, rfl, rfl, rfl, execPowerOff_byteAt rfl, rfl⟩,
    ⟨fun hc hr => ⟨fun hf => execHostAccess_read hc hf hr, fun hf => execHostAccess_stores hc hf hr⟩,
      execHostAccess_bar2, execHostAccess_bar0⟩,
    fun q hq ha => ⟨?_, ?_⟩, ?_, ?_,
    execAttest_of_asked, execIdentity_of_asked, execRelease_of_asked, execCeilings_of_asked⟩
  · intro home r i hi hp hr hb
    exact s.loadImage_byteAt home r hi (decide_eq_true ⟨hp, hr, hb⟩)
  · intro hq
    exact (execDroneReady_of_booted hs).trans (congrArg _ (State.unlatch_drained hq))
  · intro hb
    exact (execRegisterWrite_bar ha).trans (by rw [hb, State.barWrite_queueBase hq])
  · intro hb
    exact (execRegisterWrite_bar ha).trans (by rw [hb, State.barWrite_queueSize hq])
  · intro hs ha hp hn hc hi
    refine execRegisterWrite_drone hs (by omega) ?_
    rw [ha, hc]
    exact congrArg some (State.setPort_ether hp hn hi)
  · intro hs ha hb hc
    refine execRegisterWrite_drone hs (by omega) ?_
    rw [ha, hb, Nat.mod_eq_of_lt (by omega), State.droneWrite, State.setCap_packagePeak]

end
